-- ==== Sys2Proof/Word.lean ====
section
/-! DEFINITION. The words, tokens and names that instructions, events and the machine share. -/

namespace Sys2Proof

/-- One byte. -/
abbrev Byte := BitVec 8

/-- A 32-bit lane or instruction word (R117). -/
abbrev Word := BitVec 32

/-- A G register, an effective address or a CSR value. -/
abbrev W64 := BitVec 64

/-- A 64-byte line or the data of a token. -/
abbrev Line := BitVec 512

/-- Who executes a word: a sequencer (0 to 31; 32 is Cobalt), or the VE or MN of a package core (R14, R28). -/
inductive Actor where
  | seq (n : Nat)
  | ve (core : Nat)
  | mn (core : Nat)
  deriving DecidableEq, Repr

/-- What the executor of a word is, for the legality column of R130. -/
inductive Kind where
  | seq
  | cobalt
  | ve
  | mn
  deriving DecidableEq, Repr

/-- A token: 64 data bytes, a format tag and a round (R31, R47, R99). -/
structure Token where
  data : BitVec 512
  tag : BitVec 3
  rnd : BitVec 8
  deriving DecidableEq, Repr

/-- The identity of a commit group (R276). -/
structure GroupId where
  chip : Nat
  asid : BitVec 16
  grp : BitVec 6
  epoch : BitVec 8
  deriving DecidableEq, Repr

/-- What the first destination or the initiator answers to a resolution query (R455). -/
inductive Verdict where
  | commit
  | abort
  | wait
  deriving DecidableEq, Repr

/-- Which request, stream line or copied line a HOME_ACCESS applies (R230). -/
inductive Pick where
  /-- The request in flight with this position, from a VE, a sequencer or another chip. -/
  | request (k : Nat)
  /-- The next line of the running binding with this number. -/
  | binding (b : Nat)
  /-- The next line of the RCPY with this number. -/
  | copy (b : Nat)
  deriving DecidableEq, Repr

/-- Where an uncorrectable error strikes (R442). -/
inductive Place where
  /-- The state, scratchpad or matrix memory of a core. -/
  | core (n : Nat)
  /-- An accumulator slot of a core. -/
  | accumulator (n slot : Nat)
  /-- A line of a memory tile. -/
  | tile (line : Nat)
  /-- A line in L2 that HBM also holds, or that is newer there. -/
  | l2 (line : Nat)
  /-- An HBM line whose ECC fails, or a block whose MAC does not match. -/
  | ecc (line : Nat)
  | mac (line : Nat)
  /-- The staged copy of a line that a group holds. -/
  | staging (line : Nat)
  /-- A copy of a decision record. -/
  | record (g : GroupId)
  /-- The buffer of a stream island, at a running binding. -/
  | buffer (bind : Nat)
  deriving DecidableEq, Repr

/-- R249 Table 3: the single-word atomics. -/
inductive Atom where
  | add
  | and
  | or
  | xor
  | swap
  | cas
  | maxu
  | fadd
  deriving DecidableEq, Repr

/-- R251: a near-memory operation: MCAS of `n` words with what it expects and what it writes, ENQ of a node, CHASE under a control; and the
later actions of ENQ and CHASE (R253, R254, R302): the node's link and the old tail's, and the read of a node's key or link, with the hops
still to come. -/
inductive Near where
  | mcas (n : Nat) (expected new : BitVec 256)
  | enq (node : BitVec 64)
  | enqNode (node tail : BitVec 64)
  | enqTail (node tail : BitVec 64)
  | chase (ctl : BitVec 64)
  | chaseKey (ctl ptr : BitVec 64) (left : Nat)
  | chaseLink (ctl ptr : BitVec 64) (left : Nat)
  deriving DecidableEq, Repr

/-- What an access does at its home. Widths are in bytes. -/
inductive MemOp where
  | load (w : Nat)
  | store (w : Nat) (data : BitVec 512)
  | zero
  /-- A line write of a stream: the bytes that a mask names. -/
  | lineWrite (mask : BitVec 64) (data : BitVec 512)
  | loadVer (w : Nat) (m : BitVec 16)
  | loadExact (w : Nat) (e : BitVec 16)
  | storeVer (w : Nat) (v : BitVec 16) (data : BitVec 512)
  | readVer
  | reclaim (b : BitVec 16)
  | atom (op : Atom) (w : Nat) (v e : BitVec 64)
  | arrive (n : BitVec 64)
  | expect (n : BitVec 64)
  | phase (q : BitVec 16)
  /-- CPYL's read; its write goes to the effective address `dst`. -/
  | copy (dst : W64)
  | group (grp : BitVec 6) (w : Nat) (data : BitVec 512)
  | near (x : Near)
  /-- R235: the line is fetched into L2, and nothing is answered. -/
  | prefetch
  deriving DecidableEq, Repr

/-- What a home answers to an access: the bytes, the line's version or a barrier's phase, the outcome code of R228, and the
kind and value of a fault. -/
structure Answer where
  data : BitVec 512 := 0
  ver : BitVec 16 := 0
  code : BitVec 5 := 0
  fault : Option (BitVec 8 × W64) := none
  deriving DecidableEq, Repr

/-- A register that host, board controller or Cobalt writes and that has no event of its own (R318, R368 to R371, R375, R396). -/
inductive Reg where
  | brAsidbase
  | brFnpart (f : Nat)
  | brQcfg (q : Nat)
  | brQring (q : Nat)
  | brQdb (q : Nat)
  | brQstat (q : Nat)
  | brQvf (q : Nat)
  | brTwgt (t : Nat)
  | brPshr (p : Nat)
  | brPfbase (p : Nat)
  | brPftop (p : Nat)
  | brPway (p : Nat)
  | brLtbase (t : Nat)
  | brLtcnt (t : Nat)
  | hpDcfg (f r : Nat)
  | hpDring (f r : Nat)
  | hpDcmp (f r : Nat)
  | hpDstat (f r : Nat)
  | cbMstat (f : Nat)
  /-- Eight bytes of a mailbox buffer at an offset. -/
  | cbMbuf (f off : Nat)
  | clPctl (n : Nat)
  | clChipid
  | clPtctl
  | clRtab (c : Nat)
  | cbThrstat
  /-- What stands at an offset of the BAR0 of a function, 0 for the PF (R368, R370). -/
  | bar (f off : Nat)
  /-- The management register of a number, over the sideband (R396). -/
  | sideband (n : Nat)
  /-- A read-only register, or an offset that no table assigns: a write is ignored. -/
  | unassigned
  deriving DecidableEq, Repr

/-- What a packet between chips carries (R380). Requests and their answers share a number that the issuing chip gave. -/
inductive Body where
  /-- An access to local physical address `la` of the destination, by an issuer of a partition, under a PTE's KEY and VER; a
  near-memory operation carries the address and the page too (R251). `cached` and `first` are what its CACHE field says (R94). -/
  | access (id : Nat) (op : MemOp) (la : Nat) (ver : Bool) (part : BitVec 7) (key : BitVec 12) (ea : BitVec 64) (page size : Nat)
      (cached first : Bool)
  | answer (id : Nat) (a : Answer)
  /-- R224, R305: a store has passed every check of its home and waits there; its answer follows when it is applied. -/
  | accepted (id : Nat) (a : Answer)
  /-- A group store, its acknowledgement, a decision record, and the packets that end a group. -/
  | groupStore (id : Nat) (g : GroupId) (la w : Nat) (data : BitVec 512) (ver : Bool) (part : BitVec 7) (key : BitVec 12) (first : Nat × Nat)
  | groupAck (id : Nat) (code : BitVec 5) (fault : Option (BitVec 8))
  /-- R281 Table 8: the record, with its NLINE. -/
  | record (g : GroupId) (slice : Nat) (nline : BitVec 32)
  | recordAnswer (g : GroupId) (ok : Bool)
  | commit (g : GroupId)
  | abort (g : GroupId)
  | released (g : GroupId)
  | freeRecord (g : GroupId)
  | groupDoom (g : GroupId) (code : BitVec 5)
  | resolve (g : GroupId) (asFirst : Bool) (slice : Nat)
  | resolved (g : GroupId) (v : Verdict)
  | signal (seq : Nat) (part : BitVec 7)
  | launch (id : Nat) (asid : BitVec 16) (q : Nat) (rec : BitVec 512)
  | launchAnswer (id : Nat) (code : BitVec 5) (index : BitVec 64)
  /-- A member request; its answer: the ready time, or a refusal, and whether a saved member stands where it was (R335); the start time
  with the task's SKEW, and whether saved members resume in place; and a member's reports. -/
  | member (gang stage : Nat) (asid : BitVec 16) (entry : BitVec 512) (arg : BitVec 64)
  | memberAnswer (gang stage : Nat) (ready : Option (BitVec 64)) (same : Bool)
  | start (gang : Nat) (time : BitVec 64) (skew : BitVec 16) (inPlace : Bool)
  | started (gang stage : Nat) (code : Bool)
  | done (gang stage : Nat) (v : BitVec 32)
  | endMember (gang : Nat)
  /-- R406, R474: Brass of a member's chip ends its stage, and with it the gang. -/
  | ended (gang stage : Nat) (cause : BitVec 32)
  /-- R336: a refused start releases the members that have been placed. -/
  | releaseMembers (gang : Nat)
  /-- R466: the save of a gang's members is given up. -/
  | resume (gang : Nat)
  /-- R242: a waiting access of a sequencer that is to be saved is to be answered at once. -/
  | withdraw (id : Nat)
  /-- R333: the members of a gang on a chip are to be saved, to resume in place or to restart; a member asks for that; a stage has been
  saved. -/
  | preempt (gang : Nat) (restart : Bool)
  | preemptGang (gang : Nat) (restart : Bool)
  | saved (gang stage : Nat)
  /-- R288: a stage on another chip arrives at a barrier of its gang, or withdraws; the barrier's generation advances. -/
  | barrierAt (gang stage : Nat) (n : BitVec 4) (on : Bool)
  | barrierGo (gang : Nat) (n : BitVec 4)
  /-- A token of a channel into the FIFO with this key, with its gang: the initiator's chip and the task there (R476). -/
  | token (fifo chip task : Nat) (t : Token)
  /-- R275: the sum of an element of a collective through a rank, with what that participant's descriptor says; the result of an
  element; and a disagreement. -/
  | partSum (cid : BitVec 32) (rank nm1 op elems e : Nat) (v : BitVec 32)
  | total (cid : BitVec 32) (e : Nat) (v : BitVec 32)
  | mismatch (cid : BitVec 32)
  /-- A participant has performed its output writes. -/
  | finished (cid : BitVec 32) (rank : Nat)
  /-- An end-to-end acknowledgement of every packet below a number. -/
  | ack (psn : Nat)
  deriving DecidableEq, Repr

/-- A packet from one chip to another, with its pair sequence number (R477). -/
structure Packet where
  src : Nat
  dst : Nat
  psn : Nat
  body : Body
  deriving DecidableEq, Repr

/-- A flit group: its sequence number, the epoch of its key and what it carries (R377). -/
structure FlitGroup where
  seq : Nat
  epoch : BitVec 16
  packets : List Packet
  deriving DecidableEq, Repr

end Sys2Proof
end

