-- ==== Sys2Proof/Config.lean ====
section
/-! DEFINITION. What an implementation fixes and the free values: constants without a body, which nothing can evaluate. A free
value that may differ at each use is applied to a counter the state holds (log 2). -/

namespace Sys2Proof.Config

/-- R79: the version of a line whose page's PTE changed VER from 0 to 1. FREE VALUE (log 2). -/
opaque freeVersion : Nat → BitVec 16

/-- A value that the spec does not state: the TVAL of a fault for which Table 2 of R399 names no value. FREE VALUE (log 2). -/
opaque freeWord : Nat → BitVec 64

/-- R457: whether the read-back of a block fails when it is scrubbed, by scrub and block. FREE VALUE (log 23): the state of the HBM cells
decides it. -/
opaque readBackFails : Nat → Nat → Bool

/-- R334: how many save frames a context takes: the layout of frames is not architectural. FREE VALUE (log 27). -/
opaque saveFrames : Nat → Nat

/-- R334: what a save writes into a line of a frame: the layout of frames is not architectural. FREE VALUE (log 151). -/
opaque frameLine : Nat → BitVec 512

/-- R327: the cores that a stage of another chip takes at ×1, by its stage entry; its image stands on that chip. FREE VALUE (log 26). -/
opaque farCores : BitVec 512 → Nat

/-- Random draws of Cobalt: keys, nonces, BOOTID (R341, R355, R359). FREE VALUE (log 2). -/
opaque freeDraw : Nat → BitVec 256

/-- An approximation of R172 whose enclosure does not decide its rounding, by function number and operand code. FREE VALUE
(log 5): a safe difference, for operands that no test of the enclosure has met. -/
opaque undecided : Nat → Nat → BitVec 32

/-- SM3 of a byte string (R144, R301). The manual names the standard and does not restate it (log 6). -/
opaque sm3 : List (BitVec 8) → BitVec 256

/-- SM2 signature of a digest under a key; the counter stands for the signature's random number (R301; log 6). -/
opaque sm2Sign : BitVec 256 → BitVec 256 → Nat → BitVec 512

/-- SM2 signature verification: public key, digest, signature (R341, R392; log 6). -/
opaque sm2Verify : BitVec 512 → BitVec 256 → BitVec 512 → Bool

/-- The SM2 public key of a private key (log 6). -/
opaque sm2Public : BitVec 256 → BitVec 512

/-- The shared point, x ‖ y, of an SM2 private key and a public key (R355; log 6). -/
opaque sm2Shared : BitVec 256 → BitVec 512 → BitVec 512

/-- SM2 public-key decryption of C1 ‖ C3 ‖ C2 under a private key: the plaintext, where it opens (R353; log 6). -/
opaque sm2Open : BitVec 256 → List (BitVec 8) → Option (List (BitVec 8))

/-- The DER certificate chain of a DeviceID and an alias public key; the alias certificate carries MEAS0 to MEAS3 and the SVN (R342, R345;
log 6). -/
opaque certificates : BitVec 512 → BitVec 512 → List (BitVec 256) → Nat → List (BitVec 8)

/-- R89: the set of its slice in which an HBM line is cached, modulo 4096. FREE VALUE (log 141): the spec gives no index function. -/
opaque l2Set : Nat → Nat

/-- R89: which line of a full set leaves for a line, by cycle. FREE VALUE (log 141). -/
opaque l2Victim : Nat → Nat → Nat

/-- The data of an HBM line whose newer copy in L2 was discarded. FREE VALUE (log 2). -/
opaque freeLine : Nat → BitVec 512

/-- SM4-GCM keystream applied to data under a key and a 96-bit IV (R268, R349; log 6). -/
opaque sm4Gcm : BitVec 128 → BitVec 96 → List (BitVec 8) → List (BitVec 8)

/-- The 128-bit SM4-GCM tag of a ciphertext under a key, an IV and associated data (R268, R349; log 6). -/
opaque sm4Tag : BitVec 128 → BitVec 96 → List (BitVec 8) → List (BitVec 8) → BitVec 128

/-- The ROM of Cobalt, and the Olucor firmware key that it holds (R341; log 6). -/
opaque rom : List (BitVec 8)

opaque firmwareKey : BitVec 512

end Sys2Proof.Config
end

