-- ==== Sys2Proof/Machine/Format.lean ====
section
/-! DEFINITION. The number formats of the package and exact arithmetic on them (chapter 04). A lane is read into an exact value,
an operation is computed exactly, and the result is rounded once into the format that receives it. -/

namespace Sys2Proof.Machine

/-- R99: the formats of tags 0 to 6. -/
inductive Fmt where
  | i32
  | fp32
  | bf16
  | e4m3
  | e5m2
  | e2m1
  | i8
  deriving DecidableEq, Repr

/-- R99: the format of a data tag; the marker tag 7 has none. -/
def fmtOfTag (t : BitVec 3) : Option Fmt :=
  match t.toNat with
  | 0 => some .i32
  | 1 => some .fp32
  | 2 => some .bf16
  | 3 => some .e4m3
  | 4 => some .e5m2
  | 5 => some .e2m1
  | 6 => some .i8
  | _ => none

/-- R99: the tag of a format. -/
def Fmt.tag : Fmt → BitVec 3
  | .i32 => 0
  | .fp32 => 1
  | .bf16 => 2
  | .e4m3 => 3
  | .e5m2 => 4
  | .e2m1 => 5
  | .i8 => 6

/-- R99: bits of one lane. -/
def Fmt.bits : Fmt → Nat
  | .i32 => 32
  | .fp32 => 32
  | .bf16 => 16
  | .e4m3 => 8
  | .e5m2 => 8
  | .e2m1 => 4
  | .i8 => 8

/-- R99: lanes of a token. -/
def Fmt.lanes (f : Fmt) : Nat := 512 / f.bits

/-- R100 Table 2: mantissa bits p of a floating-point format. -/
def Fmt.man : Fmt → Nat
  | .fp32 => 23
  | .bf16 => 7
  | .e4m3 => 3
  | .e5m2 => 2
  | .e2m1 => 1
  | _ => 0

/-- R100 Table 2: exponent bias. -/
def Fmt.bias : Fmt → Int
  | .fp32 => 127
  | .bf16 => 127
  | .e4m3 => 7
  | .e5m2 => 15
  | .e2m1 => 1
  | _ => 0

/-- R101: the exponent of the subnormal step. -/
def Fmt.emin (f : Fmt) : Int := 1 - f.bias - f.man

/-- R101: the largest finite value, as a code with the sign clear. -/
def Fmt.maxCode : Fmt → Nat
  | .fp32 => 0x7F7FFFFF
  | .bf16 => 0x7F7F
  | .e4m3 => 0x7E
  | .e5m2 => 0x7B
  | .e2m1 => 0x7
  | _ => 0

/-- R100: the code of +∞, in a format that has one. -/
def Fmt.infCode : Fmt → Nat
  | .fp32 => 0x7F800000
  | .bf16 => 0x7F80
  | .e5m2 => 0x7C
  | _ => 0

/-- R102: the canonical quiet NaN; E2M1 and the integers have none. -/
def Fmt.qnan : Fmt → Nat
  | .fp32 => 0x7FC00000
  | .bf16 => 0x7FC0
  | .e4m3 => 0x7F
  | .e5m2 => 0x7E
  | _ => 0

/-- R104: rounding modes. -/
inductive RMode where
  | rne
  | rz
  | ru
  | rd
  deriving DecidableEq, Repr

/-- R104 Table 5. -/
def rmOf (u : BitVec 2) : RMode :=
  match u.toNat with
  | 0 => .rne
  | 1 => .rz
  | 2 => .ru
  | _ => .rd

/-- An exact value: not a number, an infinity, or (−1)^neg × m × 2^e. A zero keeps its sign. -/
inductive Val where
  | nan
  | inf (neg : Bool)
  | fin (neg : Bool) (m : Nat) (e : Int)
  deriving DecidableEq, Repr

/-- Bits of a natural number. -/
def bitLen (n : Nat) : Nat := if n = 0 then 0 else n.log2 + 1

/-- R100 to R103: the exact value of a lane's code. -/
def valOf (f : Fmt) (c : Nat) : Val :=
  match f with
  | .i32 => let x := (BitVec.ofNat 32 c).toInt; .fin (decide (x < 0)) x.natAbs 0
  | .i8 => let x := (BitVec.ofNat 8 c).toInt; .fin (decide (x < 0)) x.natAbs 0
  | _ =>
    let neg := decide (c / 2 ^ (f.bits - 1) % 2 = 1)
    let mag := c % 2 ^ (f.bits - 1)
    if f.maxCode < mag then
      if f.infCode ≠ 0 ∧ mag = f.infCode then .inf neg else .nan
    else
      let x := mag / 2 ^ f.man
      let m := mag % 2 ^ f.man
      if x = 0 then .fin neg m f.emin else .fin neg (2 ^ f.man + m) (f.emin + (x - 1 : Nat))

def Val.isNan : Val → Bool
  | .nan => true
  | _ => false

def Val.isZero : Val → Bool
  | .fin _ m _ => m == 0
  | _ => false

def Val.isInf : Val → Bool
  | .inf _ => true
  | _ => false

/-- The sign bit; a NaN has none (R102). -/
def Val.sign : Val → Bool
  | .nan => false
  | .inf n => n
  | .fin n _ _ => n

def Val.neg : Val → Val
  | .nan => .nan
  | .inf n => .inf (!n)
  | .fin n m e => .fin (!n) m e

def Val.abs : Val → Val
  | .nan => .nan
  | .inf _ => .inf false
  | .fin _ m e => .fin false m e

/-- The exact product, with the special cases of IEEE 754 (R108). -/
def Val.mul (x y : Val) : Val :=
  match x, y with
  | .nan, _ => .nan
  | _, .nan => .nan
  | .inf a, .inf b => .inf (a != b)
  | .inf a, .fin b m _ => if m = 0 then .nan else .inf (a != b)
  | .fin a m _, .inf b => if m = 0 then .nan else .inf (a != b)
  | .fin a m e, .fin b n k => .fin (a != b) (m * n) (e + k)

/-- A finite value as a whole number of steps 2^e, for an e at or below its own exponent. -/
def stepsAt (neg : Bool) (m : Nat) (e lo : Int) : Int :=
  let x : Int := (m * 2 ^ (e - lo).toNat : Nat)
  if neg then -x else x

/-- The exact sum, with the special cases of IEEE 754 and the zero signs of R108. -/
def Val.add (rm : RMode) (x y : Val) : Val :=
  match x, y with
  | .nan, _ => .nan
  | _, .nan => .nan
  | .inf a, .inf b => if a = b then .inf a else .nan
  | .inf a, .fin _ _ _ => .inf a
  | .fin _ _ _, .inf b => .inf b
  | .fin a m e, .fin b n k =>
    if m = 0 ∧ n = 0 then .fin (if a = b then a else rm == .rd) 0 0
    else if m = 0 then .fin b n k
    else if n = 0 then .fin a m e
    else
      let lo := min e k
      let s := stepsAt a m e lo + stepsAt b n k lo
      if s = 0 then .fin (rm == .rd) 0 0 else .fin (decide (s < 0)) s.natAbs lo

/-- The order of two values that are no NaN, with −0 equal to +0 (R163). -/
def Val.cmp (x y : Val) : Ordering :=
  match x, y with
  | .inf a, .inf b => if a = b then .eq else if a then .lt else .gt
  | .inf a, _ => if a then .lt else .gt
  | _, .inf b => if b then .gt else .lt
  | .fin a m e, .fin b n k => let lo := min e k; compare (stepsAt a m e lo) (stepsAt b n k lo)
  | _, _ => .eq

/-- Whether to step a magnitude up: `odd` its last bit, `half` the comparison of what is cut off with half a step. -/
def roundUp (rm : RMode) (neg odd : Bool) (half : Ordering) (inexact : Bool) : Bool :=
  match rm with
  | .rne => match half with
    | .gt => true
    | .eq => odd
    | .lt => false
  | .rz => false
  | .ru => inexact && !neg
  | .rd => inexact && neg

/-- Cuts `k` bits off a magnitude and rounds; `sticky` says that the true value lies above `m` by less than one. The number of
bits looked at is bounded by the magnitude's own length. -/
def cutBits (rm : RMode) (neg : Bool) (m : Nat) (sticky : Bool) (k : Nat) : Nat :=
  let k := min k (bitLen m + 2)
  let q := m / 2 ^ k
  let r := m % 2 ^ k
  let half := if 2 * r < 2 ^ k then Ordering.lt
    else if 2 * r = 2 ^ k then (if sticky then .gt else .eq) else .gt
  let half := if k = 0 then Ordering.lt else half
  if roundUp rm neg (q % 2 == 1) half (r != 0 || sticky) then q + 1 else q

/-- R106 `round_unbounded`: rounds a nonzero magnitude to the format's precision and subnormals with no upper limit. -/
def roundUnbounded (f : Fmt) (rm : RMode) (neg : Bool) (m : Nat) (e : Int) (sticky : Bool) : Nat × Int :=
  let e' := max f.emin (bitLen m + e - (f.man + 1))
  if e' < e then (m * 2 ^ (e - e').toNat, e') else (cutBits rm neg m sticky (e' - e).toNat, e')

/-- R106 `ieee_overflow`, as a code. -/
def ieeeOverflow (f : Fmt) (rm : RMode) (neg : Bool) : Nat :=
  let s := if neg then 2 ^ (f.bits - 1) else 0
  let big := match rm with
    | .rne => f.infCode
    | .rz => f.maxCode
    | .ru => if neg then f.maxCode else f.infCode
    | .rd => if neg then f.infCode else f.maxCode
  s + big

/-- The code of a magnitude above which nothing finite lies, or none: a rounded magnitude as the format's code. -/
def codeOf (f : Fmt) (neg : Bool) (m : Nat) (e : Int) : Nat :=
  (if neg then 2 ^ (f.bits - 1) else 0) + ((e - f.emin).toNat * 2 ^ f.man + m)

/-- A magnitude of at least 2^(emax + 1) overflows without being rounded. -/
def tooBig (f : Fmt) (m : Nat) (e : Int) : Bool :=
  decide ((f.maxCode / 2 ^ f.man : Nat) - f.bias + 1 < bitLen m + e)

/-- The code of a finite value rounded under R104 and R106; none where it overflows. -/
def roundFinite (f : Fmt) (rm : RMode) (neg : Bool) (m : Nat) (e : Int) (sticky : Bool) : Option Nat :=
  if m = 0 ∧ sticky = false then some (if neg then 2 ^ (f.bits - 1) else 0)
  else if tooBig f m e then none
  else
    let r := roundUnbounded f rm neg m e sticky
    let c := codeOf f false r.1 r.2
    if f.maxCode < c then none else some (codeOf f neg r.1 r.2)

/-- R108: an operation's exact result rounded once, with IEEE 754 overflow; an infinity stays one. -/
def roundIeee (f : Fmt) (rm : RMode) (v : Val) (sticky : Bool := false) : Nat :=
  match v with
  | .nan => f.qnan
  | .inf n => (if n then 2 ^ (f.bits - 1) else 0) + f.infCode
  | .fin n m e => (roundFinite f rm n m e sticky).getD (ieeeOverflow f rm n)

/-- R106: rounds to an integer. -/
def roundInt (rm : RMode) (neg : Bool) (m : Nat) (e : Int) : Int :=
  let r := if 0 ≤ e then m * 2 ^ e.toNat else cutBits rm neg m false (-e).toNat
  if neg then -(r : Int) else r

/-- R106: the value clamped to a signed range of `b` bits, as a code of that width. -/
def clampInt (b : Nat) (x : Int) : Nat :=
  (BitVec.ofInt b (max (-(2 ^ (b - 1))) (min (2 ^ (b - 1) - 1) x))).toNat

/-- R106: `cvt(x, fmt, rm, ns)`. An infinite x takes the overflow branch. -/
def cvt (v : Val) (f : Fmt) (rm : RMode) (ns : Bool) : Nat :=
  match f with
  | .i32 | .i8 => match v with
    | .nan => 0
    | .inf n => clampInt f.bits (if n then -(2 ^ 40) else 2 ^ 40)
    | .fin n m e =>
      if m ≠ 0 ∧ 40 < bitLen m + e then clampInt f.bits (if n then -(2 ^ 40) else 2 ^ 40)
      else clampInt f.bits (roundInt rm n m e)
  | _ =>
    let tooBig (n : Bool) : Nat :=
      let s := if n then 2 ^ (f.bits - 1) else 0
      if f = .fp32 ∨ f = .bf16 then ieeeOverflow f rm n
      else if f = .e2m1 ∨ ns = false then s + f.maxCode
      else
        let r := ieeeOverflow f rm n
        if f = .e4m3 ∧ r % 2 ^ (f.bits - 1) = f.infCode then f.qnan else r
    match v with
    | .nan => if f = .e2m1 then 0 else f.qnan
    | .inf n => tooBig n
    | .fin n m e => (roundFinite f rm n m e false).getD (tooBig n)

/-- R170: FMIN and FMAX order −∞ < … < −0 < +0 < … < +∞; a NaN input gives the other input. -/
def minMax (f : Fmt) (wantMax : Bool) (x y : Nat) : Nat :=
  let a := valOf f x
  let b := valOf f y
  if a.isNan && b.isNan then f.qnan
  else if a.isNan then y
  else if b.isNan then x
  else
    let less := match a.cmp b with
      | .lt => true
      | .gt => false
      | .eq => a.sign && !b.sign
    if less == wantMax then y else x

/-- Integer square root by Newton's iteration from above; `fuel` bounds the steps. -/
def isqrtFrom (n : Nat) : Nat → Nat → Nat
  | 0, r => r
  | fuel + 1, r => let r' := (r + n / r) / 2; if r' < r then isqrtFrom n fuel r' else r

/-- The largest r with r² ≤ n. -/
def isqrt (n : Nat) : Nat := if n = 0 then 0 else isqrtFrom n (bitLen n + 1) (2 ^ ((bitLen n + 1) / 2))

/-- R172 `round_sig`: rounds to `q` significant bits, ties to even, with no exponent limit. -/
def roundSig (q : Nat) (m : Nat) (e : Int) (sticky : Bool) : Nat × Int :=
  let k := bitLen m - q
  let r := cutBits .rne false m sticky k
  if r = 2 ^ q then (2 ^ (q - 1), e + k + 1) else (r, e + k)

/-- R172: significant bits of an approximation. -/
def sigBits (f : Fmt) : Nat := if f = .bf16 then 8 else 22

/-- R172: the result of an approximation whose exact value is (−1)^neg × m × 2^e, a little more when sticky. -/
def approxExact (f : Fmt) (neg : Bool) (m : Nat) (e : Int) (sticky : Bool) : Nat :=
  let r := roundSig (sigBits f) m e sticky
  roundIeee f .rne (.fin neg r.1 r.2)

/-- R172: the result of an approximation whose exact magnitude lies strictly between `lo` and `hi` steps 2^e; none where the two
ends round apart. -/
def approxBetween (f : Fmt) (neg : Bool) (lo hi : Nat) (e : Int) : Option Nat :=
  let q := sigBits f
  if lo < 2 ^ (q + 1) then none
  else if roundSig q lo e true = roundSig q (hi - 1) e true then some (approxExact f neg lo e true) else none

/-- R172: 1/x. -/
def rcpFin (f : Fmt) (neg : Bool) (m : Nat) (e : Int) : Nat :=
  let k := bitLen m + sigBits f + 4
  approxExact f neg (2 ^ k / m) (-e - k) (2 ^ k % m != 0)

/-- A magnitude with an even exponent. -/
def evenExp (m : Nat) (e : Int) : Nat × Int := if e % 2 = 0 then (m, e) else (2 * m, e - 1)

/-- R172: 1/√x. -/
def rsqrtFin (f : Fmt) (m : Nat) (e : Int) : Nat :=
  let x := evenExp m e
  let k := bitLen x.1 + sigBits f + 4
  let r := isqrt (2 ^ (2 * k) / x.1)
  approxExact f false r (-(x.2 / 2) - k) (r * r * x.1 != 2 ^ (2 * k))

/-- R168: √x, rounded once. -/
def sqrtFin (f : Fmt) (rm : RMode) (m : Nat) (e : Int) : Nat :=
  let x := evenExp m e
  let k := f.man + 4
  let n := x.1 * 2 ^ (2 * k)
  let r := isqrt n
  roundIeee f rm (.fin false r (x.2 / 2 - k)) (r * r != n)

/-- Fixed-point precision of the enclosures below. -/
def encBits : Nat := 96

/-- Enclosures of 2^(2^−i), for i from 1 to n, in steps 2^−encBits: each the square root of the one before. -/
def exp2Roots : Nat → Nat → Nat → List (Nat × Nat)
  | 0, _, _ => []
  | n + 1, lo, hi =>
    let lo' := isqrt (lo * 2 ^ encBits)
    let hi' := isqrt (hi * 2 ^ encBits) + 1
    (lo', hi') :: exp2Roots n lo' hi'

/-- An enclosure of 2^(0.b₁b₂…) as the product of the roots whose bit is set; `bits` holds the fraction, highest bit first. -/
def exp2Product : List (Nat × Nat) → Nat → Nat → Nat → Nat × Nat
  | [], _, lo, hi => (lo, hi)
  | (a, b) :: rs, bits, lo, hi =>
    let n := rs.length
    if bits / 2 ^ n % 2 = 1 then exp2Product rs (bits % 2 ^ n) (lo * a / 2 ^ encBits) (hi * b / 2 ^ encBits + 1)
    else exp2Product rs (bits % 2 ^ n) lo hi

/-- R172: 2^x for a finite x that is no integer; none where the enclosure does not decide. -/
def exp2Fin (f : Fmt) (neg : Bool) (m : Nat) (e : Int) : Option Nat :=
  let n : Nat := 64
  -- x in steps 2^-64, rounded down, and whether that is exact
  let s := stepsAt neg m 0 0
  let k := (-e - n).toNat
  let x : Int := if -(n : Int) ≤ e then s * 2 ^ (e + n).toNat else s / 2 ^ k
  let exact := decide (-(n : Int) ≤ e) || decide (s % 2 ^ k = 0)
  let whole := x / 2 ^ n
  let frac := (x % 2 ^ n).toNat
  let roots := exp2Roots n (2 * 2 ^ encBits) (2 * 2 ^ encBits)
  let one := 2 ^ encBits
  let lo := (exp2Product roots frac one one).1
  let hi := (exp2Product roots frac one one).2
  -- one more step of 2^-64 in x multiplies by less than 1 + 2^-64
  let hi' := if exact then hi + 1 else hi + hi / 2 ^ 63 + 2
  approxBetween f false lo hi' (whole - encBits)

/-- R172: EXP2 of a finite value. -/
def exp2Val (f : Fmt) (neg : Bool) (m : Nat) (e : Int) : Option Nat :=
  if m = 0 then some (roundIeee f .rne (.fin false 1 0))
  else if 12 < bitLen m + e then
    some (if neg then roundIeee f .rne (.fin false 1 (-100000)) else roundIeee f .rne (.inf false))
  else if 0 ≤ e ∨ m % 2 ^ (-e).toNat = 0 then
    let x := if 0 ≤ e then stepsAt neg (m * 2 ^ e.toNat) 0 0 else stepsAt neg (m / 2 ^ (-e).toNat) 0 0
    some (roundIeee f .rne (.fin false 1 x))
  else if bitLen m + e < -40 then
    -- 2^x is 1 and a little more or less
    some (if neg then approxExact f false (2 ^ 30 - 1) (-30) true else approxExact f false (2 ^ 30) (-30) true)
  else exp2Fin f neg m e

/-- The bits of log2 of a number from 1 to 2, by repeated squaring of an enclosure in steps 2^−192; stops where the enclosure no
longer decides a bit. Answers how many bits were found and what they are. -/
def log2Bits : Nat → Nat → Nat → Nat → Nat → Nat × Nat
  | 0, _, _, n, acc => (n, acc)
  | fuel + 1, lo, hi, n, acc =>
    let lo2 := lo * lo / 2 ^ 192
    let hi2 := hi * hi / 2 ^ 192 + 1
    if 2 ^ 193 ≤ lo2 then log2Bits fuel (lo2 / 2) (hi2 / 2 + 1) (n + 1) (2 * acc + 1)
    else if hi2 < 2 ^ 193 then log2Bits fuel lo2 hi2 (n + 1) (2 * acc)
    else (n, acc)

/-- R172: LOG2 of a positive finite value. -/
def log2Val (f : Fmt) (m : Nat) (e : Int) : Option Nat :=
  let l := bitLen m
  let k : Int := e + l - 1
  if m = 2 ^ (l - 1) then some (roundIeee f .rne (.fin (decide (k < 0)) k.natAbs 0))
  else
    let y := m * 2 ^ 192 / 2 ^ (l - 1)
    let r := log2Bits 80 y y 0 0
    let lo : Int := k * 2 ^ r.1 + r.2
    -- the logarithm lies strictly between lo and lo + 1 steps 2^-n
    if 0 ≤ lo then approxBetween f false lo.toNat (lo.toNat + 1) (-(r.1 : Int))
    else approxBetween f true (-lo - 1).toNat (-lo).toNat (-(r.1 : Int))

/-- The sum of the first terms of e^y − 1, y = t / 2^128 below 1/4, as an enclosure in steps 2^−128. -/
def expTerms (t : Nat) : Nat → Nat → Nat → Nat → Nat → Nat × Nat
  | 0, _, _, lo, hi => (lo, hi + 1)
  | fuel + 1, n, a, lo, hi =>
    -- a is the n-th term rounded down, a + n + 1 rounded up
    let a' := a * t / 2 ^ 128 / n
    expTerms t fuel (n + 1) a' (lo + a') (hi + a' + n + 2)

/-- Squares an enclosure in steps 2^−128 `n` times. -/
def squareTimes : Nat → Nat → Nat → Nat × Nat
  | 0, lo, hi => (lo, hi)
  | n + 1, lo, hi => squareTimes n (lo * lo / 2 ^ 128) (hi * hi / 2 ^ 128 + 1)

/-- R172: TANH of the magnitude of a nonzero finite value. -/
def tanhVal (f : Fmt) (neg : Bool) (m : Nat) (e : Int) : Option Nat :=
  let size := bitLen m + e
  if 4 < size then some (approxExact f neg (2 ^ 40 - 1) (-40) true)
  else if size < -10 then
    -- x − x³/3 < tanh x < x − x³/3 + 2x⁵/15, taken in steps 2^(5e − 8): e is negative here
    let u := (-4 * e).toNat
    let x1 := m * 2 ^ (u + 8)
    let x3 := m ^ 3 * 2 ^ ((-2 * e).toNat + 8)
    let x5 := m ^ 5 * 2 ^ 8
    approxBetween f neg (x1 - x3 / 3 - 1) (x1 - x3 / 3 + 2 * x5 / 15 + 1) (5 * e - 8)
  else
    -- y = 2x / 2^7 in steps 2^-128; x has no bit below 2^-128 here
    let t := m * 2 ^ (e + 128 + 1 - 7).toNat
    let one := 2 ^ 128
    let s := expTerms t 30 1 one one one
    let x := squareTimes 7 s.1 s.2
    -- tanh x = 1 − 2 / (e^2x + 1)
    approxBetween f neg (one - 2 * one * one / (x.1 + one) - 1) (one - 2 * one * one / (x.2 + one) + 1) (-128)

end Sys2Proof.Machine
end

