-- ==== Sys2Proof/Machine/Lanes.lean ====
section
/-! DEFINITION. Lanes (R145): a G register or a token's data read as lanes of w bits, and results put together lane by lane. -/

namespace Sys2Proof.Machine

/-- Lane `i` of `w` bits. -/
def lane {N : Nat} (x : BitVec N) (w i : Nat) : BitVec w := x.extractLsb' (w * i) w

/-- `n` lanes of `w` bits as one number, lane 0 lowest. -/
def assemble (w : Nat) (f : Nat → Nat) : Nat → Nat
  | 0 => 0
  | n + 1 => assemble w f n + f n % 2 ^ w * 2 ^ (w * n)

/-- A value of `N` bits from its lanes. -/
def ofLanes (N w : Nat) (f : Nat → Nat) : BitVec N := BitVec.ofNat N (assemble w f (N / w))

/-- Computes each lane from the lanes of two operands (R160). -/
def mapLanes {N : Nat} (w : Nat) (op : BitVec w → BitVec w → BitVec w) (x y : BitVec N) : BitVec N :=
  ofLanes N w fun i => (op (lane x w i) (lane y w i)).toNat

/-- R127 Table 6: lane width codes 0 to 3. -/
def laneWidth (w : BitVec 2) : Nat := 8 * 2 ^ w.toNat

/-- Byte `k` of a value. -/
def byteAt {N : Nat} (x : BitVec N) (k : Nat) : BitVec 8 := x.extractLsb' (8 * k) 8

/-- `n` bytes from byte `k` up, as a number. -/
def bytesAt {N : Nat} (x : BitVec N) (k n : Nat) : Nat := (x.extractLsb' (8 * k) (8 * n)).toNat

/-- Replaces `n` bytes from byte `k` up. -/
def setBytes {N : Nat} (x : BitVec N) (k n : Nat) (v : Nat) : BitVec N :=
  let mask : BitVec N := BitVec.ofNat N ((2 ^ (8 * n) - 1) * 2 ^ (8 * k))
  (x &&& ~~~mask) ||| BitVec.ofNat N (v % 2 ^ (8 * n) * 2 ^ (8 * k))

/-- Replaces `n` bits from bit `k` up. -/
def setBits {N : Nat} (x : BitVec N) (k n : Nat) (v : Nat) : BitVec N :=
  let mask : BitVec N := BitVec.ofNat N ((2 ^ n - 1) * 2 ^ k)
  (x &&& ~~~mask) ||| BitVec.ofNat N (v % 2 ^ n * 2 ^ k)

end Sys2Proof.Machine
end

