-- ==== Sys2Proof/Machine/Flags.lean ====
section
/-! DEFINITION. Conditions and predicate functions: what CMP, FCMP, PLOG, MKTST, TAGCHK, ITNXT and the status forms write into a
predicate (R163 to R167, R228). -/

namespace Sys2Proof.Machine

/-- R163: the integer condition `c` on two lanes. -/
def intCond {w : Nat} (c : BitVec 3) (x y : BitVec w) : Bool :=
  match c.toNat with
  | 0 => x == y
  | 1 => x != y
  | 2 => x.slt y
  | 3 => !x.slt y
  | 4 => x.ult y
  | 5 => !x.ult y
  | 6 => x.sle y
  | _ => !x.sle y

/-- R163: the AND over the lanes, or with `any` their OR. -/
def overLanes (n : Nat) (any : Bool) (f : Nat → Bool) : Bool :=
  if any then (List.range n).any f else (List.range n).all f

/-- R163: CMP over a whole operand. -/
def cmpLanes {N : Nat} (w : Nat) (c : BitVec 3) (any : Bool) (x y : BitVec N) : Bool :=
  overLanes (N / w) any fun i => intCond c (lane x w i) (lane y w i)

/-- R163: the floating-point condition `c`: eq, lt, le or unordered; −0 equals +0. -/
def floatCond (f : Fmt) (c : BitVec 2) (x y : Nat) : Bool :=
  let a := valOf f x
  let b := valOf f y
  let un := a.isNan || b.isNan
  match c.toNat with
  | 0 => !un && a.cmp b == .eq
  | 1 => !un && a.cmp b == .lt
  | 2 => !un && a.cmp b != .gt
  | _ => un

/-- R163: FCMP over a token. -/
def fcmpLanes (f : Fmt) (c : BitVec 2) (any : Bool) (x y : BitVec 512) : Bool :=
  overLanes f.lanes any fun i => floatCond f c (lane x f.bits i).toNat (lane y f.bits i).toNat

/-- R164: the logical function of PLOG. -/
def logicFn (f : BitVec 3) (x y : Bool) : Bool :=
  match f.toNat with
  | 0 => x && y
  | 1 => x || y
  | 2 => x != y
  | 3 => x && !y
  | 4 => x || !y
  | 5 => !(x && y)
  | 6 => !(x || y)
  | _ => x == y

/-- R228 Table 1 and R285 Table 9: the predicate of an outcome code. -/
def outcomePred (code : BitVec 5) : Bool := decide (code.toNat < 3)

end Sys2Proof.Machine
end

