-- ==== Sys2Proof/Syntax.lean ====
section
/-! DEFINITION. The instruction set: one constructor for each row of spec/opcode_table.json. The first 171 rows are
Leonil words; their arguments are the word's fields as the table names and sizes them (a one-bit field is a Bool). The
other 125 rows are the events of the package; their arguments choose the event's subject or carry what comes from
outside. -/

namespace Sys2Proof

/-- One step of the package: a Leonil word, or an event. Each constructor cites the rule its row cites. -/
inductive Instr where
  /-- R149. Does nothing apart from using its slot or advancing the fetch address. -/
  | nop (p : BitVec 3)
  /-- R151. Stops sequencer fetch until the event flag is set, and clears the flag when it proceeds. -/
  | idle (p : BitVec 3)
  /-- R150. Branches by a word offset when its predicate condition holds. -/
  | b (c : BitVec 4) (f : BitVec 20)
  /-- R150. Branches to the byte address held in G[a]. -/
  | bi (a : BitVec 4) (p : BitVec 3)
  /-- R150. Pushes the return address on the G15 stack and branches by a word offset when its condition holds. -/
  | call (c : BitVec 4) (f : BitVec 20)
  /-- R150. Pushes the return address on the G15 stack and branches to G[a]. -/
  | calli (a : BitVec 4) (p : BitVec 3)
  /-- R150. Pops the return address from the G15 stack and branches to it. -/
  | ret (p : BitVec 3)
  /-- R150. Decrements the count in G[d] and branches back while it stays nonzero. -/
  | loop (d : BitVec 4) (i : BitVec 16)
  /-- R151. Waits until every scoreboard token of its mask is free. -/
  | waitt (s : BitVec 8)
  /-- R152. Reads a sequencer CSR into a G register, after checking its class and number. -/
  | csrr (d : BitVec 4) (i : BitVec 12)
  /-- R152. Writes G[a] into a CSR and returns the old value, as one indivisible step. -/
  | csrw (d a : BitVec 4) (i : BitVec 12)
  /-- R152. Sets the CSR bits given in G[a] and returns the old value. -/
  | csrs (d a : BitVec 4) (i : BitVec 12)
  /-- R152. Clears the CSR bits given in G[a] and returns the old value. -/
  | csrc (d a : BitVec 4) (i : BitVec 12)
  /-- R156. Orders the issuer's earlier and later memory accesses at the named scope, with acquire, release or both. -/
  | fence (o : BitVec 2) (s : BitVec 3)
  /-- R157. Records a sequencer restart point: PC, tag, argument and stack pointer. -/
  | rstpt (a : BitVec 4) (i : BitVec 12)
  /-- R155. Enters the trap handler with cause 0x0002. -/
  | trap (a : BitVec 4) (i : BitVec 12)
  /-- R155. Acknowledges trap record 0 by clearing UNACK. -/
  | tack (p : BitVec 3)
  /-- R155. Returns from a trap to the recorded PC and level, and hands a class 2 fault to Brass with its disposition. -/
  | tret (p : BitVec 3)
  /-- R155. Enters the trap handler at supervisor level with cause 0x0001. -/
  | svc (a : BitVec 4) (i : BitVec 12)
  /-- R158. Reads one 64-bit scan word of a held core's unit into G[d]. -/
  | scanr (a d : BitVec 4) (e : BitVec 12)
  /-- R160. Adds lanes of a and b at width w, optionally as a reducing stateful row. -/
  | add (a b d r : BitVec 4) (p : BitVec 3) (j : Bool) (w : BitVec 2)
  /-- R160. Subtracts lanes of b from a at width w. -/
  | sub (a b d r : BitVec 4) (p : BitVec 3) (w : BitVec 2)
  /-- R160. Gives the low w bits of each lane product. -/
  | mul (a b d r : BitVec 4) (p : BitVec 3) (w : BitVec 2)
  /-- R160. Gives the high w bits of each signed lane product. -/
  | mulh (a b d r : BitVec 4) (p : BitVec 3) (w : BitVec 2)
  /-- R160. Gives the high w bits of each unsigned lane product. -/
  | mulhu (a b d r : BitVec 4) (p : BitVec 3) (w : BitVec 2)
  /-- R160. Divides lanes, truncating toward zero, signed or unsigned, on a sequencer only. -/
  | div (a b d : BitVec 4) (p : BitVec 3) (u : Bool) (w : BitVec 2)
  /-- R160. Gives the remainder of lane division, with the sign of x, on a sequencer only. -/
  | rem (a b d : BitVec 4) (p : BitVec 3) (u : Bool) (w : BitVec 2)
  /-- R160. Computes the bitwise AND of lanes, optionally as a reducing stateful row. -/
  | and (a b d r : BitVec 4) (p : BitVec 3) (j : Bool) (w : BitVec 2)
  /-- R160. Computes the bitwise OR of lanes, optionally as a reducing stateful row. -/
  | or (a b d r : BitVec 4) (p : BitVec 3) (j : Bool) (w : BitVec 2)
  /-- R160. Computes the bitwise XOR of lanes, optionally as a reducing stateful row. -/
  | xor (a b d r : BitVec 4) (p : BitVec 3) (j : Bool) (w : BitVec 2)
  /-- R160. Computes x AND NOT y per lane. -/
  | andn (a b d r : BitVec 4) (p : BitVec 3) (w : BitVec 2)
  /-- R160. Shifts lanes left by the amounts in b. -/
  | shl (a b d r : BitVec 4) (p : BitVec 3) (w : BitVec 2)
  /-- R160. Shifts lanes right logically by the amounts in b. -/
  | shr (a b d r : BitVec 4) (p : BitVec 3) (w : BitVec 2)
  /-- R160. Shifts lanes right arithmetically by the amounts in b. -/
  | sra (a b d r : BitVec 4) (p : BitVec 3) (w : BitVec 2)
  /-- R160. Rotates lanes left by n mod w. -/
  | rot (a b d r : BitVec 4) (p : BitVec 3) (w : BitVec 2)
  /-- R160. Gives the signed minimum per lane, optionally reducing. -/
  | min (a b d r : BitVec 4) (p : BitVec 3) (j : Bool) (w : BitVec 2)
  /-- R160. Gives the signed maximum per lane, optionally reducing. -/
  | max (a b d r : BitVec 4) (p : BitVec 3) (j : Bool) (w : BitVec 2)
  /-- R160. Gives the unsigned minimum per lane, optionally reducing. -/
  | minu (a b d r : BitVec 4) (p : BitVec 3) (j : Bool) (w : BitVec 2)
  /-- R160. Gives the unsigned maximum per lane, optionally reducing. -/
  | maxu (a b d r : BitVec 4) (p : BitVec 3) (j : Bool) (w : BitVec 2)
  /-- R160. Gives the wrapping absolute value of each lane. -/
  | abs (a d r : BitVec 4) (p : BitVec 3) (w : BitVec 2)
  /-- R160. Negates each lane. -/
  | neg (a d r : BitVec 4) (p : BitVec 3) (w : BitVec 2)
  /-- R160. Adds lanes with signed or unsigned saturation. -/
  | adds (a b d r : BitVec 4) (p : BitVec 3) (u : Bool) (w : BitVec 2)
  /-- R160. Subtracts lanes with signed or unsigned saturation. -/
  | subs (a b d r : BitVec 4) (p : BitVec 3) (u : Bool) (w : BitVec 2)
  /-- R160. Counts the leading zeros of each lane. -/
  | clz (a d r : BitVec 4) (p : BitVec 3) (w : BitVec 2)
  /-- R160. Counts the set bits of each lane. -/
  | popc (a d r : BitVec 4) (p : BitVec 3) (w : BitVec 2)
  /-- R160. Selects operand a or b whole according to predicate Pn. -/
  | sel (a b d r : BitVec 4) (p n : BitVec 3)
  /-- R161. Adds a sign-extended immediate. -/
  | addi (a d : BitVec 4) (i : BitVec 16)
  /-- R161. ANDs with a sign-extended immediate. -/
  | andi (a d : BitVec 4) (i : BitVec 16)
  /-- R161. ORs with a zero-extended immediate. -/
  | ori (a d : BitVec 4) (i : BitVec 16)
  /-- R161. Loads a sign-extended immediate. -/
  | movi (d : BitVec 4) (i : BitVec 16)
  /-- R161. Shifts a left by 16 and ORs in a zero-extended immediate. -/
  | movhi (a d : BitVec 4) (i : BitVec 16)
  /-- R162. Computes a + (b << s) + off9 without faulting. -/
  | lea (a b d : BitVec 4) (k : BitVec 3) (f : BitVec 9)
  /-- R163. Compares integer lanes and writes the AND or OR of the condition into a predicate. -/
  | cmp (a b d : BitVec 4) (p c : BitVec 3) (w : BitVec 2)
  /-- R163. Compares floating-point lanes and writes the result into a predicate. -/
  | fcmp (a b d : BitVec 4) (p : BitVec 3) (c : BitVec 2) (f : Bool)
  /-- R164. Combines two predicates with a logical function into a third. -/
  | plog (a b d p f : BitVec 3)
  /-- R164. Reads the eight predicates into G[d]. -/
  | prd (d : BitVec 4) (p : BitVec 3)
  /-- R164. Writes predicates from G[a] under the mask in G[b]. -/
  | pwr (a b : BitVec 4) (p : BitVec 3)
  /-- R165. Sets an iteration counter's limit and clears its count. -/
  | itset (d : BitVec 2) (i : BitVec 16)
  /-- R165. Advances an iteration counter and writes whether it wrapped into a predicate. -/
  | itnxt (a : BitVec 2) (d p : BitVec 3)
  /-- R166. Emits an I32 token holding the element's round. -/
  | rndget (d r : BitVec 4) (p : BitVec 3)
  /-- R166. Sets the element's round from lane 0 of a. -/
  | rndset (a : BitVec 4) (p : BitVec 3)
  /-- R166. Emits an end-of-round or drain marker of the element's round. -/
  | mkemit (d r : BitVec 4) (p : BitVec 3) (k : BitVec 2)
  /-- R166. Tests, without consuming, whether an operand is a marker of a kind. -/
  | mktst (a : BitVec 4) (d p : BitVec 3) (k : BitVec 2)
  /-- R167. Emits a's bytes under a new format tag. -/
  | tagset (a d r : BitVec 4) (p t : BitVec 3)
  /-- R167. Tests, without consuming, whether a's tag equals a value. -/
  | tagchk (a : BitVec 4) (d p t : BitVec 3)
  /-- R167. Consumes a and emits a token holding its tag and round. -/
  | tagget (a d r : BitVec 4) (p : BitVec 3)
  /-- R168. Adds floating-point lanes, optionally as a reducing stateful row. -/
  | fadd (a b d r : BitVec 4) (p : BitVec 3) (j f : Bool) (u : BitVec 2)
  /-- R168. Subtracts floating-point lanes. -/
  | fsub (a b d r : BitVec 4) (p : BitVec 3) (f : Bool) (u : BitVec 2)
  /-- R168. Multiplies floating-point lanes. -/
  | fmul (a b d r : BitVec 4) (p : BitVec 3) (f : Bool) (u : BitVec 2)
  /-- R169. Computes x × y + c with one rounding, optionally reducing. -/
  | fma (a b d r : BitVec 4) (p : BitVec 3) (j f : Bool) (u : BitVec 2)
  /-- R169. Computes x × y − c with one rounding. -/
  | fms (a b d r : BitVec 4) (p : BitVec 3) (f : Bool) (u : BitVec 2)
  /-- R169. Computes −(x × y) + c with one rounding. -/
  | fnma (a b d r : BitVec 4) (p : BitVec 3) (f : Bool) (u : BitVec 2)
  /-- R170. Gives the floating-point minimum per lane, optionally reducing. -/
  | fmin (a b d r : BitVec 4) (p : BitVec 3) (j f : Bool)
  /-- R170. Gives the floating-point maximum per lane, optionally reducing. -/
  | fmax (a b d r : BitVec 4) (p : BitVec 3) (j f : Bool)
  /-- R168. Gives the absolute value of each lane. -/
  | fabs (a d r : BitVec 4) (p : BitVec 3) (f : Bool)
  /-- R168. Negates each lane. -/
  | fneg (a d r : BitVec 4) (p : BitVec 3) (f : Bool)
  /-- R168. Clamps x to ±|y| per lane. -/
  | fclamp (a b d r : BitVec 4) (p : BitVec 3) (f : Bool)
  /-- R168. Selects y or x per lane by a condition on x. -/
  | fsel (a b d r : BitVec 4) (p : BitVec 3) (c : BitVec 2) (f : Bool)
  /-- R171. Sums the lanes in the fixed pairwise tree into every lane. -/
  | frsum (a d r : BitVec 4) (p : BitVec 3) (f : Bool) (u : BitVec 2)
  /-- R171. Gives the tree maximum of the lanes in every lane. -/
  | frmax (a d r : BitVec 4) (p : BitVec 3) (f : Bool)
  /-- R171. Gives the tree minimum of the lanes in every lane. -/
  | frmin (a d r : BitVec 4) (p : BitVec 3) (f : Bool)
  /-- R171. Gives the tree sum of squares of the lanes in every lane. -/
  | frsqs (a d r : BitVec 4) (p : BitVec 3) (f : Bool) (u : BitVec 2)
  /-- R173. Permutes the elements of a by the byte indices of b. -/
  | vperm (a b d : BitVec 4) (z : BitVec 2)
  /-- R173. Broadcasts one element of a to every element. -/
  | vbcast (a d : BitVec 4) (z : BitVec 2) (x : BitVec 6)
  /-- R173. Slides elements across a and b by k. -/
  | vslide (a b d : BitVec 4) (z : BitVec 2) (k : BitVec 7)
  /-- R172. Approximates 2^x per lane. -/
  | exp2 (a d r : BitVec 4) (p : BitVec 3) (f : Bool)
  /-- R172. Approximates log2 x per lane. -/
  | log2 (a d r : BitVec 4) (p : BitVec 3) (f : Bool)
  /-- R172. Approximates 1/x per lane. -/
  | rcp (a d r : BitVec 4) (p : BitVec 3) (f : Bool)
  /-- R172. Approximates 1/√x per lane. -/
  | rsqrt (a d r : BitVec 4) (p : BitVec 3) (f : Bool)
  /-- R172. Approximates tanh x per lane. -/
  | tanh (a d r : BitVec 4) (p : BitVec 3) (f : Bool)
  /-- R168. Gives the correctly rounded square root per lane. -/
  | fsqrt (a d r : BitVec 4) (p : BitVec 3) (f : Bool) (u : BitVec 2)
  /-- R168. Multiplies each lane by 2^n with one rounding. -/
  | fscale (a b d r : BitVec 4) (p : BitVec 3) (f : Bool) (u : BitVec 2)
  /-- R168. Rounds each lane to an integral value. -/
  | frint (a d r : BitVec 4) (p : BitVec 3) (f : Bool) (u : BitVec 2)
  /-- R168. Gives |x| with the sign of y per lane. -/
  | fcpys (a b d r : BitVec 4) (p : BitVec 3) (f : Bool)
  /-- R175. Converts a token to another format, filling or selecting a part. -/
  | cvt (a : BitVec 4) (b : BitVec 3) (d r : BitVec 4) (p : BitVec 3) (q : BitVec 2) (n : Bool) (u : BitVec 2)
  /-- R176. Converts between fixed point and FP32 with per-lane shifts. -/
  | cvti (a b d r : BitVec 4) (p : BitVec 3) (t : Bool) (u : BitVec 2)
  /-- R177. Quantises FP32 or BF16 lanes with a scale into an 8-bit or 4-bit format. -/
  | qnt (a b d : BitVec 4) (t q : BitVec 2) (n : Bool) (u : BitVec 2) (p : Bool) (l : BitVec 4)
  /-- R177. Dequantises 8-bit or 4-bit lanes with a scale into FP32 or BF16. -/
  | dqnt (a b d : BitVec 4) (t : Bool) (q : BitVec 3) (u : BitVec 2) (p : Bool) (l : BitVec 4)
  /-- R177. Requantises 8-bit lanes with a scale. -/
  | qntr (a b d : BitVec 4) (t : BitVec 2) (q n : Bool) (u : BitVec 2) (p : Bool) (l : BitVec 4)
  /-- R178. Emits the maximum absolute lane value of a and lane 0 of b in every lane. -/
  | absmx (a b d r : BitVec 4) (p : BitVec 3) (s : BitVec 2)
  /-- R178. Packs two 8-bit tokens into one E2M1 token. -/
  | pk4 (a b d r : BitVec 4) (p : BitVec 3) (u : BitVec 2)
  /-- R178. Unpacks one half of an E2M1 token into E4M3 lanes. -/
  | upk4 (a d r : BitVec 4) (p : BitVec 3) (h : Bool)
  /-- R200. Adds one claim to an operand slot, waiting while a fill is pending. -/
  | wclm (c : BitVec 3) (n : BitVec 5)
  /-- R200. Removes one claim from an operand slot. -/
  | wrel (c : BitVec 3) (n : BitVec 5)
  /-- R202. On a matrix node, sets a predicate from a test of an operand slot's state. -/
  | wstatMn (m : BitVec 3) (t : BitVec 2) (n : BitVec 5)
  /-- R202. On a sequencer, reads half of a core's operand slot state into G[d]. -/
  | wstatSeq (d a : BitVec 4) (h : Bool) (n : BitVec 5)
  /-- R203. Queues a Penax decode of the next tile of a slot into a weight buffer and holds the slot. -/
  | pxd (n : BitVec 5) (b r : Bool) (c : BitVec 3)
  /-- R209. Multiplies an activation vector by the buffered weight tile into an accumulator row, optionally promoting. -/
  | mma (a : BitVec 4) (d : BitVec 2) (y : BitVec 3) (x h r : Bool) (i : BitVec 2) (n : Bool) (c : BitVec 3)
  /-- R206. Loads row scales from the activation token. -/
  | ldrs (q : BitVec 2) (k : Bool) (c : BitVec 3)
  /-- R206. Loads column scales from the activation token. -/
  | ldcs (q : BitVec 2) (k : Bool) (c : BitVec 3)
  /-- R212. Promotes every open block of a handle into its FP32 accumulators. -/
  | prom (d : BitVec 2) (c : BitVec 3)
  /-- R213. Reads one part of an accumulator row into the drain stage. -/
  | adrn (d q : BitVec 2) (f z : Bool) (i : BitVec 2) (n : Bool) (c : BitVec 3)
  /-- R215. Zeroes a handle's accumulators and discards its open blocks. -/
  | azer (d : BitVec 2) (c : BitVec 3)
  /-- R215. Discards a handle's open blocks and unbinds it. -/
  | arel (d : BitVec 2) (c : BitVec 3)
  /-- R205. Loads half of a decode table from an operand slot, checking entries after the second half. -/
  | ptld (n : BitVec 5) (t : BitVec 2) (h : Bool) (c : BitVec 3)
  /-- R234. Loads w bytes single-copy atomic. -/
  | ld (b d : BitVec 4) (o : BitVec 2) (s w : BitVec 3) (f : BitVec 8)
  /-- R234. Stores w bytes and advances the line's version. -/
  | st (b d : BitVec 4) (o : BitVec 2) (s w : BitVec 3) (f : BitVec 8)
  /-- R235. Asks an L2 slice to fetch a cacheable line, never faulting. -/
  | pref (b : BitVec 4) (f : BitVec 8)
  /-- R236. Loads with address feedback through G[base] or the VE link register. -/
  | ldl (b d : BitVec 4) (o : BitVec 2) (s w : BitVec 3) (f : BitVec 8)
  /-- R237. Loads once the line's version is at or after a minimum. -/
  | ldv (a b d : BitVec 4) (o : BitVec 2) (s w : BitVec 3) (t : Bool) (p : BitVec 3)
  /-- R238. Stores with a named version, applied, parked, stale or refused at the home. -/
  | stv (a b d : BitVec 4) (o : BitVec 2) (s w : BitVec 3) (t : Bool) (p : BitVec 3)
  /-- R239. Loads at an exact version, faulting if the line is after it. -/
  | lde (a b d : BitVec 4) (o : BitVec 2) (s w : BitVec 3)
  /-- R240. Returns a line's current version. -/
  | vrd (a d : BitVec 4) (o : BitVec 2) (s : BitVec 3)
  /-- R241. Reclaims a line: discards parked stores, answers waiting loads and sets a base version. -/
  | recl (a b d : BitVec 4)
  /-- R243. Gathers independent elements from computed addresses. -/
  | gath (a b d : BitVec 4) (o : BitVec 2) (s w : BitVec 3)
  /-- R244. Scatters elements to computed addresses as plain stores. -/
  | scat (a b d : BitVec 4) (o : BitVec 2) (s w : BitVec 3)
  /-- R245. Copies one line by a read and a write. -/
  | cpyl (a b d : BitVec 4) (o : BitVec 2) (s : BitVec 3)
  /-- R246. Writes a zero line and advances its version. -/
  | zrol (a : BitVec 4) (o : BitVec 2) (s : BitVec 3)
  /-- R247. Passes a through, consumes b, and optionally waits for the VE's earlier accesses to be performed. -/
  | otjn (a b d r : BitVec 4) (p : BitVec 3) (w : Bool) (s : BitVec 3)
  /-- R250. Atomically adds to a word and returns the old value. -/
  | aadd (a b d : BitVec 4) (o : BitVec 2) (s w : BitVec 3) (t : Bool) (p : BitVec 3)
  /-- R250. Atomically ANDs into a word. -/
  | aand (a b d : BitVec 4) (o : BitVec 2) (s w : BitVec 3) (t : Bool) (p : BitVec 3)
  /-- R250. Atomically ORs into a word. -/
  | aor (a b d : BitVec 4) (o : BitVec 2) (s w : BitVec 3) (t : Bool) (p : BitVec 3)
  /-- R250. Atomically XORs into a word. -/
  | axor (a b d : BitVec 4) (o : BitVec 2) (s w : BitVec 3) (t : Bool) (p : BitVec 3)
  /-- R250. Atomically swaps a word. -/
  | aswp (a b d : BitVec 4) (o : BitVec 2) (s w : BitVec 3) (t : Bool) (p : BitVec 3)
  /-- R250. Atomically compares and swaps a word. -/
  | acas (a b d : BitVec 4) (o : BitVec 2) (s w : BitVec 3) (t : Bool) (p : BitVec 3)
  /-- R250. Atomically raises a word to the unsigned maximum. -/
  | ammax (a b d : BitVec 4) (o : BitVec 2) (s w : BitVec 3) (t : Bool) (p : BitVec 3)
  /-- R250. Atomically adds an FP32 value with ties-to-even rounding. -/
  | afadd (a b d : BitVec 4) (o : BitVec 2) (s : BitVec 3) (t : Bool) (p : BitVec 3)
  /-- R252. Compares and swaps up to four consecutive words at an HBM near-memory unit. -/
  | mcas (a b d : BitVec 4) (o : BitVec 2) (s w : BitVec 3) (t : Bool) (p : BitVec 3)
  /-- R253. Appends a node to a list at a near-memory unit. -/
  | enq (a b d : BitVec 4) (o : BitVec 2) (s : BitVec 3) (t : Bool) (p : BitVec 3)
  /-- R254. Follows list links at a near-memory unit, optionally stopping at a key. -/
  | chase (a b d : BitVec 4) (o : BitVec 2) (s : BitVec 3) (t : Bool) (p : BitVec 3)
  /-- R256. Arrives at, expects on, or waits on an arrival barrier line in a memory tile. -/
  | abar (a b d : BitVec 4) (o : BitVec 2) (s x : BitVec 3) (t : Bool) (p : BitVec 3)
  /-- R270. Writes a pattern record from memory. -/
  | patw (a : BitVec 4) (n : BitVec 5)
  /-- R270. Writes a pattern record to memory as two 16-byte stores. -/
  | patr (a : BitVec 4) (n : BitVec 5)
  /-- R270. Writes a layout record from memory. -/
  | layw (a n : BitVec 4)
  /-- R271. Checks and queues a stream binding at a port under a scoreboard token. -/
  | sgo (a b d : BitVec 4) (n : BitVec 5) (r i : Bool) (t : BitVec 3)
  /-- R272. Cancels the bindings of the tokens in its mask. -/
  | scnl (s : BitVec 8)
  /-- R273. Reads the state or a restart position of a token's binding. -/
  | spos (d : BitVec 4) (s : BitVec 2) (t : BitVec 3)
  /-- R275. Joins a collective reduction as one participant. -/
  | coll (a : BitVec 4) (t : BitVec 3)
  /-- R274. Copies a range of lines through a stream island. -/
  | rcpy (a b d : BitVec 4) (o : BitVec 2) (s t : BitVec 3)
  /-- R277. Opens a commit group, advancing its epoch and starting its lifetime. -/
  | gopen (n : BitVec 6)
  /-- R278. Registers a group store that the home slice stages and holds. -/
  | gst (a b d : BitVec 4) (o : BitVec 2) (s w : BitVec 3) (t : Bool) (p : BitVec 3)
  /-- R281. Closes a group, waits for acknowledgements, and commits or aborts it. -/
  | gcmt (d : BitVec 4) (n : BitVec 6)
  /-- R283. Aborts an open group. -/
  | gabrt (n : BitVec 6)
  /-- R284. Reads the state of a group. -/
  | gstat (d : BitVec 4) (n : BitVec 6)
  /-- R286. Appends a task record to a hardware queue. -/
  | lnch (a b d : BitVec 4) (t : Bool) (p : BitVec 3)
  /-- R287. Sets the event flag of a sequencer. -/
  | sig (a : BitVec 4)
  /-- R288. Waits at a gang barrier for every control program of the gang. -/
  | gbar (n : BitVec 4)
  /-- R289. Arms drain detection on the stage's islands. -/
  | drain (t : BitVec 3)
  /-- R290. Reports the stage complete to Brass and stops fetch. -/
  | done (a : BitVec 4)
  /-- R292. Loads and measures a configuration image into a region's shadow banks. -/
  | cfgld (a b d : BitVec 4)
  /-- R293. Swaps the banks of held islands and resets their run state. -/
  | bswap (t : BitVec 3) (a : BitVec 4)
  /-- R294. Sets a quiesced region to a smaller fold alternative and returns cores. -/
  | fold (a : BitVec 4)
  /-- R295. Quiesces selected islands 16 cycles later, or releases them. -/
  | rqsc (t : BitVec 3) (a : BitVec 4) (r : Bool)
  /-- R296. Sets the sequencer's ASID. -/
  | asids (a : BitVec 4)
  /-- R297. Invalidates translations of a page, ASID or partition on the chip. -/
  | xinv (a b : BitVec 4) (s : BitVec 2)
  /-- R298. Sets the L2 mode when no partition runs. -/
  | l2md (d a : BitVec 4)
  /-- R299. Scrubs local physical memory to zeros under a key. -/
  | scrb (a b d : BitVec 4)
  /-- R300. Installs a key record and returns its handle. -/
  | khnd (a d : BitVec 4)
  /-- R300. Deletes a key handle, stopping bindings that use it. -/
  | kdel (a : BitVec 4)
  /-- R301. Extends a measurement register with SM3. -/
  | mext (a b : BitVec 4)
  /-- R301. Signs a digest with SM2 under a device key. -/
  | ksign (a b d : BitVec 4)
  /-- R31. A routed token arrives at a VE input port, raising an overrun if the port is occupied. -/
  | tokenArrival (core dir : Nat)
  /-- R40. A token crossing an island boundary enters the consuming island's retiming FIFO. -/
  | fifoTokenArrival (core dir : Nat)
  /-- R224. A memory reply arrives and enters X in issue order when X is free. -/
  | replyArrival (core : Nat)
  /-- R53. The conversion element returns a converted token to its steering row. -/
  | conversionReturn (core sel : Nat)
  /-- R179. A result sent to target cnv returns converted on the VE's X. -/
  | cnvReturn (core : Nat)
  /-- R214. A drain token is written into the VE's X the cycle after ADRN, faulting if X is taken. -/
  | drainDelivery (core : Nat)
  /-- R41. A freeze reaching the stall budget traps the island and holds it. -/
  | timingTrap (isl : Nat)
  /-- R45. A requested bank swap takes effect at the next iteration boundary. -/
  | bankSwapEffect (reg : Nat)
  /-- R410. Selected islands stop at cycle c + 16 and are held. -/
  | rqscStop (isl : Nat)
  /-- R289. A drained island is held at its next iteration boundary. -/
  | drainHold (isl : Nat)
  /-- R203. The decoder begins a queued decode once the slot is ready, reading the cursor. -/
  | beginDecode (core : Nat)
  /-- R203. A decode delivers its last symbol or faults, and releases its hold on the slot. -/
  | decodeEnd (core : Nat)
  /-- R205. A table load finishes after earlier decodes and the slot fill, and checks the table. -/
  | ptldComplete (core : Nat)
  /-- R75. A stream fill reaches an operand slot and either writes it or sets PEND. -/
  | slotFill (bind : Nat)
  /-- R201. A pending fill starts when CLAIMS is 0 and no hold remains. -/
  | pendingFillStart (core slot : Nat)
  /-- R75. The last byte of a fill sets the slot ready with LEN, GPA and KH. -/
  | fillComplete (core slot : Nat)
  /-- R230. An access reaches its home unit and is applied in arrival order. -/
  | homeAccess (pick : Pick)
  /-- R83. A parked store with the next version applies in the following cycle. -/
  | chainApply (line : Nat)
  /-- R84. A waiting versioned load is answered the cycle after the write that satisfies it. -/
  | waitingLoadAnswer (line : Nat)
  /-- R258. A waiting ABAR WAIT is answered after the write that completes its phase. -/
  | barrierWaitAnswer (line : Nat)
  /-- R97. A translation miss starts a walk when a walker slot is free. -/
  | translationWalk (unit : Nat) (asid : BitVec 16) (va : BitVec 64)
  /-- R434. Parked stores retry translation after a covering XINV or a restore. -/
  | parkedStoreRetry (who : Actor)
  /-- R436. A parked store aging to 100 ms, or dropped, ends its issuer's task. -/
  | parkedStoreAgeExpiry (who : Actor)
  /-- R441. A correctable error is corrected, written back and counted. -/
  | correctableError
  /-- R442. An uncorrectable error or MAC mismatch poisons a line, fails a core or dooms a group. -/
  | uncorrectableError (place : Place)
  /-- R271. A stream island starts the next queued binding when the port falls free, checking its handle. -/
  | bindingStart (port : Nat)
  /-- R267. A binding completes when every segment has completed, freeing its token. -/
  | bindingComplete (bind : Nat)
  /-- R265. A held end-of-round marker is released once the fed island's RSTRND advances. -/
  | streamRoundHoldRelease (bind : Nat)
  /-- R275. A collective completes when every participant's output writes are performed. -/
  | collectiveComplete (cid : BitVec 32)
  /-- R279. A GST reaching its home slice is staged and holds its line, or is refused. -/
  | groupStoreStaging (k : Nat)
  /-- R278. The home's acknowledgement of a GST reaches the initiator with its outcome. -/
  | gstAck (k : Nat)
  /-- R453. The first destination accepts or refuses a group's decision record. -/
  | decisionRecordWrite (g : GroupId)
  /-- R282. A destination publishes a group's staged lines and releases their holds. -/
  | commitPacket (g : GroupId)
  /-- R283. A destination discards a group's staged copies and releases their holds. -/
  | abortPacket (g : GroupId)
  /-- R283. A group open or closing for 1 ms is aborted with doom code 16. -/
  | groupLifetimeExpiry (asid : BitVec 16) (n : BitVec 6)
  /-- R455. A line held 2 ms makes its slice ask the first destination or initiator for the group's fate. -/
  | holdTimeoutResolve (line : Nat) (initiator : Bool)
  /-- R455. The first destination or initiator answers a resolution query with commit, abort or wait. -/
  | groupResolveQuery (g : GroupId) (chip : Nat)
  /-- R456. A chip seen to reset has its held group lines resolved or released poisoned. -/
  | chipLost (chip : Nat)
  /-- R151. A SIG, launch or token freed under SQ_WAKE sets the sequencer's event flag. -/
  | eventFlagSet (n : Nat)
  /-- R288. The last gang member's GBAR advances the barrier generation and releases all. -/
  | gangBarrierRelease (task : Nat) (n : BitVec 4)
  /-- R143. Sequencer code is written once the target sequencer is idle or saved. -/
  | sequencerCodeLoad (n : Nat)
  /-- R401. An asynchronous class 2 or 3 fault enters trap_entry at the first boundary with UNACK 0. -/
  | faultDelivery (n : Nat)
  /-- R405. A halted sequencer's context fault reaches Brass, which ends the task. -/
  | contextFault (n : Nat)
  /-- R320. A write applied to a doorbell tail word raises Brass's TAIL to the maximum. -/
  | tailUpdate (q : Nat)
  /-- R321. Brass reads the record at HEAD and publishes, waits, refuses or flags overrun by SEQ. -/
  | queueRecordRead (q : Nat)
  /-- R324. Brass rereads a dependence line after each write and makes the task dispatchable when met. -/
  | dependenceCheck (task : Nat)
  /-- R327. Brass selects a partition's next task by level and deficit round robin. -/
  | taskSelect (part : Nat)
  /-- R327. A level holding a dispatchable task 1 ms without dispatch becomes starved. -/
  | levelStarved (part lvl : Nat)
  /-- R330. A resident task's slice expires and it becomes a possible victim. -/
  | sliceExpiry (task : Nat)
  /-- R329. Brass tries placement plans for the pending head, retried after each completion, fold or release. -/
  | placement (part : Nat)
  /-- R332. Brass loads, binds, swaps and starts a stage's control program. -/
  | stageStart (task stage : Nat)
  /-- R333. Brass quiesces, saves and writes every member of a gang into save frames. -/
  | fullPreemption (task : Nat)
  /-- R465. A save or placement waiting for frames resumes when BR_PFTOP grows. -/
  | saveResume (part : Nat)
  /-- R335. Brass restores a gang in place at its saved cycle or restarts it elsewhere. -/
  | restore (task : Nat)
  /-- R408. Brass restarts a stage from its restart round, rebinding streams and the control program. -/
  | stageRestart (task stage : Nat)
  /-- R415. Brass places a stage that held a failed core again and restarts it. -/
  | failedCoreRecovery (task stage : Nat)
  /-- R325. When every stage has reported, Brass writes the completion record. -/
  | taskCompletion (task : Nat)
  /-- R406. Brass ends a task, aborts its open groups and writes STATUS 3. -/
  | taskEnd (task : Nat)
  /-- R336. A member chip validates and places a gang stage and replies with its ready time. -/
  | memberRequest (chip gang stage : Nat) (asid : BitVec 16) (entry : BitVec 512) (arg : BitVec 64)
  /-- R336. Each member enables its islands when pod time reaches T. -/
  | gangStartTime (task : Nat)
  /-- R337. A member not started by T + SKEW causes full pre-emption of the gang. -/
  | gangSkewExpiry (task : Nat)
  /-- R472. A member request unanswered 1 ms counts as a refusal. -/
  | memberRequestTimeout (task : Nat)
  /-- R336. A refused gang start is retried after 100 µs. -/
  | gangRetry (task : Nat)
  /-- R337. A remote LNCH request is checked against the launch table and appended or refused. -/
  | remoteLaunch (chip id : Nat) (asid : BitVec 16) (q : Nat) (rec : BitVec 512)
  /-- R473. A member chip lost or unreachable 10 ms ends the task with cause 0x0403. -/
  | memberUnreachable (task chip : Nat)
  /-- R469. Before a restarted stage runs, gang channel logs are resent and duplicates discarded. -/
  | gangChannelReplay (chan : Nat)
  /-- R475. A gang channel not settled in 10 ms marks the saved context unsettled. -/
  | settleTimeout (task : Nat)
  /-- R320. A host write to BR_QTAIL is performed as AMMAX on the tail word. -/
  | brQtailWrite (q : Nat) (v : BitVec 64)
  /-- R318. A write of EN to BR_QCFG enables the queue unless SLICE or LSZ is invalid. -/
  | queueEnable (q : Nat) (v : BitVec 64)
  /-- R338. Brass pre-empts every task, changes the L2 mode and restores. -/
  | brL2reqWrite (v : BitVec 64)
  /-- R371. A DMA ring's TAIL is raised to the maximum, setting OVF on overrun. -/
  | hpDtailWrite (f r : Nat) (v : BitVec 64)
  /-- R372. A ring runs its next request block, transfers, and writes a completion entry and MSI-X. -/
  | dmaBlock (f r : Nat) (blk : BitVec 512) (data tags : List (BitVec 8)) (hostErr : Bool)
  /-- R374. Clearing a ring's EN completes its running block with STATUS 5. -/
  | dmaRingDisable (f r : Nat)
  /-- R461. A function level reset starts quiescing the function's rings, mailbox and queues. -/
  | functionLevelReset (f : Nat)
  /-- R461. Clearing SR-IOV VF Enable tears down every VF. -/
  | vfEnableClear
  /-- R461. Quiescing ends when every BR_FNQS count is zero, completing the FLR. -/
  | quiesceEnd (f : Nat)
  /-- R461. An outstanding host read times out under the completion timeout. -/
  | hostReadTimeout (f n : Nat)
  /-- R463. A completion after its read timed out is discarded. -/
  | unexpectedCompletion (f : Nat)
  /-- R344. A write of GO submits the mailbox message to Cobalt. -/
  | mailboxGo (f : Nat)
  /-- R346. Cobalt returns a signed report of measurements and region measurements. -/
  | attestation (f : Nat)
  /-- R353. Cobalt opens a weight seal and installs a TYPE 1 key handle. -/
  | sealInstall (f : Nat)
  /-- R355. Cobalt agrees a session key with the user and installs a TYPE 2 handle. -/
  | sessionOpen (f : Nat)
  /-- R364. Cobalt returns signed usage counters for listed handles. -/
  | usageReport (f : Nat)
  /-- R365. Cobalt deletes handles, resets, scrubs and issues a signed scrub receipt for a partition. -/
  | teardown (f : Nat)
  /-- R345. Cobalt fills a key table entry with a fresh key pair for a partition. -/
  | partitionKeys (f : Nat)
  /-- R345. Cobalt returns the DER certificate chain. -/
  | certificateChain (f : Nat)
  /-- R345. Cobalt deletes a handle and returns its final signed usage entry. -/
  | handleDelete (f : Nat)
  /-- R345. Cobalt extends one of MEAS4 to MEAS7 with a digest. -/
  | measureExtend (f : Nat)
  /-- R392. In ROM recovery, TYPE 0x0100 writes an image into a boot-flash slot. -/
  | recoveryImageWrite
  /-- R481. Cobalt detects an error in itself, sets CERR and refuses key-installing messages. -/
  | cobaltError
  /-- R445. A write of POP discards the oldest error log entry. -/
  | brErrpopWrite (v : BitVec 64)
  /-- R466. A write of END to BR_SVFLT ends the waiting task. -/
  | saveEnd (part : Nat)
  /-- R466. A write of CANCEL to BR_SVFLT releases the waiting victim in place. -/
  | saveCancel (part : Nat)
  /-- R379. A ROT write requests a key rotation on both directions of a port. -/
  | portRotateRequest (n : Nat)
  /-- R376. Enabling a port makes Cobalt establish an SPDM session before traffic flows. -/
  | portEnable (n peer : Nat) (ok : Bool)
  /-- R393. A power-state write moves the PF to D3hot or D0, refused while work is present. -/
  | d3hotWrite (d3 : Bool)
  /-- R394. A power-limit write, clamped, takes effect within 1 ms. -/
  | cbPwrlimWrite (v : BitVec 64)
  /-- R6. A write to a register without behaviour of its own follows its access codes. -/
  | registerWrite (reg : Reg) (v : BitVec 64)
  /-- R378. The receiver accepts, discards or NAKs a flit group, `bad` of whose flits fail their check. -/
  | flitGroupReceive (n : Nat) (g : FlitGroup) (bad : Nat) (tag : Bool)
  /-- R378. On a NAK the sender resends unacknowledged groups in SEQ order. -/
  | nakResend (n seq : Nat)
  /-- R379. A cumulative acknowledgement frees replay entries and may retire an old key slot. -/
  | ackReceive (n seq : Nat)
  /-- R379. An SPDM KEY_UPDATE installs the next epoch key in the free slot. -/
  | keyUpdate (n : Nat)
  /-- R379. 2^32 groups under one epoch trigger a key rotation. -/
  | epochGroupLimit (n : Nat)
  /-- R478. A port going down discards its keys, switches routes and resends unacknowledged packets. -/
  | portDown (n : Nat)
  /-- R381. A primary port up again returns USE to 0 once old-port packets are delivered. -/
  | portUp (n : Nat)
  /-- R477. The destination ingress delivers packets in PSN order and discards duplicates. -/
  | packetReceive (p : Packet)
  /-- R479. A packet with no usable port for 10 ms is discarded. -/
  | packetWaitExpiry (chip psn : Nat)
  /-- R479. A cross-chip request unanswered 20 ms raises kind 0x06. -/
  | requestTimeout (id : Nat)
  /-- R480. Cobalt retries an SPDM session on a down port every 1 s. -/
  | spdmRetry (n peer : Nat) (ok : Bool)
  /-- R384. A timestamp exchange adjusts the chip's pod time rate toward the master. -/
  | podTimeSync (ppm : Int)
  /-- R388. Power-on resets the package. -/
  | powerOnReset
  /-- R388. PCI Express fundamental reset resets the package. -/
  | perst
  /-- R396. A write of 1 to management register 0x06 resets the package. -/
  | sidebandReset
  /-- R388. 2 s without a Cobalt firmware heartbeat resets the package. -/
  | watchdogReset
  /-- R395. 110 °C on the hottest die resets the package and holds it until cooled. -/
  | thermalTrip
  /-- R395. 95 °C lowers DUTY until the temperature falls to 90 °C. -/
  | thermalThrottle (temp : BitVec 12)
  /-- R394. The power controller sets DUTY to keep the 1 ms average at or below the limit. -/
  | powerDutyAdjust (watts : BitVec 12) (duty : BitVec 7)
  /-- R341. ROM measures itself, completes fuses, checks and measures firmware, derives keys and enters it. -/
  | romBoot
  /-- R341. Firmware issues the alias certificate, measures and starts Brass and link firmware, and sets the boot lock. -/
  | firmwareBoot
  /-- R418. An executor decodes a word that has an unassigned opcode, stands outside its executor's legality, or carries a reserved field, and raises kind 0x02 even under a false guard. -/
  | illegalWordDecode (w : BitVec 32)
  /-- R451. A destination's acknowledgement of publication or release reaches the initiator, which frees the decision records or sends the deferred abort packets, and the group becomes Free. -/
  | groupDestinationAck (g : GroupId) (chip : Nat)
  /-- R461. A PCI Express completion for an outstanding host read of a quiescing function reaches the reply sink, which releases its reservation and discards its data. -/
  | hostReadCompletion (f n : Nat)
  /-- R388. A package held in reset after a thermal trip cools and is released, so that bring-up begins. -/
  | thermalTripCooled
  /-- R204. The decoder's symbol count reaches the end of a waiting firing's byte span, or a fault index falls below that end, and the stall-source-3 freeze ends. -/
  | decodeSpanDelivered (core : Nat) (n : Nat)
  /-- R471. SKEW after a recovered stage's islands are enabled, the other gang members' stall counters resume counting source-1 stalls on gang channels. -/
  | recoverySkewExpiry (task stage : Nat)
  deriving DecidableEq, Repr

end Sys2Proof
end

