-- ==== Sys2Proof/Decode.lean ====
section
/-! DEFINITION. Decoding: bytes to an instruction or a named refusal, and the encoder written from the same tables
(R117, R118, R129, and the rows of spec/opcode_table.json, which give each form its fixed bits and its fields). A field
value that only some executors reserve is not looked at here: Sys2Proof/WellFormed.lean holds those checks (R418). -/

namespace Sys2Proof

/-- Why a word is no row of the opcode table. -/
inductive Reject where
  /-- R419: one of the 86 unassigned opcodes. -/
  | unassigned
  /-- R420: an assigned opcode with a nonzero bit that no form of the opcode assigns. -/
  | reservedBits
  /-- Fewer than four bytes. -/
  | short
  deriving DecidableEq, Repr

/-- What a word decodes to: an instruction, or a refusal by name. -/
inductive Decoded where
  | ok (i : Instr)
  | bad (r : Reject)
  deriving DecidableEq, Repr

/-- The `n` bits of a word from bit `lo` up. -/
def field (w : Word) (lo n : Nat) : BitVec n := w.extractLsb' lo n

/-- One bit of a word. -/
def bit (w : Word) (k : Nat) : Bool := w.getLsbD k

/-- A row of the opcode table: the instruction, when the word has the row's fixed bits. -/
def row (w mask fixed : Word) (i : Instr) : Decoded :=
  if w &&& mask = fixed then .ok i else .bad .reservedBits

/-- Opcodes 0x00 to 0x0F (R129 Table 8). -/
def decodeControl (w : Word) : Decoded :=
  match (field w 24 4).toNat with
  | 0 => row w 0xFFFFFF1F 0x00000000 (.nop (field w 5 3))
  | 1 => row w 0xFFFFFF1F 0x01000000 (.idle (field w 5 3))
  | 2 => row w 0xFF000000 0x02000000 (.b (field w 20 4) (field w 0 20))
  | 3 => row w 0xFF0FFF1F 0x03000000 (.bi (field w 20 4) (field w 5 3))
  | 4 => row w 0xFF000000 0x04000000 (.call (field w 20 4) (field w 0 20))
  | 5 => row w 0xFF0FFF1F 0x05000000 (.calli (field w 20 4) (field w 5 3))
  | 6 => row w 0xFFFFFF1F 0x06000000 (.ret (field w 5 3))
  | 7 => row w 0xFFF00000 0x07000000 (.loop (field w 16 4) (field w 0 16))
  | 8 => row w 0xFF00FFFF 0x08000000 (.waitt (field w 16 8))
  | 9 => row w 0xFFF0F000 0x09000000 (.csrr (field w 16 4) (field w 0 12))
  | 10 => row w 0xFFF00000 0x0A000000 (.csrw (field w 16 4) (field w 12 4) (field w 0 12))
  | 11 => row w 0xFFF00000 0x0B000000 (.csrs (field w 16 4) (field w 12 4) (field w 0 12))
  | 12 => row w 0xFFF00000 0x0C000000 (.csrc (field w 16 4) (field w 12 4) (field w 0 12))
  | 13 => row w 0xFFFF07FF 0x0D000000 (.fence (field w 14 2) (field w 11 3))
  | 14 => row w 0xFFFF0000 0x0E000000 (.rstpt (field w 12 4) (field w 0 12))
  | _ => row w 0xFFFF0000 0x0F000000 (.trap (field w 12 4) (field w 0 12))

/-- Opcodes 0x10 to 0x1F (R129 Table 8). -/
def decodeControl1 (w : Word) : Decoded :=
  match (field w 24 4).toNat with
  | 0 => row w 0xFFFFFF1F 0x10000000 (.tack (field w 5 3))
  | 1 => row w 0xFFFFFF1F 0x11000000 (.tret (field w 5 3))
  | 2 => row w 0xFFFF0000 0x12000000 (.svc (field w 12 4) (field w 0 12))
  | 3 => row w 0xFF0F0000 0x13000000 (.scanr (field w 20 4) (field w 12 4) (field w 0 12))
  | _ => .bad .unassigned

/-- Opcodes 0x20 to 0x2F (R129 Table 8). -/
def decodeInteger (w : Word) : Decoded :=
  match (field w 24 4).toNat with
  | 0 => row w 0xFF00000C 0x20000000 (.add (field w 20 4) (field w 16 4) (field w 12 4) (field w 8 4) (field w 5 3) (bit w 4) (field w 0 2))
  | 1 => row w 0xFF00001C 0x21000000 (.sub (field w 20 4) (field w 16 4) (field w 12 4) (field w 8 4) (field w 5 3) (field w 0 2))
  | 2 => row w 0xFF00001C 0x22000000 (.mul (field w 20 4) (field w 16 4) (field w 12 4) (field w 8 4) (field w 5 3) (field w 0 2))
  | 3 => row w 0xFF00001C 0x23000000 (.mulh (field w 20 4) (field w 16 4) (field w 12 4) (field w 8 4) (field w 5 3) (field w 0 2))
  | 4 => row w 0xFF00001C 0x24000000 (.mulhu (field w 20 4) (field w 16 4) (field w 12 4) (field w 8 4) (field w 5 3) (field w 0 2))
  | 5 => row w 0xFF000F18 0x25000000 (.div (field w 20 4) (field w 16 4) (field w 12 4) (field w 5 3) (bit w 2) (field w 0 2))
  | 6 => row w 0xFF000F18 0x26000000 (.rem (field w 20 4) (field w 16 4) (field w 12 4) (field w 5 3) (bit w 2) (field w 0 2))
  | 7 => row w 0xFF00000C 0x27000000 (.and (field w 20 4) (field w 16 4) (field w 12 4) (field w 8 4) (field w 5 3) (bit w 4) (field w 0 2))
  | 8 => row w 0xFF00000C 0x28000000 (.or (field w 20 4) (field w 16 4) (field w 12 4) (field w 8 4) (field w 5 3) (bit w 4) (field w 0 2))
  | 9 => row w 0xFF00000C 0x29000000 (.xor (field w 20 4) (field w 16 4) (field w 12 4) (field w 8 4) (field w 5 3) (bit w 4) (field w 0 2))
  | 10 => row w 0xFF00001C 0x2A000000 (.andn (field w 20 4) (field w 16 4) (field w 12 4) (field w 8 4) (field w 5 3) (field w 0 2))
  | 11 => row w 0xFF00001C 0x2B000000 (.shl (field w 20 4) (field w 16 4) (field w 12 4) (field w 8 4) (field w 5 3) (field w 0 2))
  | 12 => row w 0xFF00001C 0x2C000000 (.shr (field w 20 4) (field w 16 4) (field w 12 4) (field w 8 4) (field w 5 3) (field w 0 2))
  | 13 => row w 0xFF00001C 0x2D000000 (.sra (field w 20 4) (field w 16 4) (field w 12 4) (field w 8 4) (field w 5 3) (field w 0 2))
  | 14 => row w 0xFF00001C 0x2E000000 (.rot (field w 20 4) (field w 16 4) (field w 12 4) (field w 8 4) (field w 5 3) (field w 0 2))
  | _ => row w 0xFF00000C 0x2F000000 (.min (field w 20 4) (field w 16 4) (field w 12 4) (field w 8 4) (field w 5 3) (bit w 4) (field w 0 2))

/-- Opcodes 0x30 to 0x3F (R129 Table 8). -/
def decodeInteger1 (w : Word) : Decoded :=
  match (field w 24 4).toNat with
  | 0 => row w 0xFF00000C 0x30000000 (.max (field w 20 4) (field w 16 4) (field w 12 4) (field w 8 4) (field w 5 3) (bit w 4) (field w 0 2))
  | 1 => row w 0xFF00000C 0x31000000 (.minu (field w 20 4) (field w 16 4) (field w 12 4) (field w 8 4) (field w 5 3) (bit w 4) (field w 0 2))
  | 2 => row w 0xFF00000C 0x32000000 (.maxu (field w 20 4) (field w 16 4) (field w 12 4) (field w 8 4) (field w 5 3) (bit w 4) (field w 0 2))
  | 3 => row w 0xFF0F001C 0x33000000 (.abs (field w 20 4) (field w 12 4) (field w 8 4) (field w 5 3) (field w 0 2))
  | 4 => row w 0xFF0F001C 0x34000000 (.neg (field w 20 4) (field w 12 4) (field w 8 4) (field w 5 3) (field w 0 2))
  | 5 => row w 0xFF000018 0x35000000 (.adds (field w 20 4) (field w 16 4) (field w 12 4) (field w 8 4) (field w 5 3) (bit w 2) (field w 0 2))
  | 6 => row w 0xFF000018 0x36000000 (.subs (field w 20 4) (field w 16 4) (field w 12 4) (field w 8 4) (field w 5 3) (bit w 2) (field w 0 2))
  | 7 => row w 0xFF0F001C 0x37000000 (.clz (field w 20 4) (field w 12 4) (field w 8 4) (field w 5 3) (field w 0 2))
  | 8 => row w 0xFF0F001C 0x38000000 (.popc (field w 20 4) (field w 12 4) (field w 8 4) (field w 5 3) (field w 0 2))
  | 9 => row w 0xFF000003 0x39000000 (.sel (field w 20 4) (field w 16 4) (field w 12 4) (field w 8 4) (field w 5 3) (field w 2 3))
  | 10 => row w 0xFF000000 0x3A000000 (.addi (field w 20 4) (field w 16 4) (field w 0 16))
  | 11 => row w 0xFF000000 0x3B000000 (.andi (field w 20 4) (field w 16 4) (field w 0 16))
  | 12 => row w 0xFF000000 0x3C000000 (.ori (field w 20 4) (field w 16 4) (field w 0 16))
  | 13 => row w 0xFFF00000 0x3D000000 (.movi (field w 16 4) (field w 0 16))
  | 14 => row w 0xFF000000 0x3E000000 (.movhi (field w 20 4) (field w 16 4) (field w 0 16))
  | _ => row w 0xFF000000 0x3F000000 (.lea (field w 20 4) (field w 16 4) (field w 12 4) (field w 9 3) (field w 0 9))

/-- Opcodes 0x40 to 0x4F (R129 Table 8). -/
def decodePredicate (w : Word) : Decoded :=
  match (field w 24 4).toNat with
  | 0 => row w 0xFF000F00 0x40000000 (.cmp (field w 20 4) (field w 16 4) (field w 12 4) (field w 5 3) (field w 2 3) (field w 0 2))
  | 1 => row w 0xFF000F03 0x41000000 (.fcmp (field w 20 4) (field w 16 4) (field w 12 4) (field w 5 3) (field w 3 2) (bit w 2))
  | 2 => row w 0xFF888F03 0x42000000 (.plog (field w 20 3) (field w 16 3) (field w 12 3) (field w 5 3) (field w 2 3))
  | 3 => row w 0xFFFF0F1F 0x43000000 (.prd (field w 12 4) (field w 5 3))
  | 4 => row w 0xFF00FF1F 0x44000000 (.pwr (field w 20 4) (field w 16 4) (field w 5 3))
  | 5 => row w 0xFFFC0000 0x45000000 (.itset (field w 16 2) (field w 0 16))
  | 6 => row w 0xFFCF8F1F 0x46000000 (.itnxt (field w 20 2) (field w 12 3) (field w 5 3))
  | 7 => row w 0xFFFF001F 0x47000000 (.rndget (field w 12 4) (field w 8 4) (field w 5 3))
  | 8 => row w 0xFF0FFF1F 0x4800F000 (.rndset (field w 20 4) (field w 5 3))
  | 9 => row w 0xFFFF001C 0x49000000 (.mkemit (field w 12 4) (field w 8 4) (field w 5 3) (field w 0 2))
  | 10 => row w 0xFF0F8F1C 0x4A000000 (.mktst (field w 20 4) (field w 12 3) (field w 5 3) (field w 0 2))
  | 11 => row w 0xFF0F0018 0x4B000000 (.tagset (field w 20 4) (field w 12 4) (field w 8 4) (field w 5 3) (field w 0 3))
  | 12 => row w 0xFF0F8F18 0x4C000000 (.tagchk (field w 20 4) (field w 12 3) (field w 5 3) (field w 0 3))
  | 13 => row w 0xFF0F001F 0x4D000000 (.tagget (field w 20 4) (field w 12 4) (field w 8 4) (field w 5 3))
  | _ => .bad .unassigned

/-- Opcodes 0x50 to 0x5F (R129 Table 8). -/
def decodeFloat (w : Word) : Decoded :=
  match (field w 24 4).toNat with
  | 0 => row w 0xFF000008 0x50000000 (.fadd (field w 20 4) (field w 16 4) (field w 12 4) (field w 8 4) (field w 5 3) (bit w 4) (bit w 2) (field w 0 2))
  | 1 => row w 0xFF000018 0x51000000 (.fsub (field w 20 4) (field w 16 4) (field w 12 4) (field w 8 4) (field w 5 3) (bit w 2) (field w 0 2))
  | 2 => row w 0xFF000018 0x52000000 (.fmul (field w 20 4) (field w 16 4) (field w 12 4) (field w 8 4) (field w 5 3) (bit w 2) (field w 0 2))
  | 3 => row w 0xFF000008 0x53000000 (.fma (field w 20 4) (field w 16 4) (field w 12 4) (field w 8 4) (field w 5 3) (bit w 4) (bit w 2) (field w 0 2))
  | 4 => row w 0xFF000018 0x54000000 (.fms (field w 20 4) (field w 16 4) (field w 12 4) (field w 8 4) (field w 5 3) (bit w 2) (field w 0 2))
  | 5 => row w 0xFF000018 0x55000000 (.fnma (field w 20 4) (field w 16 4) (field w 12 4) (field w 8 4) (field w 5 3) (bit w 2) (field w 0 2))
  | 6 => row w 0xFF00000B 0x56000000 (.fmin (field w 20 4) (field w 16 4) (field w 12 4) (field w 8 4) (field w 5 3) (bit w 4) (bit w 2))
  | 7 => row w 0xFF00000B 0x57000000 (.fmax (field w 20 4) (field w 16 4) (field w 12 4) (field w 8 4) (field w 5 3) (bit w 4) (bit w 2))
  | 8 => row w 0xFF0F001B 0x58000000 (.fabs (field w 20 4) (field w 12 4) (field w 8 4) (field w 5 3) (bit w 2))
  | 9 => row w 0xFF0F001B 0x59000000 (.fneg (field w 20 4) (field w 12 4) (field w 8 4) (field w 5 3) (bit w 2))
  | 10 => row w 0xFF00001B 0x5A000000 (.fclamp (field w 20 4) (field w 16 4) (field w 12 4) (field w 8 4) (field w 5 3) (bit w 2))
  | 11 => row w 0xFF000003 0x5B000000 (.fsel (field w 20 4) (field w 16 4) (field w 12 4) (field w 8 4) (field w 5 3) (field w 3 2) (bit w 2))
  | 12 => row w 0xFF0F0018 0x5C000000 (.frsum (field w 20 4) (field w 12 4) (field w 8 4) (field w 5 3) (bit w 2) (field w 0 2))
  | 13 => row w 0xFF0F001B 0x5D000000 (.frmax (field w 20 4) (field w 12 4) (field w 8 4) (field w 5 3) (bit w 2))
  | 14 => row w 0xFF0F001B 0x5E000000 (.frmin (field w 20 4) (field w 12 4) (field w 8 4) (field w 5 3) (bit w 2))
  | _ => row w 0xFF0F0018 0x5F000000 (.frsqs (field w 20 4) (field w 12 4) (field w 8 4) (field w 5 3) (bit w 2) (field w 0 2))

/-- Opcodes 0x60 to 0x6F (R129 Table 8). -/
def decodeFloat1 (w : Word) : Decoded :=
  match (field w 24 4).toNat with
  | 0 => row w 0xFF0003FF 0x60000000 (.vperm (field w 20 4) (field w 16 4) (field w 12 4) (field w 10 2))
  | 1 => row w 0xFF0F03C0 0x61000000 (.vbcast (field w 20 4) (field w 12 4) (field w 10 2) (field w 0 6))
  | 2 => row w 0xFF000380 0x62000000 (.vslide (field w 20 4) (field w 16 4) (field w 12 4) (field w 10 2) (field w 0 7))
  | 3 => row w 0xFF0F001B 0x63000000 (.exp2 (field w 20 4) (field w 12 4) (field w 8 4) (field w 5 3) (bit w 2))
  | 4 => row w 0xFF0F001B 0x64000000 (.log2 (field w 20 4) (field w 12 4) (field w 8 4) (field w 5 3) (bit w 2))
  | 5 => row w 0xFF0F001B 0x65000000 (.rcp (field w 20 4) (field w 12 4) (field w 8 4) (field w 5 3) (bit w 2))
  | 6 => row w 0xFF0F001B 0x66000000 (.rsqrt (field w 20 4) (field w 12 4) (field w 8 4) (field w 5 3) (bit w 2))
  | 7 => row w 0xFF0F001B 0x67000000 (.tanh (field w 20 4) (field w 12 4) (field w 8 4) (field w 5 3) (bit w 2))
  | 8 => row w 0xFF0F0018 0x68000000 (.fsqrt (field w 20 4) (field w 12 4) (field w 8 4) (field w 5 3) (bit w 2) (field w 0 2))
  | 9 => row w 0xFF000018 0x69000000 (.fscale (field w 20 4) (field w 16 4) (field w 12 4) (field w 8 4) (field w 5 3) (bit w 2) (field w 0 2))
  | 10 => row w 0xFF0F0018 0x6A000000 (.frint (field w 20 4) (field w 12 4) (field w 8 4) (field w 5 3) (bit w 2) (field w 0 2))
  | 11 => row w 0xFF00001B 0x6B000000 (.fcpys (field w 20 4) (field w 16 4) (field w 12 4) (field w 8 4) (field w 5 3) (bit w 2))
  | _ => .bad .unassigned

/-- Opcodes 0x80 to 0x8F (R129 Table 8). -/
def decodeConvert (w : Word) : Decoded :=
  match (field w 24 4).toNat with
  | 0 => row w 0xFF080000 0x80000000 (.cvt (field w 20 4) (field w 16 3) (field w 12 4) (field w 8 4) (field w 5 3) (field w 3 2) (bit w 2) (field w 0 2))
  | 1 => row w 0xFF00000C 0x81000000 (.cvti (field w 20 4) (field w 16 4) (field w 12 4) (field w 8 4) (field w 5 3) (bit w 4) (field w 0 2))
  | 2 => row w 0xFF000000 0x82000000 (.qnt (field w 20 4) (field w 16 4) (field w 12 4) (field w 10 2) (field w 8 2) (bit w 7) (field w 5 2) (bit w 4) (field w 0 4))
  | 3 => row w 0xFF000080 0x83000000 (.dqnt (field w 20 4) (field w 16 4) (field w 12 4) (bit w 11) (field w 8 3) (field w 5 2) (bit w 4) (field w 0 4))
  | 4 => row w 0xFF000200 0x84000000 (.qntr (field w 20 4) (field w 16 4) (field w 12 4) (field w 10 2) (bit w 8) (bit w 7) (field w 5 2) (bit w 4) (field w 0 4))
  | 5 => row w 0xFF000007 0x85000000 (.absmx (field w 20 4) (field w 16 4) (field w 12 4) (field w 8 4) (field w 5 3) (field w 3 2))
  | 6 => row w 0xFF00001C 0x86000000 (.pk4 (field w 20 4) (field w 16 4) (field w 12 4) (field w 8 4) (field w 5 3) (field w 0 2))
  | 7 => row w 0xFF0F0017 0x87000000 (.upk4 (field w 20 4) (field w 12 4) (field w 8 4) (field w 5 3) (bit w 3))
  | _ => .bad .unassigned

/-- Opcodes 0x90 to 0x9F (R129 Table 8). `mn` says that a matrix node reads the word (R202). -/
def decodeMatrix (mn : Bool) (w : Word) : Decoded :=
  match (field w 24 4).toNat with
  | 0 => row w 0xFFF8FFE0 0x90000000 (.wclm (field w 16 3) (field w 0 5))
  | 1 => row w 0xFFF8FFE0 0x91000000 (.wrel (field w 16 3) (field w 0 5))
  | 2 => if mn then row w 0xFFF8FF80 0x92000000 (.wstatMn (field w 16 3) (field w 5 2) (field w 0 5))
    else row w 0xFFF00FC0 0x92000000 (.wstatSeq (field w 16 4) (field w 12 4) (bit w 5) (field w 0 5))
  | 3 => row w 0xFFFFF018 0x93000000 (.pxd (field w 7 5) (bit w 6) (bit w 5) (field w 0 3))
  | 4 => row w 0xFF0FC000 0x94000000 (.mma (field w 20 4) (field w 12 2) (field w 9 3) (bit w 8) (bit w 7) (bit w 6) (field w 4 2) (bit w 3) (field w 0 3))
  | 5 => row w 0xFFFFF1F8 0x95800000 (.ldrs (field w 10 2) (bit w 9) (field w 0 3))
  | 6 => row w 0xFFFFF1F8 0x96800000 (.ldcs (field w 10 2) (bit w 9) (field w 0 3))
  | 7 => row w 0xFFFFCFF8 0x97000000 (.prom (field w 12 2) (field w 0 3))
  | 8 => row w 0xFFFFC0C0 0x98000000 (.adrn (field w 12 2) (field w 10 2) (bit w 9) (bit w 8) (field w 4 2) (bit w 3) (field w 0 3))
  | 9 => row w 0xFFFFCFF8 0x99000000 (.azer (field w 12 2) (field w 0 3))
  | 10 => row w 0xFFFFCFF8 0x9A000000 (.arel (field w 12 2) (field w 0 3))
  | 11 => row w 0xFFFFF008 0x9B000000 (.ptld (field w 7 5) (field w 5 2) (bit w 4) (field w 0 3))
  | _ => .bad .unassigned

/-- Opcodes 0xA0 to 0xAF (R129 Table 8). -/
def decodeMemory (w : Word) : Decoded :=
  match (field w 24 4).toNat with
  | 0 => row w 0xFF000000 0xA0000000 (.ld (field w 20 4) (field w 16 4) (field w 14 2) (field w 11 3) (field w 8 3) (field w 0 8))
  | 1 => row w 0xFF000000 0xA1000000 (.st (field w 20 4) (field w 16 4) (field w 14 2) (field w 11 3) (field w 8 3) (field w 0 8))
  | 2 => row w 0xFF0FFF00 0xA2000600 (.pref (field w 20 4) (field w 0 8))
  | 3 => row w 0xFF000000 0xA3000000 (.ldl (field w 20 4) (field w 16 4) (field w 14 2) (field w 11 3) (field w 8 3) (field w 0 8))
  | 4 => row w 0xFF000000 0xA4000000 (.ldv (field w 20 4) (field w 16 4) (field w 12 4) (field w 10 2) (field w 7 3) (field w 4 3) (bit w 3) (field w 0 3))
  | 5 => row w 0xFF000000 0xA5000000 (.stv (field w 20 4) (field w 16 4) (field w 12 4) (field w 10 2) (field w 7 3) (field w 4 3) (bit w 3) (field w 0 3))
  | 6 => row w 0xFF00000F 0xA6000000 (.lde (field w 20 4) (field w 16 4) (field w 12 4) (field w 10 2) (field w 7 3) (field w 4 3))
  | 7 => row w 0xFF0F007F 0xA7000060 (.vrd (field w 20 4) (field w 12 4) (field w 10 2) (field w 7 3))
  | 8 => row w 0xFF000FFF 0xA8000060 (.recl (field w 20 4) (field w 16 4) (field w 12 4))
  | 9 => row w 0xFF00000F 0xA9000000 (.gath (field w 20 4) (field w 16 4) (field w 12 4) (field w 10 2) (field w 7 3) (field w 4 3))
  | 10 => row w 0xFF00000F 0xAA000000 (.scat (field w 20 4) (field w 16 4) (field w 12 4) (field w 10 2) (field w 7 3) (field w 4 3))
  | 11 => row w 0xFF00007F 0xAB000060 (.cpyl (field w 20 4) (field w 16 4) (field w 12 4) (field w 10 2) (field w 7 3))
  | 12 => row w 0xFF0FF07F 0xAC000060 (.zrol (field w 20 4) (field w 10 2) (field w 7 3))
  | 13 => row w 0xFF000008 0xAD000000 (.otjn (field w 20 4) (field w 16 4) (field w 12 4) (field w 8 4) (field w 5 3) (bit w 4) (field w 0 3))
  | _ => .bad .unassigned

/-- Opcodes 0xC0 to 0xCF (R129 Table 8). -/
def decodeAtomic (w : Word) : Decoded :=
  match (field w 24 4).toNat with
  | 0 => row w 0xFF000000 0xC0000000 (.aadd (field w 20 4) (field w 16 4) (field w 12 4) (field w 10 2) (field w 7 3) (field w 4 3) (bit w 3) (field w 0 3))
  | 1 => row w 0xFF000000 0xC1000000 (.aand (field w 20 4) (field w 16 4) (field w 12 4) (field w 10 2) (field w 7 3) (field w 4 3) (bit w 3) (field w 0 3))
  | 2 => row w 0xFF000000 0xC2000000 (.aor (field w 20 4) (field w 16 4) (field w 12 4) (field w 10 2) (field w 7 3) (field w 4 3) (bit w 3) (field w 0 3))
  | 3 => row w 0xFF000000 0xC3000000 (.axor (field w 20 4) (field w 16 4) (field w 12 4) (field w 10 2) (field w 7 3) (field w 4 3) (bit w 3) (field w 0 3))
  | 4 => row w 0xFF000000 0xC4000000 (.aswp (field w 20 4) (field w 16 4) (field w 12 4) (field w 10 2) (field w 7 3) (field w 4 3) (bit w 3) (field w 0 3))
  | 5 => row w 0xFF000000 0xC5000000 (.acas (field w 20 4) (field w 16 4) (field w 12 4) (field w 10 2) (field w 7 3) (field w 4 3) (bit w 3) (field w 0 3))
  | 6 => row w 0xFF000000 0xC6000000 (.ammax (field w 20 4) (field w 16 4) (field w 12 4) (field w 10 2) (field w 7 3) (field w 4 3) (bit w 3) (field w 0 3))
  | 7 => row w 0xFF000070 0xC7000020 (.afadd (field w 20 4) (field w 16 4) (field w 12 4) (field w 10 2) (field w 7 3) (bit w 3) (field w 0 3))
  | 8 => row w 0xFF000000 0xC8000000 (.mcas (field w 20 4) (field w 16 4) (field w 12 4) (field w 10 2) (field w 7 3) (field w 4 3) (bit w 3) (field w 0 3))
  | 9 => row w 0xFF000070 0xC9000060 (.enq (field w 20 4) (field w 16 4) (field w 12 4) (field w 10 2) (field w 7 3) (bit w 3) (field w 0 3))
  | 10 => row w 0xFF000070 0xCA000060 (.chase (field w 20 4) (field w 16 4) (field w 12 4) (field w 10 2) (field w 7 3) (bit w 3) (field w 0 3))
  | 11 => row w 0xFF000000 0xCB000000 (.abar (field w 20 4) (field w 16 4) (field w 12 4) (field w 10 2) (field w 7 3) (field w 4 3) (bit w 3) (field w 0 3))
  | _ => .bad .unassigned

/-- Opcodes 0xD0 to 0xDF (R129 Table 8). -/
def decodeStream (w : Word) : Decoded :=
  match (field w 24 4).toNat with
  | 0 => row w 0xFF0FFFE0 0xD0000000 (.patw (field w 20 4) (field w 0 5))
  | 1 => row w 0xFF0FFFE0 0xD1000000 (.patr (field w 20 4) (field w 0 5))
  | 2 => row w 0xFF0FFFF0 0xD2000000 (.layw (field w 20 4) (field w 0 4))
  | 3 => row w 0xFF000018 0xD3000000 (.sgo (field w 20 4) (field w 16 4) (field w 12 4) (field w 7 5) (bit w 6) (bit w 5) (field w 0 3))
  | 4 => row w 0xFF00FFFF 0xD4000000 (.scnl (field w 16 8))
  | 5 => row w 0xFFFF0FE0 0xD5000000 (.spos (field w 12 4) (field w 3 2) (field w 0 3))
  | 6 => row w 0xFF0FFFF8 0xD6000000 (.coll (field w 20 4) (field w 0 3))
  | 7 => row w 0xFF000078 0xD7000000 (.rcpy (field w 20 4) (field w 16 4) (field w 12 4) (field w 10 2) (field w 7 3) (field w 0 3))
  | 8 => row w 0xFFFFFFC0 0xD8000000 (.gopen (field w 0 6))
  | 9 => row w 0xFF000000 0xD9000000 (.gst (field w 20 4) (field w 16 4) (field w 12 4) (field w 10 2) (field w 7 3) (field w 4 3) (bit w 3) (field w 0 3))
  | 10 => row w 0xFFF0FFC0 0xDA000000 (.gcmt (field w 16 4) (field w 0 6))
  | 11 => row w 0xFFFFFFC0 0xDB000000 (.gabrt (field w 0 6))
  | 12 => row w 0xFFFF0FC0 0xDC000000 (.gstat (field w 12 4) (field w 0 6))
  | 13 => row w 0xFF000FF0 0xDD000000 (.lnch (field w 20 4) (field w 16 4) (field w 12 4) (bit w 3) (field w 0 3))
  | 14 => row w 0xFFFF0FFF 0xDE000000 (.sig (field w 12 4))
  | _ => row w 0xFFFFFFF0 0xDF000000 (.gbar (field w 0 4))

/-- Opcodes 0xE0 to 0xEF (R129 Table 8). -/
def decodeStream1 (w : Word) : Decoded :=
  match (field w 24 4).toNat with
  | 0 => row w 0xFFF8FFFF 0xE0000000 (.drain (field w 16 3))
  | 1 => row w 0xFFFF0FFF 0xE1000000 (.done (field w 12 4))
  | _ => .bad .unassigned

/-- Opcodes 0xF0 to 0xFF (R129 Table 8). -/
def decodePrivileged (w : Word) : Decoded :=
  match (field w 24 4).toNat with
  | 0 => row w 0xFF000FFF 0xF0000000 (.cfgld (field w 20 4) (field w 16 4) (field w 12 4))
  | 1 => row w 0xFFF80FFF 0xF1000000 (.bswap (field w 16 3) (field w 12 4))
  | 2 => row w 0xFFFF0FFF 0xF2000000 (.fold (field w 12 4))
  | 3 => row w 0xFFF80FFE 0xF3000000 (.rqsc (field w 16 3) (field w 12 4) (bit w 0))
  | 4 => row w 0xFFFF0FFF 0xF4000000 (.asids (field w 12 4))
  | 5 => row w 0xFF00FFFC 0xF5000000 (.xinv (field w 20 4) (field w 16 4) (field w 0 2))
  | 6 => row w 0xFFF00FFF 0xF6000000 (.l2md (field w 16 4) (field w 12 4))
  | 7 => row w 0xFF000FFF 0xF7000000 (.scrb (field w 20 4) (field w 16 4) (field w 12 4))
  | 8 => row w 0xFF0F0FFF 0xF8000000 (.khnd (field w 20 4) (field w 12 4))
  | 9 => row w 0xFFFF0FFF 0xF9000000 (.kdel (field w 12 4))
  | 10 => row w 0xFF00FFFF 0xFA000000 (.mext (field w 20 4) (field w 16 4))
  | 11 => row w 0xFF000FFF 0xFB000000 (.ksign (field w 20 4) (field w 16 4) (field w 12 4))
  | _ => .bad .unassigned

/-- The instruction a word stands for. `mn` says that a matrix node reads it: opcode 0x92 has one form for a matrix node and
another for a sequencer (R202). -/
def decode (mn : Bool) (w : Word) : Decoded :=
  match (field w 28 4).toNat with
  | 0 => decodeControl w
  | 1 => decodeControl1 w
  | 2 => decodeInteger w
  | 3 => decodeInteger1 w
  | 4 => decodePredicate w
  | 5 => decodeFloat w
  | 6 => decodeFloat1 w
  | 8 => decodeConvert w
  | 9 => decodeMatrix mn w
  | 10 => decodeMemory w
  | 12 => decodeAtomic w
  | 13 => decodeStream w
  | 14 => decodeStream1 w
  | 15 => decodePrivileged w
  | _ => .bad .unassigned

/-- Four bytes of memory as a word, the first byte lowest (R117). -/
def wordOfBytes (b0 b1 b2 b3 : Byte) : Word := b3 ++ b2 ++ b1 ++ b0

/-- Reads one instruction from the front of a byte string; the rest of the string comes with it. -/
def decodeBytes (mn : Bool) : List Byte → Decoded × List Byte
  | b0 :: b1 :: b2 :: b3 :: rest => (decode mn (wordOfBytes b0 b1 b2 b3), rest)
  | rest => (.bad .short, rest)

/-- The word of an instruction, from the formats of R118 and the word tables of each chapter; an event has none. -/
def encode : Instr → Option Word
  | .nop p => some (0#8 ++ 0#16 ++ p ++ 0#5)
  | .idle p => some (1#8 ++ 0#16 ++ p ++ 0#5)
  | .b c f => some (2#8 ++ c ++ f)
  | .bi a p => some (3#8 ++ a ++ 0#12 ++ p ++ 0#5)
  | .call c f => some (4#8 ++ c ++ f)
  | .calli a p => some (5#8 ++ a ++ 0#12 ++ p ++ 0#5)
  | .ret p => some (6#8 ++ 0#16 ++ p ++ 0#5)
  | .loop d i => some (7#8 ++ 0#4 ++ d ++ i)
  | .waitt s => some (8#8 ++ s ++ 0#16)
  | .csrr d i => some (9#8 ++ 0#4 ++ d ++ 0#4 ++ i)
  | .csrw d a i => some (0xa#8 ++ 0#4 ++ d ++ a ++ i)
  | .csrs d a i => some (0xb#8 ++ 0#4 ++ d ++ a ++ i)
  | .csrc d a i => some (0xc#8 ++ 0#4 ++ d ++ a ++ i)
  | .fence o s => some (0xd#8 ++ 0#8 ++ o ++ s ++ 0#11)
  | .rstpt a i => some (0xe#8 ++ 0#8 ++ a ++ i)
  | .trap a i => some (0xf#8 ++ 0#8 ++ a ++ i)
  | .tack p => some (0x10#8 ++ 0#16 ++ p ++ 0#5)
  | .tret p => some (0x11#8 ++ 0#16 ++ p ++ 0#5)
  | .svc a i => some (0x12#8 ++ 0#8 ++ a ++ i)
  | .scanr a d e => some (0x13#8 ++ a ++ 0#4 ++ d ++ e)
  | .add a b d r p j w => some (0x20#8 ++ a ++ b ++ d ++ r ++ p ++ BitVec.ofBool j ++ 0#2 ++ w)
  | .sub a b d r p w => some (0x21#8 ++ a ++ b ++ d ++ r ++ p ++ 0#3 ++ w)
  | .mul a b d r p w => some (0x22#8 ++ a ++ b ++ d ++ r ++ p ++ 0#3 ++ w)
  | .mulh a b d r p w => some (0x23#8 ++ a ++ b ++ d ++ r ++ p ++ 0#3 ++ w)
  | .mulhu a b d r p w => some (0x24#8 ++ a ++ b ++ d ++ r ++ p ++ 0#3 ++ w)
  | .div a b d p u w => some (0x25#8 ++ a ++ b ++ d ++ 0#4 ++ p ++ 0#2 ++ BitVec.ofBool u ++ w)
  | .rem a b d p u w => some (0x26#8 ++ a ++ b ++ d ++ 0#4 ++ p ++ 0#2 ++ BitVec.ofBool u ++ w)
  | .and a b d r p j w => some (0x27#8 ++ a ++ b ++ d ++ r ++ p ++ BitVec.ofBool j ++ 0#2 ++ w)
  | .or a b d r p j w => some (0x28#8 ++ a ++ b ++ d ++ r ++ p ++ BitVec.ofBool j ++ 0#2 ++ w)
  | .xor a b d r p j w => some (0x29#8 ++ a ++ b ++ d ++ r ++ p ++ BitVec.ofBool j ++ 0#2 ++ w)
  | .andn a b d r p w => some (0x2a#8 ++ a ++ b ++ d ++ r ++ p ++ 0#3 ++ w)
  | .shl a b d r p w => some (0x2b#8 ++ a ++ b ++ d ++ r ++ p ++ 0#3 ++ w)
  | .shr a b d r p w => some (0x2c#8 ++ a ++ b ++ d ++ r ++ p ++ 0#3 ++ w)
  | .sra a b d r p w => some (0x2d#8 ++ a ++ b ++ d ++ r ++ p ++ 0#3 ++ w)
  | .rot a b d r p w => some (0x2e#8 ++ a ++ b ++ d ++ r ++ p ++ 0#3 ++ w)
  | .min a b d r p j w => some (0x2f#8 ++ a ++ b ++ d ++ r ++ p ++ BitVec.ofBool j ++ 0#2 ++ w)
  | .max a b d r p j w => some (0x30#8 ++ a ++ b ++ d ++ r ++ p ++ BitVec.ofBool j ++ 0#2 ++ w)
  | .minu a b d r p j w => some (0x31#8 ++ a ++ b ++ d ++ r ++ p ++ BitVec.ofBool j ++ 0#2 ++ w)
  | .maxu a b d r p j w => some (0x32#8 ++ a ++ b ++ d ++ r ++ p ++ BitVec.ofBool j ++ 0#2 ++ w)
  | .abs a d r p w => some (0x33#8 ++ a ++ 0#4 ++ d ++ r ++ p ++ 0#3 ++ w)
  | .neg a d r p w => some (0x34#8 ++ a ++ 0#4 ++ d ++ r ++ p ++ 0#3 ++ w)
  | .adds a b d r p u w => some (0x35#8 ++ a ++ b ++ d ++ r ++ p ++ 0#2 ++ BitVec.ofBool u ++ w)
  | .subs a b d r p u w => some (0x36#8 ++ a ++ b ++ d ++ r ++ p ++ 0#2 ++ BitVec.ofBool u ++ w)
  | .clz a d r p w => some (0x37#8 ++ a ++ 0#4 ++ d ++ r ++ p ++ 0#3 ++ w)
  | .popc a d r p w => some (0x38#8 ++ a ++ 0#4 ++ d ++ r ++ p ++ 0#3 ++ w)
  | .sel a b d r p n => some (0x39#8 ++ a ++ b ++ d ++ r ++ p ++ n ++ 0#2)
  | .addi a d i => some (0x3a#8 ++ a ++ d ++ i)
  | .andi a d i => some (0x3b#8 ++ a ++ d ++ i)
  | .ori a d i => some (0x3c#8 ++ a ++ d ++ i)
  | .movi d i => some (0x3d#8 ++ 0#4 ++ d ++ i)
  | .movhi a d i => some (0x3e#8 ++ a ++ d ++ i)
  | .lea a b d k f => some (0x3f#8 ++ a ++ b ++ d ++ k ++ f)
  | .cmp a b d p c w => some (0x40#8 ++ a ++ b ++ d ++ 0#4 ++ p ++ c ++ w)
  | .fcmp a b d p c f => some (0x41#8 ++ a ++ b ++ d ++ 0#4 ++ p ++ c ++ BitVec.ofBool f ++ 0#2)
  | .plog a b d p f => some (0x42#8 ++ 0#1 ++ a ++ 0#1 ++ b ++ 0#1 ++ d ++ 0#4 ++ p ++ f ++ 0#2)
  | .prd d p => some (0x43#8 ++ 0#8 ++ d ++ 0#4 ++ p ++ 0#5)
  | .pwr a b p => some (0x44#8 ++ a ++ b ++ 0#8 ++ p ++ 0#5)
  | .itset d i => some (0x45#8 ++ 0#6 ++ d ++ i)
  | .itnxt a d p => some (0x46#8 ++ 0#2 ++ a ++ 0#5 ++ d ++ 0#4 ++ p ++ 0#5)
  | .rndget d r p => some (0x47#8 ++ 0#8 ++ d ++ r ++ p ++ 0#5)
  | .rndset a p => some (0x48#8 ++ a ++ 0xf0#12 ++ p ++ 0#5)
  | .mkemit d r p k => some (0x49#8 ++ 0#8 ++ d ++ r ++ p ++ 0#3 ++ k)
  | .mktst a d p k => some (0x4a#8 ++ a ++ 0#5 ++ d ++ 0#4 ++ p ++ 0#3 ++ k)
  | .tagset a d r p t => some (0x4b#8 ++ a ++ 0#4 ++ d ++ r ++ p ++ 0#2 ++ t)
  | .tagchk a d p t => some (0x4c#8 ++ a ++ 0#5 ++ d ++ 0#4 ++ p ++ 0#2 ++ t)
  | .tagget a d r p => some (0x4d#8 ++ a ++ 0#4 ++ d ++ r ++ p ++ 0#5)
  | .fadd a b d r p j f u => some (0x50#8 ++ a ++ b ++ d ++ r ++ p ++ BitVec.ofBool j ++ 0#1 ++ BitVec.ofBool f ++ u)
  | .fsub a b d r p f u => some (0x51#8 ++ a ++ b ++ d ++ r ++ p ++ 0#2 ++ BitVec.ofBool f ++ u)
  | .fmul a b d r p f u => some (0x52#8 ++ a ++ b ++ d ++ r ++ p ++ 0#2 ++ BitVec.ofBool f ++ u)
  | .fma a b d r p j f u => some (0x53#8 ++ a ++ b ++ d ++ r ++ p ++ BitVec.ofBool j ++ 0#1 ++ BitVec.ofBool f ++ u)
  | .fms a b d r p f u => some (0x54#8 ++ a ++ b ++ d ++ r ++ p ++ 0#2 ++ BitVec.ofBool f ++ u)
  | .fnma a b d r p f u => some (0x55#8 ++ a ++ b ++ d ++ r ++ p ++ 0#2 ++ BitVec.ofBool f ++ u)
  | .fmin a b d r p j f => some (0x56#8 ++ a ++ b ++ d ++ r ++ p ++ BitVec.ofBool j ++ 0#1 ++ BitVec.ofBool f ++ 0#2)
  | .fmax a b d r p j f => some (0x57#8 ++ a ++ b ++ d ++ r ++ p ++ BitVec.ofBool j ++ 0#1 ++ BitVec.ofBool f ++ 0#2)
  | .fabs a d r p f => some (0x58#8 ++ a ++ 0#4 ++ d ++ r ++ p ++ 0#2 ++ BitVec.ofBool f ++ 0#2)
  | .fneg a d r p f => some (0x59#8 ++ a ++ 0#4 ++ d ++ r ++ p ++ 0#2 ++ BitVec.ofBool f ++ 0#2)
  | .fclamp a b d r p f => some (0x5a#8 ++ a ++ b ++ d ++ r ++ p ++ 0#2 ++ BitVec.ofBool f ++ 0#2)
  | .fsel a b d r p c f => some (0x5b#8 ++ a ++ b ++ d ++ r ++ p ++ c ++ BitVec.ofBool f ++ 0#2)
  | .frsum a d r p f u => some (0x5c#8 ++ a ++ 0#4 ++ d ++ r ++ p ++ 0#2 ++ BitVec.ofBool f ++ u)
  | .frmax a d r p f => some (0x5d#8 ++ a ++ 0#4 ++ d ++ r ++ p ++ 0#2 ++ BitVec.ofBool f ++ 0#2)
  | .frmin a d r p f => some (0x5e#8 ++ a ++ 0#4 ++ d ++ r ++ p ++ 0#2 ++ BitVec.ofBool f ++ 0#2)
  | .frsqs a d r p f u => some (0x5f#8 ++ a ++ 0#4 ++ d ++ r ++ p ++ 0#2 ++ BitVec.ofBool f ++ u)
  | .vperm a b d z => some (0x60#8 ++ a ++ b ++ d ++ z ++ 0#10)
  | .vbcast a d z x => some (0x61#8 ++ a ++ 0#4 ++ d ++ z ++ 0#4 ++ x)
  | .vslide a b d z k => some (0x62#8 ++ a ++ b ++ d ++ z ++ 0#3 ++ k)
  | .exp2 a d r p f => some (0x63#8 ++ a ++ 0#4 ++ d ++ r ++ p ++ 0#2 ++ BitVec.ofBool f ++ 0#2)
  | .log2 a d r p f => some (0x64#8 ++ a ++ 0#4 ++ d ++ r ++ p ++ 0#2 ++ BitVec.ofBool f ++ 0#2)
  | .rcp a d r p f => some (0x65#8 ++ a ++ 0#4 ++ d ++ r ++ p ++ 0#2 ++ BitVec.ofBool f ++ 0#2)
  | .rsqrt a d r p f => some (0x66#8 ++ a ++ 0#4 ++ d ++ r ++ p ++ 0#2 ++ BitVec.ofBool f ++ 0#2)
  | .tanh a d r p f => some (0x67#8 ++ a ++ 0#4 ++ d ++ r ++ p ++ 0#2 ++ BitVec.ofBool f ++ 0#2)
  | .fsqrt a d r p f u => some (0x68#8 ++ a ++ 0#4 ++ d ++ r ++ p ++ 0#2 ++ BitVec.ofBool f ++ u)
  | .fscale a b d r p f u => some (0x69#8 ++ a ++ b ++ d ++ r ++ p ++ 0#2 ++ BitVec.ofBool f ++ u)
  | .frint a d r p f u => some (0x6a#8 ++ a ++ 0#4 ++ d ++ r ++ p ++ 0#2 ++ BitVec.ofBool f ++ u)
  | .fcpys a b d r p f => some (0x6b#8 ++ a ++ b ++ d ++ r ++ p ++ 0#2 ++ BitVec.ofBool f ++ 0#2)
  | .cvt a b d r p q n u => some (0x80#8 ++ a ++ 0#1 ++ b ++ d ++ r ++ p ++ q ++ BitVec.ofBool n ++ u)
  | .cvti a b d r p t u => some (0x81#8 ++ a ++ b ++ d ++ r ++ p ++ BitVec.ofBool t ++ 0#2 ++ u)
  | .qnt a b d t q n u p l => some (0x82#8 ++ a ++ b ++ d ++ t ++ q ++ BitVec.ofBool n ++ u ++ BitVec.ofBool p ++ l)
  | .dqnt a b d t q u p l => some (0x83#8 ++ a ++ b ++ d ++ BitVec.ofBool t ++ q ++ 0#1 ++ u ++ BitVec.ofBool p ++ l)
  | .qntr a b d t q n u p l => some (0x84#8 ++ a ++ b ++ d ++ t ++ 0#1 ++ BitVec.ofBool q ++ BitVec.ofBool n ++ u ++ BitVec.ofBool p ++ l)
  | .absmx a b d r p s => some (0x85#8 ++ a ++ b ++ d ++ r ++ p ++ s ++ 0#3)
  | .pk4 a b d r p u => some (0x86#8 ++ a ++ b ++ d ++ r ++ p ++ 0#3 ++ u)
  | .upk4 a d r p h => some (0x87#8 ++ a ++ 0#4 ++ d ++ r ++ p ++ 0#1 ++ BitVec.ofBool h ++ 0#3)
  | .wclm c n => some (0x90#8 ++ 0#5 ++ c ++ 0#11 ++ n)
  | .wrel c n => some (0x91#8 ++ 0#5 ++ c ++ 0#11 ++ n)
  | .wstatMn m t n => some (0x92#8 ++ 0#5 ++ m ++ 0#9 ++ t ++ n)
  | .wstatSeq d a h n => some (0x92#8 ++ 0#4 ++ d ++ a ++ 0#6 ++ BitVec.ofBool h ++ n)
  | .pxd n b r c => some (0x93#8 ++ 0#12 ++ n ++ BitVec.ofBool b ++ BitVec.ofBool r ++ 0#2 ++ c)
  | .mma a d y x h r i n c => some (0x94#8 ++ a ++ 0#6 ++ d ++ y ++ BitVec.ofBool x ++ BitVec.ofBool h ++ BitVec.ofBool r ++ i ++ BitVec.ofBool n ++ c)
  | .ldrs q k c => some (0x95#8 ++ 0x800#12 ++ q ++ BitVec.ofBool k ++ 0#6 ++ c)
  | .ldcs q k c => some (0x96#8 ++ 0x800#12 ++ q ++ BitVec.ofBool k ++ 0#6 ++ c)
  | .prom d c => some (0x97#8 ++ 0#10 ++ d ++ 0#9 ++ c)
  | .adrn d q f z i n c => some (0x98#8 ++ 0#10 ++ d ++ q ++ BitVec.ofBool f ++ BitVec.ofBool z ++ 0#2 ++ i ++ BitVec.ofBool n ++ c)
  | .azer d c => some (0x99#8 ++ 0#10 ++ d ++ 0#9 ++ c)
  | .arel d c => some (0x9a#8 ++ 0#10 ++ d ++ 0#9 ++ c)
  | .ptld n t h c => some (0x9b#8 ++ 0#12 ++ n ++ t ++ BitVec.ofBool h ++ 0#1 ++ c)
  | .ld b d o s w f => some (0xa0#8 ++ b ++ d ++ o ++ s ++ w ++ f)
  | .st b d o s w f => some (0xa1#8 ++ b ++ d ++ o ++ s ++ w ++ f)
  | .pref b f => some (0xa2#8 ++ b ++ 6#12 ++ f)
  | .ldl b d o s w f => some (0xa3#8 ++ b ++ d ++ o ++ s ++ w ++ f)
  | .ldv a b d o s w t p => some (0xa4#8 ++ a ++ b ++ d ++ o ++ s ++ w ++ BitVec.ofBool t ++ p)
  | .stv a b d o s w t p => some (0xa5#8 ++ a ++ b ++ d ++ o ++ s ++ w ++ BitVec.ofBool t ++ p)
  | .lde a b d o s w => some (0xa6#8 ++ a ++ b ++ d ++ o ++ s ++ w ++ 0#4)
  | .vrd a d o s => some (0xa7#8 ++ a ++ 0#4 ++ d ++ o ++ s ++ 0x60#7)
  | .recl a b d => some (0xa8#8 ++ a ++ b ++ d ++ 0x60#12)
  | .gath a b d o s w => some (0xa9#8 ++ a ++ b ++ d ++ o ++ s ++ w ++ 0#4)
  | .scat a b d o s w => some (0xaa#8 ++ a ++ b ++ d ++ o ++ s ++ w ++ 0#4)
  | .cpyl a b d o s => some (0xab#8 ++ a ++ b ++ d ++ o ++ s ++ 0x60#7)
  | .zrol a o s => some (0xac#8 ++ a ++ 0#8 ++ o ++ s ++ 0x60#7)
  | .otjn a b d r p w s => some (0xad#8 ++ a ++ b ++ d ++ r ++ p ++ BitVec.ofBool w ++ 0#1 ++ s)
  | .aadd a b d o s w t p => some (0xc0#8 ++ a ++ b ++ d ++ o ++ s ++ w ++ BitVec.ofBool t ++ p)
  | .aand a b d o s w t p => some (0xc1#8 ++ a ++ b ++ d ++ o ++ s ++ w ++ BitVec.ofBool t ++ p)
  | .aor a b d o s w t p => some (0xc2#8 ++ a ++ b ++ d ++ o ++ s ++ w ++ BitVec.ofBool t ++ p)
  | .axor a b d o s w t p => some (0xc3#8 ++ a ++ b ++ d ++ o ++ s ++ w ++ BitVec.ofBool t ++ p)
  | .aswp a b d o s w t p => some (0xc4#8 ++ a ++ b ++ d ++ o ++ s ++ w ++ BitVec.ofBool t ++ p)
  | .acas a b d o s w t p => some (0xc5#8 ++ a ++ b ++ d ++ o ++ s ++ w ++ BitVec.ofBool t ++ p)
  | .ammax a b d o s w t p => some (0xc6#8 ++ a ++ b ++ d ++ o ++ s ++ w ++ BitVec.ofBool t ++ p)
  | .afadd a b d o s t p => some (0xc7#8 ++ a ++ b ++ d ++ o ++ s ++ 2#3 ++ BitVec.ofBool t ++ p)
  | .mcas a b d o s w t p => some (0xc8#8 ++ a ++ b ++ d ++ o ++ s ++ w ++ BitVec.ofBool t ++ p)
  | .enq a b d o s t p => some (0xc9#8 ++ a ++ b ++ d ++ o ++ s ++ 6#3 ++ BitVec.ofBool t ++ p)
  | .chase a b d o s t p => some (0xca#8 ++ a ++ b ++ d ++ o ++ s ++ 6#3 ++ BitVec.ofBool t ++ p)
  | .abar a b d o s x t p => some (0xcb#8 ++ a ++ b ++ d ++ o ++ s ++ x ++ BitVec.ofBool t ++ p)
  | .patw a n => some (0xd0#8 ++ a ++ 0#15 ++ n)
  | .patr a n => some (0xd1#8 ++ a ++ 0#15 ++ n)
  | .layw a n => some (0xd2#8 ++ a ++ 0#16 ++ n)
  | .sgo a b d n r i t => some (0xd3#8 ++ a ++ b ++ d ++ n ++ BitVec.ofBool r ++ BitVec.ofBool i ++ 0#2 ++ t)
  | .scnl s => some (0xd4#8 ++ s ++ 0#16)
  | .spos d s t => some (0xd5#8 ++ 0#8 ++ d ++ 0#7 ++ s ++ t)
  | .coll a t => some (0xd6#8 ++ a ++ 0#17 ++ t)
  | .rcpy a b d o s t => some (0xd7#8 ++ a ++ b ++ d ++ o ++ s ++ 0#4 ++ t)
  | .gopen n => some (0xd8#8 ++ 0#18 ++ n)
  | .gst a b d o s w t p => some (0xd9#8 ++ a ++ b ++ d ++ o ++ s ++ w ++ BitVec.ofBool t ++ p)
  | .gcmt d n => some (0xda#8 ++ 0#4 ++ d ++ 0#10 ++ n)
  | .gabrt n => some (0xdb#8 ++ 0#18 ++ n)
  | .gstat d n => some (0xdc#8 ++ 0#8 ++ d ++ 0#6 ++ n)
  | .lnch a b d t p => some (0xdd#8 ++ a ++ b ++ d ++ 0#8 ++ BitVec.ofBool t ++ p)
  | .sig a => some (0xde#8 ++ 0#8 ++ a ++ 0#12)
  | .gbar n => some (0xdf#8 ++ 0#20 ++ n)
  | .drain t => some (0xe0#8 ++ 0#5 ++ t ++ 0#16)
  | .done a => some (0xe1#8 ++ 0#8 ++ a ++ 0#12)
  | .cfgld a b d => some (0xf0#8 ++ a ++ b ++ d ++ 0#12)
  | .bswap t a => some (0xf1#8 ++ 0#5 ++ t ++ a ++ 0#12)
  | .fold a => some (0xf2#8 ++ 0#8 ++ a ++ 0#12)
  | .rqsc t a r => some (0xf3#8 ++ 0#5 ++ t ++ a ++ 0#11 ++ BitVec.ofBool r)
  | .asids a => some (0xf4#8 ++ 0#8 ++ a ++ 0#12)
  | .xinv a b s => some (0xf5#8 ++ a ++ b ++ 0#14 ++ s)
  | .l2md d a => some (0xf6#8 ++ 0#4 ++ d ++ a ++ 0#12)
  | .scrb a b d => some (0xf7#8 ++ a ++ b ++ d ++ 0#12)
  | .khnd a d => some (0xf8#8 ++ a ++ 0#4 ++ d ++ 0#12)
  | .kdel a => some (0xf9#8 ++ 0#8 ++ a ++ 0#12)
  | .mext a b => some (0xfa#8 ++ a ++ b ++ 0#16)
  | .ksign a b d => some (0xfb#8 ++ a ++ b ++ d ++ 0#12)
  | .tokenArrival _ _ => none
  | .fifoTokenArrival _ _ => none
  | .replyArrival _ => none
  | .conversionReturn _ _ => none
  | .cnvReturn _ => none
  | .drainDelivery _ => none
  | .timingTrap _ => none
  | .bankSwapEffect _ => none
  | .rqscStop _ => none
  | .drainHold _ => none
  | .beginDecode _ => none
  | .decodeEnd _ => none
  | .ptldComplete _ => none
  | .slotFill _ => none
  | .pendingFillStart _ _ => none
  | .fillComplete _ _ => none
  | .homeAccess _ => none
  | .chainApply _ => none
  | .waitingLoadAnswer _ => none
  | .barrierWaitAnswer _ => none
  | .translationWalk _ _ _ => none
  | .parkedStoreRetry _ => none
  | .parkedStoreAgeExpiry _ => none
  | .correctableError => none
  | .uncorrectableError _ => none
  | .bindingStart _ => none
  | .bindingComplete _ => none
  | .streamRoundHoldRelease _ => none
  | .collectiveComplete _ => none
  | .groupStoreStaging _ => none
  | .gstAck _ => none
  | .decisionRecordWrite _ => none
  | .commitPacket _ => none
  | .abortPacket _ => none
  | .groupLifetimeExpiry _ _ => none
  | .holdTimeoutResolve _ _ => none
  | .groupResolveQuery _ _ => none
  | .chipLost _ => none
  | .eventFlagSet _ => none
  | .gangBarrierRelease _ _ => none
  | .sequencerCodeLoad _ => none
  | .faultDelivery _ => none
  | .contextFault _ => none
  | .tailUpdate _ => none
  | .queueRecordRead _ => none
  | .dependenceCheck _ => none
  | .taskSelect _ => none
  | .levelStarved _ _ => none
  | .sliceExpiry _ => none
  | .placement _ => none
  | .stageStart _ _ => none
  | .fullPreemption _ => none
  | .saveResume _ => none
  | .restore _ => none
  | .stageRestart _ _ => none
  | .failedCoreRecovery _ _ => none
  | .taskCompletion _ => none
  | .taskEnd _ => none
  | .memberRequest _ _ _ _ _ _ => none
  | .gangStartTime _ => none
  | .gangSkewExpiry _ => none
  | .memberRequestTimeout _ => none
  | .gangRetry _ => none
  | .remoteLaunch _ _ _ _ _ => none
  | .memberUnreachable _ _ => none
  | .gangChannelReplay _ => none
  | .settleTimeout _ => none
  | .brQtailWrite _ _ => none
  | .queueEnable _ _ => none
  | .brL2reqWrite _ => none
  | .hpDtailWrite _ _ _ => none
  | .dmaBlock _ _ _ _ _ _ => none
  | .dmaRingDisable _ _ => none
  | .functionLevelReset _ => none
  | .vfEnableClear => none
  | .quiesceEnd _ => none
  | .hostReadTimeout _ _ => none
  | .unexpectedCompletion _ => none
  | .mailboxGo _ => none
  | .attestation _ => none
  | .sealInstall _ => none
  | .sessionOpen _ => none
  | .usageReport _ => none
  | .teardown _ => none
  | .partitionKeys _ => none
  | .certificateChain _ => none
  | .handleDelete _ => none
  | .measureExtend _ => none
  | .recoveryImageWrite => none
  | .cobaltError => none
  | .brErrpopWrite _ => none
  | .saveEnd _ => none
  | .saveCancel _ => none
  | .portRotateRequest _ => none
  | .portEnable _ _ _ => none
  | .d3hotWrite _ => none
  | .cbPwrlimWrite _ => none
  | .registerWrite _ _ => none
  | .flitGroupReceive _ _ _ _ => none
  | .nakResend _ _ => none
  | .ackReceive _ _ => none
  | .keyUpdate _ => none
  | .epochGroupLimit _ => none
  | .portDown _ => none
  | .portUp _ => none
  | .packetReceive _ => none
  | .packetWaitExpiry _ _ => none
  | .requestTimeout _ => none
  | .spdmRetry _ _ _ => none
  | .podTimeSync _ => none
  | .powerOnReset => none
  | .perst => none
  | .sidebandReset => none
  | .watchdogReset => none
  | .thermalTrip => none
  | .thermalThrottle _ => none
  | .powerDutyAdjust _ _ => none
  | .romBoot => none
  | .firmwareBoot => none
  | .illegalWordDecode _ => none
  | .groupDestinationAck _ _ => none
  | .hostReadCompletion _ _ => none
  | .thermalTripCooled => none
  | .decodeSpanDelivered _ _ => none
  | .recoverySkewExpiry _ _ => none

/-- Opcode 0x92 has two forms; every other form has one word for every executor (R202). -/
def Instr.readBy (mn : Bool) : Instr → Bool
  | .wstatMn _ _ _ => mn
  | .wstatSeq _ _ _ _ => !mn
  | _ => true

/-- The decoder on a word numbered as the opcode table numbers it: four bytes laid out from the lowest address. A word of
opcode 0x92 is read as a matrix node reads it when it has the form's fixed bits, and otherwise as a sequencer does. -/
def decodeTableWord (nbits w : Nat) : Option Instr :=
  let v := BitVec.ofNat 32 (w % 2 ^ nbits)
  let bytes := [v.extractLsb' 0 8, v.extractLsb' 8 8, v.extractLsb' 16 8, v.extractLsb' 24 8]
  match (decodeBytes true bytes).1, (decodeBytes false bytes).1 with
  | .ok i, _ => some i
  | _, .ok i => some i
  | _, _ => none

end Sys2Proof
end

