-- ==== Sys2Proof/Machine/Tab.lean ====
section
/-! DEFINITION. Tables: what memory, register files and every numbered set of like things are kept in. A table lists the
entries that differ from a default, with strictly rising keys, so that two tables that read alike are the same list. -/

namespace Sys2Proof.Machine

/-- Entries by key; an unlisted key holds the table's default. -/
abbrev Tab (α : Type) := List (Nat × α)

/-- The entry at key `k`, or the default `d`. -/
def look {α : Type} (d : α) : Tab α → Nat → α
  | [], _ => d
  | (i, v) :: t, k => if i = k then v else look d t k

/-- Lists `v` at key `k`, before the first larger key. -/
def enter {α : Type} : Tab α → Nat → α → Tab α
  | [], k, v => [(k, v)]
  | (i, x) :: t, k, v =>
    if i < k then (i, x) :: enter t k v
    else if i = k then (k, v) :: t
    else (k, v) :: (i, x) :: t

/-- Takes key `k` off the list. -/
def strike {α : Type} : Tab α → Nat → Tab α
  | [], _ => []
  | (i, x) :: t, k => if i = k then strike t k else (i, x) :: strike t k

/-- Puts `v` at key `k`, keeping the keys rising; a value equal to the default is not listed. -/
def put {α : Type} [DecidableEq α] (d : α) (t : Tab α) (k : Nat) (v : α) : Tab α :=
  if v = d then strike t k else enter t k v

/-- Every listed key is at least `lo`, keys rise strictly, and no entry equals the default. -/
def Tab.wfFrom {α : Type} [DecidableEq α] (d : α) : Nat → Tab α → Bool
  | _, [] => true
  | lo, (i, v) :: t => decide (lo ≤ i) && !decide (v = d) && Tab.wfFrom d (i + 1) t

/-- The canonical form of a table. -/
def Tab.wf {α : Type} [DecidableEq α] (d : α) (t : Tab α) : Bool := Tab.wfFrom d 0 t

end Sys2Proof.Machine
end

