-- ==== Sys2Proof/Machine/CoreState.lean ====
section
/-! DEFINITION. The state of a sequencer, of a compute core's vector element and matrix node, of a timing island and of a
region, as plain data. Every default is the value at reset. -/

namespace Sys2Proof.Machine

/-- R27 Table 2: one row context. -/
structure Row where
  word : Word := 0
  tags : BitVec 8 := 0
  rstpt : Bool := false
  deriving DecidableEq, Repr

/-- R165: an iteration counter. A limit of 0 means 65536. -/
structure Counter where
  count : BitVec 16 := 0
  limit : BitVec 16 := 0
  deriving DecidableEq, Repr

/-- R18, R399: a fault on its way to a sequencer: its class and kind, the value and the information of its trap record. -/
structure FaultRec where
  cause : BitVec 16
  tval : W64
  tinfo : W64
  /-- R244: the elements of a SCAT performed before its fault. R400 gives them no place in the registers (log 144). -/
  mask : BitVec 8 := 0
  deriving DecidableEq, Repr

/-- R233, R433: a store waiting in a replay queue. Its age is the pod time since `born`. -/
structure Parked where
  asid : BitVec 16
  va : W64
  width : Nat
  data : BitVec 512
  ord : BitVec 2
  scope : BitVec 3
  denied : Bool
  row : Nat
  iter : BitVec 16
  born : Nat
  /-- R437: the version of a parked STV. -/
  ver : Option (BitVec 16) := none
  /-- R434: an XINV that covers it, or a restore, lets it retry. -/
  retry : Bool := false
  /-- R308: how many bindings had been made before it. -/
  made : Nat := 0
  deriving DecidableEq, Repr

/-- R224: an entry of a VE's reply queue: a reply entry (`wantsX`) or a completion entry. `left` counts the accesses of the
firing that are still to be answered; the token collects what the answered ones brought. -/
structure Entry where
  num : Nat
  tok : Token
  wantsX : Bool
  acquire : Bool := false
  link : Bool := false
  left : Nat
  /-- R228: the predicate of a status form, and what it will read. -/
  pred : Option (BitVec 3 × Bool) := none
  /-- R228: a versioned store's status reply carries the outcome code in lane 0. -/
  codeReply : Bool := false
  /-- R232: the first fault met, with row and iteration of the issuing firing. -/
  fault : Option (BitVec 8 × W64) := none
  row : Nat := 0
  iter : BitVec 16 := 0
  /-- R244: elements already performed. -/
  mask : BitVec 8 := 0
  deriving DecidableEq, Repr

/-- A vector element (02, 05, 06, 09): everything a row of it reads or writes. -/
structure Ve where
  /-- R27: row `k` of bank `b` at key 32 × b + k. -/
  rows : Tab Row := []
  /-- R67, R293: a latch holds a token, or is cleared. -/
  latches : Tab (Option Token) := []
  /-- R31: ports N, E, S, W. -/
  ports : Tab (Option Token) := []
  /-- R120, R139: constant `i` of bank `b` at key 2 × b + i. -/
  consts : Tab Token := []
  x : Option Token := none
  sd : Option Token := none
  link : W64 := 0
  linkValid : Bool := false
  /-- R124: P0 to P6 and P7, which reads true. -/
  preds : BitVec 8 := 0x80
  rnd : BitVec 8 := 0
  ics : Tab Counter := []
  /-- R51: the marker-seen flags of the stateful row with this index: bit 0 for a, bit 1 for b. -/
  seen : Tab (BitVec 8) := []
  /-- R148: rows of the active bank, by index, whose FRESH flag is clear. -/
  stale : Tab Bool := []
  replies : List Entry := []
  replay : List Parked := []
  /-- R179: results sent to target `cnv`, as the conversion element will return them, oldest first. -/
  cnv : List Token := []
  /-- R53: selectors of the due row whose tokens are at the conversion element. -/
  steering : List Nat := []
  /-- R53: tokens that came back for the due row, by selector. -/
  returned : Tab (Option Token) := []
  deriving DecidableEq, Repr

/-- R139, R323: a weight reference as its stage binds it: index table, tile base, and tiles along N. -/
structure Weight where
  index : W64
  tiles : W64
  across : Nat
  deriving DecidableEq, Repr

/-- R74 Table 4, R76: an operand slot. -/
structure Slot where
  state : BitVec 2 := 0
  claims : BitVec 4 := 0
  pend : Bool := false
  /-- R75: a claim taken while a fill was pending waits for that fill. -/
  claiming : Bool := false
  mirror : Bool := false
  /-- In 32-byte units. -/
  len : BitVec 9 := 0
  gpa : BitVec 58 := 0
  kh : BitVec 16 := 0
  data : BitVec 65536 := 0
  /-- R201: decodes that read the slot. -/
  holds : Nat := 0
  /-- The binding whose fill is pending or running. -/
  fill : Option Nat := none
  /-- R76: the binding that fetches the slot again. -/
  refill : Option Nat := none
  /-- R76: the pattern, layout, offset and weight-reference base of the last fill, kept with a mirrored slot. -/
  fillRec : Option (BitVec 256 × BitVec 384 × W64 × Weight) := none
  /-- R194: the slot's cursor. -/
  off : BitVec 9 := 0
  tnum : BitVec 16 := 0
  deriving DecidableEq, Repr

/-- R188, R203: the record of a decode fault. -/
structure DecodeFault where
  cause : Nat
  sym : Nat
  slot : BitVec 5
  off : BitVec 9
  tnum : BitVec 16
  deriving DecidableEq, Repr

/-- R194: a weight buffer. -/
structure Buffer where
  data : BitVec 32768 := 0
  fmt : Option (BitVec 3) := none
  slot : BitVec 5 := 0
  off : BitVec 9 := 0
  nsym : Nat := 0
  flt : Option DecodeFault := none
  kh : BitVec 16 := 0
  deriving DecidableEq, Repr

/-- R203: a decode fired and not finished. While it runs, `image` holds the whole decoded tile, `upTo` the symbols that will be
delivered and `bad` the fault that ends it; symbols are delivered by DECODE_SPAN_DELIVERED and DECODE_END. -/
structure Decode where
  slot : BitVec 5
  buf : Bool
  rst : Bool
  running : Bool := false
  image : BitVec 32768 := 0
  upTo : Nat := 0
  bad : Option DecodeFault := none
  deriving DecidableEq, Repr

/-- R195: the record of an open block, one sum and one set of flags for each of the 64 elements. Sums count steps of 2^−266. -/
structure OpenBlock where
  pair : BitVec 3
  count : Nat
  sums : List Int
  /-- Bits: 0 a NaN or 0 × ∞ product, 1 a +∞ product, 2 a −∞ product, 3 a product other than −0. -/
  flags : List (BitVec 4)
  deriving DecidableEq, Repr

/-- R77, R194: a handle. -/
structure Handle where
  slot : Option Nat := none
  i32 : Bool := false
  deriving DecidableEq, Repr

/-- R185, R194: a decode table of 4096 entries of 24 bits. -/
structure DecTable where
  entries : BitVec 98304 := 0
  loaded : Bool := false
  kh : BitVec 16 := 0
  deriving DecidableEq, Repr

/-- R205: how far the PTLD that freezes its island has come. -/
inductive TableLoad where
  | none
  | waiting
  | done
  | failed
  deriving DecidableEq, Repr

/-- A matrix node (R194 Table 1, R74, R77, R124, R165, R485). -/
structure Mn where
  rows : Tab Row := []
  preds : BitVec 8 := 0x80
  rnd : BitVec 8 := 0
  ics : Tab Counter := []
  slots : Tab Slot := []
  buffers : Tab Buffer := []
  queue : List Decode := []
  rowScale : Tab Word := []
  colScale : Tab Word := []
  handles : Tab Handle := []
  /-- R78: row i of accumulator slot s at key 64 × s + i, 64 elements of 32 bits. -/
  acc : Tab (BitVec 2048) := []
  /-- R195: row i of handle h at key 64 × h + i. -/
  blocks : Tab (Option OpenBlock) := []
  free : List Nat := [0, 1, 2, 3]
  /-- R77: slots that return to the list once the drain stage is empty. -/
  returning : List Nat := []
  tables : Tab DecTable := []
  /-- R214: the drain stage: a token, and the row and iteration of its ADRN. -/
  drain : Option (Token × Nat × BitVec 16) := none
  /-- The token of an ADRN of the cycle in progress, whose delivery is a cycle away. -/
  drainIn : Option (Token × Nat × BitVec 16) := none
  act : Option Token := none
  /-- R53, R198: the activation token is at the conversion element, or has come back from it. -/
  actSteering : Bool := false
  actBack : Option Token := none
  /-- R211. -/
  occupied : Bool := false
  ptld : TableLoad := .none
  /-- R77, R442: accumulator slots lost to an error. -/
  lost : List Nat := []
  deriving DecidableEq, Repr

/-- A compute core (R14): VE, MN, which of its two banks is active, and the failed mark (R412). -/
structure Core where
  ve : Ve := {}
  mn : Mn := {}
  bank : Bool := false
  failed : Bool := false
  deriving DecidableEq, Repr

/-- Why an island is held (R289, R295, R401). -/
inductive Hold where
  | drain
  | rqsc
  | fault
  | preempt
  deriving DecidableEq, Repr

/-- A timing island (R33 to R41). -/
structure Island where
  /-- R35 Table 3: the active descriptor; zero where no island is. -/
  desc : BitVec 64 := 0
  /-- Key of the region it belongs to. -/
  region : Nat := 0
  enabled : Bool := false
  hold : Option Hold := none
  cnt : Nat := 0
  iter : BitVec 16 := 0
  frzLen : BitVec 32 := 0
  frozen : Bool := false
  trapped : Bool := false
  src : BitVec 2 := 0
  rstRnd : BitVec 8 := 0
  round : BitVec 8 := 0
  rval : Bool := false
  /-- R401: the fault that waits, and the cycle in which it arrived. -/
  fault : Option (FaultRec × Nat) := none
  /-- R403: a fault already delivered whose disposition Brass has not applied. -/
  delivered : Option FaultRec := none
  /-- R295: the cycle at which RQSC stops it. -/
  stopAt : Option Nat := none
  /-- R289: armed, and the channels that have delivered a drain marker since. -/
  armed : Bool := false
  drainSeen : List Nat := []
  /-- R53, R54: steered tokens at the conversion element, in the order it serves them: core, selector, converted token. -/
  conv : List (Nat × Nat × Token) := []
  /-- R471: while a gang member recovers, waits for a gang channel do not count toward the budget. -/
  waived : Bool := false
  /-- R337: nor do, before the skew limit of a start, waits for a cross-chip channel that has delivered no token; the FIFOs into which one
  has. -/
  early : Bool := false
  heard : List Nat := []
  deriving DecidableEq, Repr

/-- R260: work on islands of a region that keeps a token of a sequencer busy. -/
structure Ask where
  seq : Nat
  tok : BitVec 3
  isls : List Nat
  deriving DecidableEq, Repr

/-- R44, R291, R347: a region: the rectangle given to one stage, with what its last configuration load wrote. -/
structure Region where
  rows : Nat := 0
  cols : Nat := 0
  part : BitVec 7 := 0
  asid : BitVec 16 := 0
  /-- The sequencer that runs the stage's control program. -/
  seq : Option Nat := none
  /-- The task and stage that hold it. -/
  owner : Option (Nat × Nat) := none
  /-- R293: 1, 2 or 4. -/
  alt : Nat := 1
  /-- Islands of the active configuration, in row-major order of their north-west corners. -/
  islands : List Nat := []
  /-- Descriptors of the shadow configuration, in the same order. -/
  shadow : List (BitVec 64) := []
  shadowAlt : Nat := 1
  shadowCols : Nat := 0
  shadowRows : Nat := 0
  /-- R291: the sequencer that the last configuration load named; none for NOSEQ. -/
  shadowSeq : Option Nat := none
  meas : BitVec 256 := 0
  shadowMeas : BitVec 256 := 0
  /-- R132, R157: entry address of the loaded sequencer code. -/
  entry : Nat := 0
  weights : List Weight := []
  /-- R293, R295, R289: a BSWAP, an RQSC and a DRAIN in progress. -/
  swap : Option Ask := none
  /-- R347: islands swapped since the last CFGLD, when only some have been. -/
  swapped : List Nat := []
  /-- R294: a FOLD has left cores held; whether a CFGLD has come since. -/
  folded : Option Bool := none
  stop : Option Ask := none
  drain : Option Ask := none
  deriving DecidableEq, Repr

/-- What a sequencer does with its next turn (R151, R154, R155, R159, R290). -/
inductive Run where
  | off
  | running
  | halted
  | stopped
  | saved
  deriving DecidableEq, Repr

/-- The instruction at pc of a sequencer, part of the way through its accesses: what the finished ones answered, and the access that has
left the sequencer and is not complete: a wait staged at a home (R237, R242, R256), a request to another chip (R380), a group store
whose acknowledgement it waits for (R278), or a copy that an acquire waits for (R274). -/
structure SeqWait where
  got : List Answer := []
  id : Option Nat := none
  answer : Option Answer := none
  deriving DecidableEq, Repr

/-- A sequencer core (R62, R151 to R158, R233, R261, R288). -/
structure Seq where
  g : Tab W64 := []
  preds : BitVec 8 := 0x80
  /-- R64: busy tokens. -/
  tokens : BitVec 8 := 0
  /-- R117: word `k` of the instruction memory. -/
  imem : Tab Word := []
  pc : W64 := 0
  super : Bool := false
  asid : BitVec 16 := 0
  part : BitVec 7 := 0
  run : Run := .off
  event : Bool := false
  islSel : W64 := 0
  wake : BitVec 8 := 0
  unack : Bool := false
  r1v : Bool := false
  tvec : W64 := 0
  ssp : W64 := 0
  tcause0 : W64 := 0
  tpc0 : W64 := 0
  tval0 : W64 := 0
  tinfo0 : W64 := 0
  /-- R244: the masks of records 0 and 1. -/
  tmask0 : BitVec 8 := 0
  tmask1 : BitVec 8 := 0
  tcause1 : W64 := 0
  tpc1 : W64 := 0
  tval1 : W64 := 0
  tinfo1 : W64 := 0
  rstPc : BitVec 16 := 0
  rstTag : BitVec 12 := 0
  rstArg : W64 := 0
  rstSp : W64 := 0
  patterns : Tab (BitVec 256) := []
  layouts : Tab (BitVec 384) := []
  /-- R143: code that a configuration load has brought and that waits for the sequencer to be idle or saved, with its entry address. -/
  code : Option (Nat × List Word) := none
  replay : List Parked := []
  /-- The wait registered at a home for the instruction at pc. -/
  wait : Option SeqWait := none
  /-- R159: the instruction at pc has begun, and waits for earlier accesses or for room. -/
  begun : Bool := false
  /-- The region whose stage the control program serves. -/
  region : Option Nat := none
  /-- R288: the barrier it has arrived at. -/
  barrier : Option (BitVec 4) := none
  /-- R401: class 3 faults of its bindings, oldest first, with the cycle of arrival and the token. -/
  bindFaults : List (FaultRec × Nat) := []
  /-- R403: the island whose fault record 0 holds. -/
  record0Isl : Option Nat := none
  /-- R403: islands whose fault record a later trap overwrote; Brass applies the default disposition. -/
  lostIsls : List Nat := []
  deriving DecidableEq, Repr

end Sys2Proof.Machine
end

