-- ==== Sys2Proof/Machine/HostState.lean ====
section
/-! DEFINITION. The state of the host port and of the Couri links (chapter 14, R461 to R480). -/

namespace Sys2Proof.Machine

/-- R371 Table 4: a DMA ring. -/
structure Ring where
  en : Bool := false
  lsz : BitVec 4 := 0
  vec : BitVec 6 := 0
  ring : W64 := 0
  cmp : W64 := 0
  tail : W64 := 0
  head : W64 := 0
  ovf : Bool := false
  err : Bool := false
  busy : Bool := false
  /-- R8: HP_DRING and HP_DCMP have been written since reset. -/
  ringSet : Bool := false
  cmpSet : Bool := false
  /-- R372: the block that runs, the host read that it waits for, and the device accesses that it has made. -/
  blk : BitVec 512 := 0
  tag : Option Nat := none
  done : Nat := 0
  /-- What host reads have brought, or what the unit in progress has read; tags from the host; whether a host read failed. -/
  buf : List Byte := []
  tags : List Byte := []
  short : Bool := false
  deriving DecidableEq, Repr

/-- A host function: its rings, its binding to a partition and its quiescing (R369, R461, R462). -/
structure Fn where
  rings : Tab Ring := []
  /-- BR_FNPART: bit 7 V, bits 6 to 0 PART. -/
  part : BitVec 8 := 0
  qsc : Bool := false
  /-- R460: the partition it was bound to when its teardown began. -/
  was : Option (BitVec 7) := none
  /-- R461: host reads outstanding, by tag, with the units their replies reserve; tags whose reads timed out. -/
  reads : Tab Nat := []
  late : List Nat := []
  deriving DecidableEq, Repr

/-- R318, R369: a hardware queue. -/
structure Queue where
  cfg : BitVec 64 := 0
  ring : W64 := 0
  db : W64 := 0
  tail : W64 := 0
  head : W64 := 0
  ovf : Bool := false
  badr : Bool := false
  cmpf : Bool := false
  qvf : BitVec 17 := 0
  /-- R8: BR_QRING and BR_QDB have been written since reset. -/
  ringSet : Bool := false
  dbSet : Bool := false
  deriving DecidableEq, Repr

/-- The host port: what the functions hold, and what has been sent to the host and not yet taken: MSI-X messages (function, vector),
and bytes written to host memory (address, data). -/
structure HostPort where
  fns : Tab Fn := []
  asidBase : W64 := 0
  l2req : BitVec 2 := 0
  msix : List (Nat × Nat) := []
  writes : List (W64 × List Byte) := []
  deriving DecidableEq, Repr

/-- R379: a key slot and its epoch; the key itself is Cobalt's and no register reads it. -/
structure KeySlots where
  slot0 : Option (BitVec 16) := none
  slot1 : Option (BitVec 16) := none
  deriving DecidableEq, Repr

/-- R375 to R379: a Couri port. -/
structure CouriPort where
  en : Bool := false
  up : Bool := false
  auth : Bool := false
  dup : Bool := false
  peer : BitVec 12 := 0
  crcErr : BitVec 16 := 0
  authErr : BitVec 16 := 0
  txEpoch : BitVec 16 := 0
  tx : KeySlots := {}
  rx : KeySlots := {}
  /-- Next SEQ to send, groups sent under the epoch in use, and the replay buffer, oldest first. -/
  txSeq : Nat := 0
  sent : Nat := 0
  replay : List FlitGroup := []
  rxSeq : Nat := 0
  /-- The SEQ of the last NAK answered, and how many came in a row; the SEQ from which groups are to be sent again. -/
  nakSeq : Nat := 0
  naks : Nat := 0
  resend : Option Nat := none
  /-- R378: a NAK that waits to leave, for this SEQ. -/
  nakOut : Option Nat := none
  /-- A rotation that waits for a free slot. -/
  rotate : Bool := false
  /-- Packets in order of leaving that no group holds yet. -/
  queue : List Packet := []
  /-- R480: the pod time of the last attempt at a session since the port went down. -/
  tried : Option Nat := none
  deriving DecidableEq, Repr

/-- R375: CL_RTAB(c). `pending` holds new packets back while a change of USE waits for the old port (R381). -/
structure ChipRoute where
  v : Bool := false
  use : Bool := false
  av : Bool := false
  aport : BitVec 4 := 0
  pport : BitVec 4 := 0
  pending : Bool := false
  deriving DecidableEq, Repr

/-- R477: the two ends of the packet sequence with one other chip. -/
structure Pair where
  next : Nat := 0
  /-- Sent and not acknowledged end to end. -/
  unacked : List Packet := []
  /-- Waiting to be sent (R477, R479), each with the pod time since which it has waited. -/
  waiting : List (Packet × Nat) := []
  expect : Nat := 0
  /-- Arrived ahead of their number, in the order of arrival. -/
  held : List Packet := []
  deriving DecidableEq, Repr

/-- The links. -/
structure Links where
  chip : BitVec 12 := 0
  master : Bool := false
  ports : Tab CouriPort := []
  rtab : Tab ChipRoute := []
  pairs : Tab Pair := []
  /-- Packets of other chips that this chip forwards and that wait for a port, with the pod time since which they have waited. -/
  passing : List (Packet × Nat) := []
  /-- The number the next request takes, and the pod time at which each request left (R479). -/
  nextId : Nat := 0
  sentAt : Tab Nat := []
  deriving DecidableEq, Repr

end Sys2Proof.Machine
end

