-- ==== Sys2Proof/Machine/MemState.lean ====
section
/-! DEFINITION. The state of the memory system: bytes, versions and poison of the local physical address space, the units that stage
and hold lines, requests on their way, translation caches and commit groups (chapters 03, 09, 10, 20). -/

namespace Sys2Proof.Machine

/-- Who issues an access and under what: the issuer, its cluster, ASID and partition. -/
structure Issuer where
  who : Actor
  cluster : Nat
  asid : BitVec 16
  part : BitVec 7
  /-- Another chip, whose request this is: its number stands in the entry. -/
  chip : Option Nat := none
  /-- R68, R227: the core of a VE when it issued the access, whose scratchpad is its own. -/
  core : Nat := 0
  deriving DecidableEq, Repr

/-- What translation gives: the home's chip and local address, whether the page's lines are versioned, the PTE's KEY, whether L2 may
cache it, and the page: its first address and its size (R71, R94). Local-window accesses have no key and no page. -/
structure Target where
  chip : Nat
  la : Nat
  ver : Bool
  key : Option (BitVec 12) := none
  cached : Bool := false
  /-- R94: CACHE = 01, evict first. -/
  first : Bool := false
  oo : Bool := false
  page : Nat := 0
  size : Nat := 0
  deriving DecidableEq, Repr

/-- A request on its way to a home (R221, R227): from a VE, or a store that its sequencer has completed. `entry` is the reply-queue
entry it answers and `elem` its place there; a store that must not be parked says so (R233). -/
structure Req where
  iss : Issuer
  ea : W64
  op : MemOp
  entry : Option Nat := none
  elem : Nat := 0
  status : Bool := false
  row : Nat := 0
  iter : BitVec 16 := 0
  ord : BitVec 2 := 0
  scope : BitVec 3 := 0
  /-- The translation, where the issuer has made it already. -/
  target : Option Target := none
  /-- R233: found its issuer's replay queue full. -/
  stuck : Bool := false
  /-- R308: how many bindings had been made before it. -/
  made : Nat := 0
  /-- R304, R305: the egress points that it has passed: those of the scopes below this number. -/
  passed : Nat := 0
  /-- R231: it has reached its home, passed every check there, and waits for a held line. -/
  arrived : Bool := false
  /-- R251: a further access of a near-memory operation, which the unit at the home makes. -/
  hop : Bool := false
  deriving DecidableEq, Repr

/-- R86: an entry of a home's staging buffer, for one line. -/
inductive StagedOp where
  | store (off w : Nat) (v : BitVec 16) (data : BitVec 512)
  | load (off w : Nat) (m : BitVec 16)
  | exact (off w : Nat) (e : BitVec 16)
  | phase (q : BitVec 16)
  deriving DecidableEq, Repr

/-- An entry with its issuer and what it will answer. -/
structure Staged where
  line : Nat
  op : StagedOp
  iss : Issuer
  /-- The reply entry of a VE, the wait of a sequencer, or the request of another chip. -/
  entry : Option Nat
  ea : W64
  status : Bool
  deriving DecidableEq, Repr

/-- R84, R258: an entry whose line a write has satisfied, answered in the following cycle with what the write left. -/
structure Due where
  staged : Staged
  answer : Answer
  deriving DecidableEq, Repr

/-- R279: a line held by a commit group, with the staged copy. -/
structure Held where
  gid : GroupId
  copy : BitVec 512
  part : BitVec 7
  /-- Pod time of its first staged store, and of the last query after its fate (R455). -/
  since : Nat
  asked : Option Nat := none
  poisoned : Bool := false
  /-- Whether its page's lines are versioned. -/
  ver : Bool := true
  /-- R452: chip and slice of the group's first destination, as stamped into the store. -/
  first : Nat × Nat
  deriving DecidableEq, Repr

/-- R276 Table 7, R284: a commit group at its initiator. `first` is the chip and slice of its first registered store's home. -/
structure Group where
  state : BitVec 3 := 0
  epoch : BitVec 8 := 0
  stores : Nat := 0
  acks : Nat := 0
  code : BitVec 5 := 0
  opened : Nat := 0
  first : Option (Nat × Nat) := none
  /-- Chips that may hold lines of the group and have not yet acknowledged publication or release. -/
  dests : List Nat := []
  /-- R281: copies of the decision record written: at the initiator and at the first destination. -/
  recordHere : Bool := false
  recordThere : Option Bool := none
  /-- R454: the record has been sent to the first destination; abort packets to the others wait for its release. -/
  sent : Bool := false
  deferred : Bool := false
  /-- R281 Table 8: NLINE of the record at the initiator. -/
  nline : BitVec 32 := 0
  /-- R281: the codes with which groups of earlier epochs were aborted, by epoch: a GCMT that still waits for one answers it. -/
  ended : Tab (BitVec 5) := []
  deriving DecidableEq, Repr

/-- R278, R280: a registered group store: on its way to its home, there, or with its acknowledgement on its way back. -/
structure GroupStore where
  gid : GroupId
  /-- Its number between chips. -/
  id : Nat
  req : Req
  home : Nat
  la : Nat
  ver : Bool
  key : Option (BitVec 12)
  first : Nat × Nat
  /-- Its home has decided. -/
  staged : Bool := false
  acked : Bool := false
  code : BitVec 5 := 0
  fault : Option (BitVec 8) := none
  deriving DecidableEq, Repr

/-- R97: one entry of a translation cache. `level` is 1, 2 or 3, the level of the leaf. -/
structure TlbEntry where
  unit : Nat
  asid : BitVec 16
  vpn : Nat
  level : Nat
  pte : W64
  deriving DecidableEq, Repr

/-- R89, R90: a line cached in L2: the partition in whose way it stands, the way, whether it is newer than HBM, whether it is evicted first
(R94), and whether it has been evicted and is on its way to HBM. -/
structure L2Line where
  part : BitVec 7 := 0
  cached : Bool := false
  dirty : Bool := false
  way : Nat := 0
  first : Bool := false
  leaving : Bool := false
  deriving DecidableEq, Repr

/-- R445: an entry of the error log. -/
structure ErrEntry where
  reason : BitVec 3
  part : BitVec 7
  addr : BitVec 46
  deriving DecidableEq, Repr

/-- The memory system of the package. -/
structure Mem where
  /-- R70: bytes at local physical addresses; an unlisted byte reads zero (log 7). -/
  bytes : List Host.Cell := []
  /-- R79: versions by line number. -/
  vers : Tab (BitVec 16) := []
  /-- R442: poisoned lines of memory tiles and scratchpads, by line number. -/
  bad : Tab Bool := []
  /-- R389, R442: 512-byte HBM blocks that hold data. HBM is poisoned whole at reset, so a block not listed is poisoned. -/
  clean : Tab Bool := []
  /-- R442: HBM lines that are newer in L2 and were lost there. -/
  badL2 : Tab Bool := []
  /-- R79: frames reached under VER = 0 since their lines were last given versions. -/
  unver : Tab Bool := []
  /-- R320: the doorbell lines of the queues here, and the highest tail word that a write has left in each since it was registered. -/
  bells : Tab (Option W64) := []
  /-- R257: the cycle, plus one, of the last EXPECT of a barrier line. -/
  expected : Tab Nat := []
  /-- R359: the memory key under which an HBM block was written last: 4096 × generation + index + 1; 0 where no key was used. -/
  keyOf : Tab Nat := []
  /-- R444: retired frames, and errors counted per frame. -/
  retired : List Nat := []
  errors : Tab Nat := []
  staged : List Staged := []
  due : List Due := []
  /-- R83: a line on which a parked store with the next version waits for the following cycle. -/
  chain : List Nat := []
  held : Tab (Option Held) := []
  /-- R281, R453: decision records accepted at this chip as first destination, with their NLINE, and abort marks. -/
  decisions : List (GroupId × BitVec 32) := []
  aborts : List GroupId := []
  /-- Records, commit and abort packets, resolution queries and acknowledgements that have reached this chip and wait: a record with its
  slice and its NLINE, a query with the asking chip, whether it asks the first destination, and that one's slice, an acknowledgement with its chip. -/
  records : List (GroupId × Nat × BitVec 32) := []
  commitsIn : List GroupId := []
  abortsIn : List GroupId := []
  queries : List (GroupId × Nat × Bool × Nat) := []
  acksIn : List (GroupId × Nat) := []
  /-- R456: chips seen to have reset. -/
  gone : List Nat := []
  /-- R439, R452: identities whose decision record holds a reserved staging-way line here, by slice. -/
  reserved : List (Nat × GroupId) := []
  groups : Tab Group := []
  groupStores : List GroupStore := []
  flight : List Req := []
  /-- Requests of this chip at other chips, by number (R380). -/
  away : Tab (Option Req) := []
  tlb : List TlbEntry := []
  l2 : Tab L2Line := []
  l2mode : Bool := false
  log : List ErrEntry := []
  corr : BitVec 16 := 0
  lost : BitVec 16 := 0
  deriving DecidableEq, Repr

end Sys2Proof.Machine
end

