-- ==== Sys2Proof/Machine/StreamState.lean ====
section
/-! DEFINITION. The state of the stream islands and of collectives (chapter 10). -/

namespace Sys2Proof.Machine

/-- What a binding does: a stream of a pattern, one RCPY (addresses, lines, and whether later accesses wait for it), or one participant
of a collective (its rank, the ranks' places, and its output). -/
inductive BindKind where
  | stream
  | copy (dst src : W64) (lines : Nat) (acquire : Bool)
  | collective (cid : BitVec 32) (rank : Nat) (order : BitVec 224) (outPat : BitVec 256) (outLay : BitVec 384)
  deriving DecidableEq, Repr

/-- A line write on its way from a binding: its line, its bytes and which of them it writes, and the POS it counts for. -/
structure LineOut where
  va : W64
  data : BitVec 512
  mask : BitVec 64
  pos : Nat
  /-- R363: a line encrypted under the binding's handle. -/
  sealed : Bool := false
  deriving DecidableEq, Repr

/-- A token packed and not yet in the port, the POS after it, and the bytes under the handle in it. -/
structure TokenOut where
  tok : Token
  pos : Nat
  bytes : Nat
  deriving DecidableEq, Repr

/-- R271 to R273, R76: a binding made by SGO, RCPY or COLL. -/
structure Binding where
  kind : BindKind
  seq : Nat
  tok : BitVec 3
  /-- The port's key (see `fabricPort`). -/
  port : Nat
  write : Bool
  pat : BitVec 256
  lay : BitVec 384
  off : W64
  asid : BitVec 16
  part : BitVec 7
  /-- Package number of its stream island. -/
  si : Nat
  /-- The region of the stage that issued it, and whether at user level (R351). -/
  region : Option Nat
  user : Bool
  /-- R192: the weight reference it fetches from. -/
  weight : Weight := { index := 0, tiles := 0, across := 0 }
  /-- R271: the element it starts at, from which markers count. -/
  start : Nat := 0
  /-- R265, R273: elements delivered, read or written. -/
  pos : Nat := 0
  /-- R308: how many bindings had been made before it. -/
  made : Nat := 0
  /-- R273: 0 complete, 1 queued, 2 running, 3 stopped by a fault, 4 cancelled. -/
  state : BitVec 3 := 1
  /-- It has met the checks of its start (R350, R351). -/
  began : Bool := false
  /-- R272: SCNL has named it; it ends once its line writes are done. -/
  cancelled : Bool := false
  /-- R263: the token being packed: its data, elements, and bytes read under the handle. -/
  pack : BitVec 512 := 0
  packed : Nat := 0
  got : Nat := 0
  out : List TokenOut := []
  /-- R263: the run of elements of one line that a write gathers. -/
  run : Option LineOut := none
  /-- R268, R269: lines held in the clear, by virtual line number: aperture copies, a deciphered unit, or the last line read. -/
  plain : Tab (Option (BitVec 512)) := []
  /-- R349, R350: the cipher unit in progress: its number and, for a read, its lines, 64 being its tag. -/
  unitNo : Option Nat := none
  unit : Tab (Option (BitVec 512)) := []
  /-- R350: the lines of the write range that a write binding has visited, in the clear, by number: unit u has 64 × u to 64 × u + 63. -/
  clear : Tab (Option (BitVec 512)) := []
  writes : List LineOut := []
  /-- R380: a request to another chip, and its answer. -/
  ask : Option Nat := none
  /-- R98: where that request goes. -/
  askAt : Option Target := none
  reply : Option (BitVec 512 × Option (BitVec 8)) := none
  /-- A write binding has all its elements. -/
  ended : Bool := false
  /-- R75: bits gathered for a slot, the global address of the first byte fetched, and whether every page was operand-only. For a
  collective `filled` counts the elements read. -/
  fill : BitVec 65536 := 0
  filled : Nat := 0
  gpa : Option (BitVec 58) := none
  allOo : Bool := true
  /-- R192: the coded tile being fetched: its next address and the bytes left. -/
  tile : Option (W64 × Nat) := none
  /-- R416, R446: a fault that waits until what stands before it is written: kind, value, sub-cause and POS. -/
  broken : Option (BitVec 8 × W64 × BitVec 8 × Nat) := none
  /-- R484: this is a refetch of a mirrored slot, which no token awaits. -/
  refetch : Bool := false
  /-- R157, R408: Brass has bound it again at a restart, at which every token is free: no token awaits it. -/
  loose : Bool := false
  /-- R446: the fault that stopped it. -/
  fault : Option FaultRec := none
  deriving DecidableEq, Repr

/-- R264, R266: what a port keeps beyond its bindings: its round counter, the two newest restart positions (POS and round), the tokens
of its write channel. -/
structure Port where
  rnd : BitVec 8 := 0
  newest : Option (Nat × BitVec 8) := none
  older : Option (Nat × BitVec 8) := none
  /-- Bindings queued at the port, the first one running when it has started. -/
  queue : List Nat := []
  toks : List Token := []
  /-- R289: a read binding has been queued, or has run, since the last bank swap. -/
  used : Bool := false
  deriving DecidableEq, Repr

/-- R275: a collective as its participants have joined it: what they agree on, and the inputs, partial sums and results that have
come. -/
structure Collective where
  nm1 : Nat
  op : Nat
  elems : Nat
  /-- Local participants: rank and binding. -/
  joined : List (Nat × Nat) := []
  mismatch : Bool := false
  /-- Element e of rank r, its input and the sum through it, at key 16 × e + r; the result of element e at key e. -/
  inputs : Tab (Option (BitVec 32)) := []
  sums : Tab (Option (BitVec 32)) := []
  totals : Tab (Option (BitVec 32)) := []
  /-- Ranks whose output writes have been performed. -/
  finished : List Nat := []
  deriving DecidableEq, Repr

/-- The stream islands of the package. -/
structure Streams where
  bindings : Tab (Option Binding) := []
  /-- The number the next binding takes. -/
  next : Nat := 0
  ports : Tab Port := []
  colls : Tab (Option Collective) := []
  deriving DecidableEq, Repr

/-- R266: ports are kept under one number each: the two fabric ports of each stream island, the four input ports and four output
directions of each VE, the slots of each core, and the stream islands themselves for RCPY and COLL. -/
def fabricPort (cluster si j : Nat) : Nat := 24 * cluster + 2 * si + j

def vectorPort (core dir : Nat) : Nat := 1000 + 4 * core + dir

def slotPort (core slot : Nat) : Nat := 10000 + 32 * core + slot

def islandPort (cluster si : Nat) : Nat := 100000 + 12 * cluster + si

end Sys2Proof.Machine
end

