-- ==== Sys2Proof/Machine/BrassState.lean ====
section
/-! DEFINITION. The state of Brass: tasks, stages, gangs, partitions and selection (chapters 12, 18, 21). -/

namespace Sys2Proof.Machine

/-- How far a task has come (R321 to R338, R406). -/
inductive TaskState where
  /-- R324: published, and its dependence is not met. -/
  | waiting
  | ready
  /-- The pending head of its partition. -/
  | pending
  /-- Placed, and waiting for its other members or for its start time. -/
  | starting
  | resident
  /-- Fully pre-empted. -/
  | saved
  | ended
  deriving DecidableEq, Repr

/-- A stage of a task. -/
structure Stage where
  entry : BitVec 512
  region : Option Nat := none
  seq : Option Nat := none
  alt : Nat := 1
  /-- R139: what the stage header of its image says: rows and columns at ×1, alternatives, cluster, and whether it has code. -/
  rows : Nat := 0
  cols : Nat := 0
  mask : BitVec 8 := 0
  pin : Nat := 0xFF
  hasCode : Bool := false
  /-- Loaded and swapped, not yet enabled (R332, R336). -/
  loaded : Bool := false
  /-- R331: the alternative to which it is being shrunk. -/
  shrinkTo : Option Nat := none
  /-- The value DONE reported, or the value it carries because its task was ended. -/
  done : Option (BitVec 32) := none
  cause : Option (BitVec 32) := none
  /-- R404: consecutive restarts under disposition 1, and the RSTRND they found. -/
  restarts : Nat := 0
  lastRst : BitVec 8 := 0
  failed : Bool := false
  /-- Waits for STAGE_RESTART. -/
  restart : Bool := false
  /-- R415: it is taken down and placed again. -/
  moving : Bool := false
  /-- R471: the cycle in which a recovered stage's islands were enabled. -/
  enabledAt : Option Nat := none
  /-- R336: the ready time of a stage on another chip. -/
  ready : Option W64 := none
  refused : Bool := false
  /-- R335: a saved stage on another chip has been placed where it was. -/
  same : Bool := false
  asked : Option Nat := none
  started : Bool := false
  deriving DecidableEq, Repr

/-- R467: a gang channel, kept under the key of its FIFO; `producer` and `consumer` are stages of its task. -/
structure GangChannel where
  task : Nat
  producer : Nat
  consumer : Nat
  frames : List W64 := []
  log : List Token := []
  retired : BitVec 8 := 255
  dlv : BitVec 8 := 255
  rcv : BitVec 8 := 255
  nrcv : Nat := 0
  /-- R470: tokens to discard on arrival: rounds at or before the first, and the next data tokens of the round after it. -/
  skipTo : Option (BitVec 8 × Nat) := none
  settleFrom : Option Nat := none
  /-- R469, R470: a restart waits for its replay (false), or has had it (true). -/
  replay : Option Bool := none
  deriving DecidableEq, Repr

/-- R218, R362: an item of a saved context, sealed under a key handle and its SERIAL, or under the partition's memory key where the handle
is 0, with the SAVECNT of its IV. -/
structure Seal where
  kh : BitVec 16
  serial : Nat := 0
  count : Nat := 0
  deriving DecidableEq, Repr

/-- R333: a saved context. -/
structure Saved where
  cores : Tab Core := []
  islands : Tab Island := []
  regions : Tab Region := []
  seqs : Tab Seq := []
  fifos : Tab (List Token) := []
  transit : Tab (List Token) := []
  bindings : Tab (Option Binding) := []
  ports : Tab Port := []
  chans : Tab (Option GangChannel) := []
  /-- R218, R362: the sealed items of the context. -/
  seals : List Seal := []
  /-- R334: the frames that hold it, each with the number of what its lines were given (`Config.frameLine`). -/
  stamps : List (W64 × Nat) := []
  /-- R475. -/
  unsettled : Bool := false
  /-- SQ_CYCLE at the save. -/
  at_ : Nat := 0
  deriving DecidableEq, Repr

/-- A task: a gang of one or more stages (R322, R323). -/
structure Task where
  queue : Nat
  pos : W64
  record : BitVec 512
  part : BitVec 7
  tenant : Nat
  level : Nat
  asid : BitVec 16
  state : TaskState := .waiting
  stages : List Stage := []
  /-- R325: NSTG of its descriptor, 0 where none in range has been read. -/
  nstg : Nat := 0
  /-- R327: quads. -/
  cost : Nat := 0
  dispatched : Nat := 0
  expired : Bool := false
  saved : Option Saved := none
  frames : List W64 := []
  /-- R288: generations of the 16 barriers, and the stages of other chips that have arrived, with the barrier. -/
  barriers : Tab Nat := []
  arrived : List (Nat × BitVec 4) := []
  startAt : Option W64 := none
  /-- R336: the time at which the stages here were ready. -/
  ready : Option W64 := none
  /-- R335: whether a saved gang across chips resumes in place; none until every member has been placed. -/
  inPlace : Option Bool := none
  /-- R329: tasks that are shrunk or pre-empted for this pending head. -/
  taking : List Nat := []
  /-- R329 plan 3: it is pre-empted once its fold steps have been made. -/
  condemned : Bool := false
  retryAt : Option Nat := none
  /-- R472. -/
  skews : Nat := 0
  /-- R474: the cause under which it ends. -/
  cause : BitVec 32 := 0
  status : Nat := 0
  /-- It waits to be ended (R406). -/
  ending : Bool := false
  /-- It waits to be fully pre-empted (R333), or for the frames its save still needs. -/
  preempt : Bool := false
  /-- R336: for a member of another chip's gang: that chip, its task there, and the number of the stage. -/
  origin : Option (Nat × Nat × Nat) := none
  /-- R473: pod times since which member chips have not been reachable. -/
  unreached : Tab Nat := []
  /-- R466: BR_PFTOP when its save was cancelled. -/
  spared : Option W64 := none
  /-- R330: it was selected from a starved level. -/
  urgent : Bool := false
  /-- R334: the frames that its save needs, once drawn. -/
  need : Option Nat := none
  /-- R475: the pod time since which its channels settle, and whether they did not in time. -/
  settling : Option Nat := none
  unsettled : Bool := false
  /-- R333: member chips that have reported their stages saved. -/
  savedAway : List Nat := []
  /-- R335: its context is back in the machine, and its islands are not enabled yet. -/
  resume : Bool := false
  deriving DecidableEq, Repr

/-- R327: a level of a partition. -/
structure Level where
  cursor : Nat := 0
  arrived : Bool := false
  deficit : Tab Nat := []
  /-- The queue last served of each tenant. -/
  served : Tab Nat := []
  /-- The cycle since which it has held a dispatchable task without a dispatch. -/
  since : Option Nat := none
  starved : Bool := false
  deriving DecidableEq, Repr

/-- A partition: its registers (R334, R361, R368, R464) and its selection. -/
structure Part where
  pfBase : W64 := 0
  pfTop : W64 := 0
  ways : BitVec 15 := 0
  lshr : BitVec 8 := 0
  mshr : BitVec 8 := 0
  /-- R326: pending heads, that of the highest level first. -/
  pending : List Nat := []
  gc : Nat := 0
  levels : Tab Level := []
  /-- BR_SVFLT: the waiting task, its kind, the frames it needs and holds. -/
  wait : Option (Nat × Bool × Nat × Nat) := none
  /-- R465: tasks that wait behind it. -/
  behind : List Nat := []
  /-- BR_RPQ.V. -/
  rpq : Bool := false
  deriving DecidableEq, Repr

/-- An access of Brass to another chip: the work it belongs to, its address under the work's ASID, what it does, its number and answer. -/
structure BrassAsk where
  work : Nat
  va : W64
  op : MemOp
  id : Nat
  answer : Option Answer := none
  /-- R98: the ASID and the target it was translated to. -/
  asid : BitVec 16 := 0
  askAt : Option Target := none
  deriving DecidableEq, Repr

/-- Brass. -/
structure Brass where
  queues : Tab Queue := []
  weights : Tab (BitVec 16) := []
  parts : Tab Part := []
  ltBase : Tab W64 := []
  ltCnt : Tab W64 := []
  tasks : Tab (Option Task) := []
  nextTask : Nat := 0
  chans : Tab (Option GangChannel) := []
  /-- R20, R69: the partition to which cores, memory tiles, stream islands and sequencers are assigned, by package number (log 15). -/
  coreOf : Tab (BitVec 7) := []
  tileOf : Tab (BitVec 7) := []
  siOf : Tab (BitVec 7) := []
  seqOf : Tab (BitVec 7) := []
  /-- R20: a sequencer as a partition left it when it was assigned to another one, at key 128 × sequencer + partition. -/
  seqCtx : Tab (Option Seq) := []
  /-- R151, R287: signals on their way to a sequencer: its number, and the partition that sent them. -/
  signals : List (Nat × BitVec 7) := []
  /-- R338: an L2 mode request stops dispatch; the mode has been set and no restore has begun. -/
  stopped : Bool := false
  l2done : Bool := false
  /-- Accesses of Brass to lines of other chips, until the work that made them ends. -/
  asks : List BrassAsk := []
  deriving DecidableEq, Repr

end Sys2Proof.Machine
end

