-- ==== Sys2Proof/Machine/SecState.lean ====
section
/-! DEFINITION. The state of Cobalt: key handles, memory keys, measurements, mailboxes, boot and fuses (chapters 13 and 17, R481 to
R483), and of the power and temperature controller. -/

namespace Sys2Proof.Machine

/-- R348 Table 6, R362, R363: an installed key record with its counters. -/
structure KeyRec where
  type : Nat
  part : BitVec 7
  asid : BitVec 16
  salt : BitVec 32
  key : BitVec 128
  rbase : W64
  rlen : W64
  rtag : W64
  wbase : W64
  wlen : W64
  wtag : W64
  lastIv : BitVec 32
  klist : BitVec 32
  rdlim : W64
  expire : W64
  rdb : W64 := 0
  wrb : W64 := 0
  fills : W64 := 0
  saves : Nat := 0
  serial : W64 := 0
  /-- R353: the seal it came from. -/
  sealId : Option (BitVec 128) := none
  deriving DecidableEq, Repr

/-- R359: an entry of the key table: the SM4-XTS key and the MAC key. -/
structure MemKey where
  v : Bool := false
  part : BitVec 7 := 0
  /-- Which of the keys drawn for this entry it holds. -/
  gen : Nat := 0
  key : BitVec 256 := 0
  mac : BitVec 256 := 0
  deriving DecidableEq, Repr

/-- R344: a mailbox. Bytes of CB_MBUF by offset. -/
structure Mailbox where
  busy : Bool := false
  done : Bool := false
  buf : Tab Byte := []
  /-- R8: CB_MBUF has been written. -/
  written : Bool := false
  deriving DecidableEq, Repr

/-- R341, R343, R390: what survives a package reset: fuses and boot flash. -/
structure Fuses where
  uds : BitVec 256 := 0
  /-- First and second bits of the 64 pairs. -/
  first : BitVec 64 := 0
  second : BitVec 64 := 0
  /-- R483: bits that do not take programming. -/
  broken : BitVec 128 := 0
  /-- R390: byte `o` of image slot `n` at key 2³² × n + o. -/
  flash : Tab Byte := []
  /-- R444: retired frames kept in flash. -/
  retired : List Nat := []
  deriving DecidableEq, Repr

/-- Cobalt. -/
structure Sec where
  handles : Tab (Option KeyRec) := []
  keys : Tab MemKey := []
  /-- R351, R353: kernel lists by index. -/
  kernels : Tab (List (BitVec 256)) := []
  nextList : Nat := 0
  nextSerial : W64 := 1
  meas : Tab (BitVec 256) := []
  bootLock : Bool := false
  /-- R342: the SVN of the firmware that runs. -/
  svn : Nat := 0
  cerr : Bool := false
  bootId : BitVec 128 := 0
  cdi : BitVec 256 := 0
  devKey : BitVec 256 := 0
  aliasKey : BitVec 256 := 0
  sealKey : BitVec 256 := 0
  /-- R345: CONF of each partition. -/
  conf : Tab Bool := []
  boxes : Tab Mailbox := []
  /-- R344: the function whose message was served last. -/
  lastServed : Nat := 1024
  /-- R365: a teardown in progress: its request, and whether its mailbox still waits for the response (R461). -/
  tearing : Option (Tab Byte × Bool) := none
  fuses : Fuses := {}
  deriving DecidableEq, Repr

/-- R384, R388 to R397: reset cause, boot stage, power, temperature and pod time. -/
structure Mgmt where
  cause : BitVec 8 := 1
  stage : BitVec 8 := 0
  slot : Bool := false
  pwrLim : BitVec 12 := 2200
  duty : BitVec 7 := 64
  watts : BitVec 12 := 0
  temp : BitVec 12 := 0
  hot : Bool := false
  therm : Bool := false
  pwr : Bool := false
  /-- R397: the demands of the power and of the temperature controller. -/
  wantPwr : BitVec 7 := 64
  wantTherm : BitVec 7 := 64
  /-- R388: held in reset until cooled. -/
  held : Bool := false
  d3hot : Bool := false
  /-- Clock periods since reset, skipped ones included (R394). -/
  periods : Nat := 0
  podTime : W64 := 0
  /-- Millionths of 1/6 ns not yet counted in podTime. -/
  podPart : Nat := 0
  /-- R384: rate adjustment in ppm. -/
  ppm : Int := 0
  deriving DecidableEq, Repr

end Sys2Proof.Machine
end

