-- ==== Sys2Proof/Machine/State.lean ====
section
/-! DEFINITION. The state of one package as plain data, and the state right after reset. -/

namespace Sys2Proof.Machine

/-- Why the machine stops. Nothing of the spec stops the package; the one reason is the model's own. -/
inductive Fault where
  /-- Raised by `step` when a turn names a sequencer above 32: the spec has no such agent. Safe: no behaviour of the package is
  left out. -/
  | noSuchAgent
  deriving DecidableEq, Repr

/-- Why an instruction has no meaning. -/
inductive Refusal where
  /-- Raised by an arm of `exec` whose instruction has no meaning yet. Safe: nothing can be concluded from it. -/
  | notModelled (mnemonic : String)
  deriving DecidableEq, Repr

/-- Which agent moves next (log 8). -/
inductive Turn where
  /-- A sequencer executes its next word; `post` leaves a store in flight instead of applying it at once (R221, R307). -/
  | seq (n : Nat) (post : Bool)
  /-- One cycle of the clock: every enabled island that is not held runs its slot (R28). -/
  | cycle
  /-- An event of the package. -/
  | event (i : Instr)
  deriving DecidableEq, Repr

/-- A token on its way to a port at the end of the cycle (R30, R121, R485): to input port 0 to 3 of a core, or to its MN
activation port (4). -/
structure Send where
  core : Nat
  port : Nat
  tok : Token
  /-- The producing row: its order in the cycle and the locator of its fault record (R31). -/
  origin : Nat × FaultRec
  deriving DecidableEq, Repr

/-- What the rows of the cycle in progress have met (R37, R423). Faults and sends are ordered by 2 × core for a VE and 2 × core + 1
for an MN. -/
structure Scratch where
  stalls : List (BitVec 2 × Actor) := []
  faults : List (Nat × FaultRec) := []
  sends : List Send := []
  /-- R52: tokens steered in this cycle: core, selector and converted token. -/
  steers : List (Nat × Nat × Token) := []
  /-- VEs whose X a firing row consumed in this cycle (R224). -/
  tookX : List Nat := []
  /-- R75, R205: claims that wait for a pending fill, with their core and slot; cores whose PTLD waits. -/
  claims : List (Nat × BitVec 5) := []
  ptlds : List Nat := []
  /-- Whether a sequencer's store is left in flight. -/
  post : Bool := false
  /-- R41: islands whose freeze reached their budget in the last cycle with a stall present, and the unit that stalled. -/
  spent : List (Nat × Actor) := []
  /-- R214: cores whose drain token entered X at the end of the last cycle, with the row and iteration of the ADRN. -/
  drained : List (Nat × Nat × BitVec 16) := []
  deriving DecidableEq, Repr

/-- The package. -/
structure State where
  /-- The turns to come; when none is left the default turn is taken (log 8). -/
  turns : List Turn := []
  actor : Actor := .seq 0
  scratch : Scratch := {}
  /-- Counts the free values used (log 2). -/
  free : Nat := 0
  /-- R153 SQ_CYCLE. -/
  cycle : W64 := 0
  seqs : Tab Seq := []
  cores : Tab Core := []
  islands : Tab Island := []
  regions : Tab Region := []
  /-- R40: the retiming FIFO at input port `d` of core `c`, at key 4 × c + d. -/
  fifos : Tab (List Token) := []
  /-- R40, R382: tokens on the stream network towards the FIFO of the same key. -/
  transit : Tab (List Token) := []
  mem : Mem := {}
  streams : Streams := {}
  brass : Brass := {}
  sec : Sec := {}
  host : HostPort := {}
  links : Links := {}
  mgmt : Mgmt := {}
  deriving DecidableEq, Repr

/-- The machine right after reset (R389): every field at its default. -/
def State.reset : State := {}

end Sys2Proof.Machine
end

