-- ==== Sys2Proof/WellFormed.lean ====
section
/-! DEFINITION. Which executor accepts a word (R130 Table 10) and which field values are reserved (R119, R420, R428): steps 2
and 3 of the decode checks of R418. A row's fixed bits are the decoder's business; the field values that a form reserves,
on every executor or on one, are here. -/

namespace Sys2Proof

/-- Why a word is illegal (R418 Table 1): its executor, or a reserved field value. An event is no word at all. -/
inductive IllFormed where
  | executor
  | reserved
  | notAWord
  deriving DecidableEq, Repr

/-- The legality classes of R130 Table 10. -/
inductive Legality where
  | all
  | seqs
  | seqVe
  | ve
  | fabric
  | mn
  | supervisor
  | cobalt
  | event
  deriving DecidableEq, Repr

/-- R130: Cobalt accepts every word legal for S and S*, and the words marked C. -/
def Legality.admits : Legality → Kind → Bool
  | .all, _ => true
  | .seqs, k => k == .seq || k == .cobalt
  | .seqVe, k => k != .mn
  | .ve, k => k == .ve
  | .fabric, k => k == .ve || k == .mn
  | .mn, k => k == .mn
  | .supervisor, k => k == .seq || k == .cobalt
  | .cobalt, k => k == .cobalt
  | .event, _ => false

def onVe (k : Kind) : Bool := k == .ve

/-- R121 Table 4: target codes 11 to 14 are reserved. -/
def veTarget (d : BitVec 4) : Bool := decide (d.toNat < 11) || d == 15

/-- The target and route fields of a format A word: on E a target of Table 4, elsewhere no route (R420). -/
def outA (k : Kind) (d r : BitVec 4) : Bool := if onVe k then veTarget d else r == 0

/-- The target field of a format I or X word on E. -/
def outX (k : Kind) (d : BitVec 4) : Bool := !onVe k || veTarget d

/-- R148: J is reserved on a sequencer, and on E when d names no latch. -/
def jOk (k : Kind) (j : Bool) (d : BitVec 4) : Bool := !j || (onVe k && decide (d.toNat < 8))

/-- R229 Table 2 and R128: an ord the form lists, a scope below 6, and no scope with ord 0. -/
def memOk (ords : List (BitVec 2)) (o : BitVec 2) (s : BitVec 3) : Bool :=
  ords.contains o && decide (s.toNat < 6) && (o != 0 || s == 0)

/-- R229 Table 2: the width codes a form takes on a sequencer and on a VE. -/
def widthOk (k : Kind) (w : BitVec 3) (sLo sHi eLo eHi : Nat) : Bool :=
  if onVe k then decide (eLo ≤ w.toNat) && decide (w.toNat ≤ eHi) else decide (sLo ≤ w.toNat) && decide (w.toNat ≤ sHi)

/-- R222, R241: the d or data field of a VE load, atomic or RECL holds 15. -/
def replyD (k : Kind) (d : BitVec 4) : Bool := !onVe k || d == 15

/-- R128: with ST = 0, SP is reserved. -/
def statusOk (t : Bool) (p : BitVec 3) : Bool := t || p == 0

/-- R173: the number of elements of the size code `z`. -/
def elements (z : BitVec 2) : Nat := 64 / 2 ^ z.toNat

/-- R252: both register ranges end at G15 or before, do not overlap and leave out a. -/
def mcasRegs (a b d : BitVec 4) (w : BitVec 3) : Bool :=
  let n := 2 ^ w.toNat / 8
  decide (b.toNat + n ≤ 16) && decide (d.toNat + n ≤ 16) &&
  (decide (b.toNat + n ≤ d.toNat) || decide (d.toNat + n ≤ b.toNat)) &&
  !(decide (b.toNat ≤ a.toNat) && decide (a.toNat < b.toNat + n)) &&
  !(decide (d.toNat ≤ a.toNat) && decide (a.toNat < d.toNat + n))

/-- The legality class of each form (R130 Table 10). -/
def formLegality : Instr → Legality
  | .nop _ => .all
  | .idle _ => .seqs
  | .b _ _ => .seqs
  | .bi _ _ => .seqs
  | .call _ _ => .seqs
  | .calli _ _ => .seqs
  | .ret _ => .seqs
  | .loop _ _ => .seqs
  | .waitt _ => .seqs
  | .csrr _ _ => .seqs
  | .csrw _ _ _ => .seqs
  | .csrs _ _ _ => .seqs
  | .csrc _ _ _ => .seqs
  | .fence _ _ => .seqVe
  | .rstpt _ _ => .seqs
  | .trap _ _ => .seqs
  | .tack _ => .seqs
  | .tret _ => .seqs
  | .svc _ _ => .seqs
  | .scanr _ _ _ => .seqs
  | .add _ _ _ _ _ _ _ => .seqVe
  | .sub _ _ _ _ _ _ => .seqVe
  | .mul _ _ _ _ _ _ => .seqVe
  | .mulh _ _ _ _ _ _ => .seqVe
  | .mulhu _ _ _ _ _ _ => .seqVe
  | .div _ _ _ _ _ _ => .seqs
  | .rem _ _ _ _ _ _ => .seqs
  | .and _ _ _ _ _ _ _ => .seqVe
  | .or _ _ _ _ _ _ _ => .seqVe
  | .xor _ _ _ _ _ _ _ => .seqVe
  | .andn _ _ _ _ _ _ => .seqVe
  | .shl _ _ _ _ _ _ => .seqVe
  | .shr _ _ _ _ _ _ => .seqVe
  | .sra _ _ _ _ _ _ => .seqVe
  | .rot _ _ _ _ _ _ => .seqVe
  | .min _ _ _ _ _ _ _ => .seqVe
  | .max _ _ _ _ _ _ _ => .seqVe
  | .minu _ _ _ _ _ _ _ => .seqVe
  | .maxu _ _ _ _ _ _ _ => .seqVe
  | .abs _ _ _ _ _ => .seqVe
  | .neg _ _ _ _ _ => .seqVe
  | .adds _ _ _ _ _ _ _ => .seqVe
  | .subs _ _ _ _ _ _ _ => .seqVe
  | .clz _ _ _ _ _ => .seqVe
  | .popc _ _ _ _ _ => .seqVe
  | .sel _ _ _ _ _ _ => .seqVe
  | .addi _ _ _ => .seqVe
  | .andi _ _ _ => .seqVe
  | .ori _ _ _ => .seqVe
  | .movi _ _ => .seqVe
  | .movhi _ _ _ => .seqVe
  | .lea _ _ _ _ _ => .seqVe
  | .cmp _ _ _ _ _ _ => .seqVe
  | .fcmp _ _ _ _ _ _ => .ve
  | .plog _ _ _ _ _ => .all
  | .prd _ _ => .seqs
  | .pwr _ _ _ => .seqs
  | .itset _ _ => .fabric
  | .itnxt _ _ _ => .fabric
  | .rndget _ _ _ => .ve
  | .rndset _ _ => .ve
  | .mkemit _ _ _ _ => .ve
  | .mktst _ _ _ _ => .ve
  | .tagset _ _ _ _ _ => .ve
  | .tagchk _ _ _ _ => .ve
  | .tagget _ _ _ _ => .ve
  | .fadd _ _ _ _ _ _ _ _ => .ve
  | .fsub _ _ _ _ _ _ _ => .ve
  | .fmul _ _ _ _ _ _ _ => .ve
  | .fma _ _ _ _ _ _ _ _ => .ve
  | .fms _ _ _ _ _ _ _ => .ve
  | .fnma _ _ _ _ _ _ _ => .ve
  | .fmin _ _ _ _ _ _ _ => .ve
  | .fmax _ _ _ _ _ _ _ => .ve
  | .fabs _ _ _ _ _ => .ve
  | .fneg _ _ _ _ _ => .ve
  | .fclamp _ _ _ _ _ _ => .ve
  | .fsel _ _ _ _ _ _ _ => .ve
  | .frsum _ _ _ _ _ _ => .ve
  | .frmax _ _ _ _ _ => .ve
  | .frmin _ _ _ _ _ => .ve
  | .frsqs _ _ _ _ _ _ => .ve
  | .vperm _ _ _ _ => .ve
  | .vbcast _ _ _ _ => .ve
  | .vslide _ _ _ _ _ => .ve
  | .exp2 _ _ _ _ _ => .ve
  | .log2 _ _ _ _ _ => .ve
  | .rcp _ _ _ _ _ => .ve
  | .rsqrt _ _ _ _ _ => .ve
  | .tanh _ _ _ _ _ => .ve
  | .fsqrt _ _ _ _ _ _ => .ve
  | .fscale _ _ _ _ _ _ _ => .ve
  | .frint _ _ _ _ _ _ => .ve
  | .fcpys _ _ _ _ _ _ => .ve
  | .cvt _ _ _ _ _ _ _ _ => .ve
  | .cvti _ _ _ _ _ _ _ => .ve
  | .qnt _ _ _ _ _ _ _ _ _ => .ve
  | .dqnt _ _ _ _ _ _ _ _ => .ve
  | .qntr _ _ _ _ _ _ _ _ _ => .ve
  | .absmx _ _ _ _ _ _ => .ve
  | .pk4 _ _ _ _ _ _ => .ve
  | .upk4 _ _ _ _ _ => .ve
  | .wclm _ _ => .mn
  | .wrel _ _ => .mn
  | .wstatMn _ _ _ => .mn
  | .wstatSeq _ _ _ _ => .seqs
  | .pxd _ _ _ _ => .mn
  | .mma _ _ _ _ _ _ _ _ _ => .mn
  | .ldrs _ _ _ => .mn
  | .ldcs _ _ _ => .mn
  | .prom _ _ => .mn
  | .adrn _ _ _ _ _ _ _ => .mn
  | .azer _ _ => .mn
  | .arel _ _ => .mn
  | .ptld _ _ _ _ => .mn
  | .ld _ _ _ _ _ _ => .seqVe
  | .st _ _ _ _ _ _ => .seqVe
  | .pref _ _ => .seqVe
  | .ldl _ _ _ _ _ _ => .seqVe
  | .ldv _ _ _ _ _ _ _ _ => .seqVe
  | .stv _ _ _ _ _ _ _ _ => .seqVe
  | .lde _ _ _ _ _ _ => .ve
  | .vrd _ _ _ _ => .seqVe
  | .recl _ _ _ => .seqVe
  | .gath _ _ _ _ _ _ => .seqVe
  | .scat _ _ _ _ _ _ => .seqVe
  | .cpyl _ _ _ _ _ => .seqVe
  | .zrol _ _ _ => .seqVe
  | .otjn _ _ _ _ _ _ _ => .ve
  | .aadd _ _ _ _ _ _ _ _ => .seqVe
  | .aand _ _ _ _ _ _ _ _ => .seqVe
  | .aor _ _ _ _ _ _ _ _ => .seqVe
  | .axor _ _ _ _ _ _ _ _ => .seqVe
  | .aswp _ _ _ _ _ _ _ _ => .seqVe
  | .acas _ _ _ _ _ _ _ _ => .seqVe
  | .ammax _ _ _ _ _ _ _ _ => .seqVe
  | .afadd _ _ _ _ _ _ _ => .seqVe
  | .mcas _ _ _ _ _ _ _ _ => .seqs
  | .enq _ _ _ _ _ _ _ => .seqs
  | .chase _ _ _ _ _ _ _ => .seqs
  | .abar _ _ _ _ _ _ _ _ => .seqVe
  | .patw _ _ => .seqs
  | .patr _ _ => .seqs
  | .layw _ _ => .seqs
  | .sgo _ _ _ _ _ _ _ => .seqs
  | .scnl _ => .seqs
  | .spos _ _ _ => .seqs
  | .coll _ _ => .seqs
  | .rcpy _ _ _ _ _ _ => .seqs
  | .gopen _ => .seqs
  | .gst _ _ _ _ _ _ _ _ => .seqVe
  | .gcmt _ _ => .seqs
  | .gabrt _ => .seqs
  | .gstat _ _ => .seqs
  | .lnch _ _ _ _ _ => .seqs
  | .sig _ => .seqs
  | .gbar _ => .seqs
  | .drain _ => .seqs
  | .done _ => .seqs
  | .cfgld _ _ _ => .supervisor
  | .bswap _ _ => .supervisor
  | .fold _ => .supervisor
  | .rqsc _ _ _ => .supervisor
  | .asids _ => .supervisor
  | .xinv _ _ _ => .supervisor
  | .l2md _ _ => .supervisor
  | .scrb _ _ _ => .supervisor
  | .khnd _ _ => .cobalt
  | .kdel _ => .cobalt
  | .mext _ _ => .cobalt
  | .ksign _ _ _ => .cobalt
  | .tokenArrival _ _ => .event
  | .fifoTokenArrival _ _ => .event
  | .replyArrival _ => .event
  | .conversionReturn _ _ => .event
  | .cnvReturn _ => .event
  | .drainDelivery _ => .event
  | .timingTrap _ => .event
  | .bankSwapEffect _ => .event
  | .rqscStop _ => .event
  | .drainHold _ => .event
  | .beginDecode _ => .event
  | .decodeEnd _ => .event
  | .ptldComplete _ => .event
  | .slotFill _ => .event
  | .pendingFillStart _ _ => .event
  | .fillComplete _ _ => .event
  | .homeAccess _ => .event
  | .chainApply _ => .event
  | .waitingLoadAnswer _ => .event
  | .barrierWaitAnswer _ => .event
  | .translationWalk _ _ _ => .event
  | .parkedStoreRetry _ => .event
  | .parkedStoreAgeExpiry _ => .event
  | .correctableError => .event
  | .uncorrectableError _ => .event
  | .bindingStart _ => .event
  | .bindingComplete _ => .event
  | .streamRoundHoldRelease _ => .event
  | .collectiveComplete _ => .event
  | .groupStoreStaging _ => .event
  | .gstAck _ => .event
  | .decisionRecordWrite _ => .event
  | .commitPacket _ => .event
  | .abortPacket _ => .event
  | .groupLifetimeExpiry _ _ => .event
  | .holdTimeoutResolve _ _ => .event
  | .groupResolveQuery _ _ => .event
  | .chipLost _ => .event
  | .eventFlagSet _ => .event
  | .gangBarrierRelease _ _ => .event
  | .sequencerCodeLoad _ => .event
  | .faultDelivery _ => .event
  | .contextFault _ => .event
  | .tailUpdate _ => .event
  | .queueRecordRead _ => .event
  | .dependenceCheck _ => .event
  | .taskSelect _ => .event
  | .levelStarved _ _ => .event
  | .sliceExpiry _ => .event
  | .placement _ => .event
  | .stageStart _ _ => .event
  | .fullPreemption _ => .event
  | .saveResume _ => .event
  | .restore _ => .event
  | .stageRestart _ _ => .event
  | .failedCoreRecovery _ _ => .event
  | .taskCompletion _ => .event
  | .taskEnd _ => .event
  | .memberRequest _ _ _ _ _ _ => .event
  | .gangStartTime _ => .event
  | .gangSkewExpiry _ => .event
  | .memberRequestTimeout _ => .event
  | .gangRetry _ => .event
  | .remoteLaunch _ _ _ _ _ => .event
  | .memberUnreachable _ _ => .event
  | .gangChannelReplay _ => .event
  | .settleTimeout _ => .event
  | .brQtailWrite _ _ => .event
  | .queueEnable _ _ => .event
  | .brL2reqWrite _ => .event
  | .hpDtailWrite _ _ _ => .event
  | .dmaBlock _ _ _ _ _ _ => .event
  | .dmaRingDisable _ _ => .event
  | .functionLevelReset _ => .event
  | .vfEnableClear => .event
  | .quiesceEnd _ => .event
  | .hostReadTimeout _ _ => .event
  | .unexpectedCompletion _ => .event
  | .mailboxGo _ => .event
  | .attestation _ => .event
  | .sealInstall _ => .event
  | .sessionOpen _ => .event
  | .usageReport _ => .event
  | .teardown _ => .event
  | .partitionKeys _ => .event
  | .certificateChain _ => .event
  | .handleDelete _ => .event
  | .measureExtend _ => .event
  | .recoveryImageWrite => .event
  | .cobaltError => .event
  | .brErrpopWrite _ => .event
  | .saveEnd _ => .event
  | .saveCancel _ => .event
  | .portRotateRequest _ => .event
  | .portEnable _ _ _ => .event
  | .d3hotWrite _ => .event
  | .cbPwrlimWrite _ => .event
  | .registerWrite _ _ => .event
  | .flitGroupReceive _ _ _ _ => .event
  | .nakResend _ _ => .event
  | .ackReceive _ _ => .event
  | .keyUpdate _ => .event
  | .epochGroupLimit _ => .event
  | .portDown _ => .event
  | .portUp _ => .event
  | .packetReceive _ => .event
  | .packetWaitExpiry _ _ => .event
  | .requestTimeout _ => .event
  | .spdmRetry _ _ _ => .event
  | .podTimeSync _ => .event
  | .powerOnReset => .event
  | .perst => .event
  | .sidebandReset => .event
  | .watchdogReset => .event
  | .thermalTrip => .event
  | .thermalThrottle _ => .event
  | .powerDutyAdjust _ _ => .event
  | .romBoot => .event
  | .firmwareBoot => .event
  | .illegalWordDecode _ => .event
  | .groupDestinationAck _ _ => .event
  | .hostReadCompletion _ _ => .event
  | .thermalTripCooled => .event
  | .decodeSpanDelivered _ _ => .event
  | .recoverySkewExpiry _ _ => .event

/-- No field holds a value that the form reserves for this executor (R420 Table 2 and the tables of R428). -/
def formFieldsOk (k : Kind) : Instr → Bool
  | .nop _ => true
  | .idle _ => true
  | .b _ _ => true
  | .bi _ _ => true
  | .call _ _ => true
  | .calli _ _ => true
  | .ret _ => true
  | .loop _ _ => true
  | .waitt _ => true
  | .csrr _ _ => true
  | .csrw _ _ _ => true
  | .csrs _ _ _ => true
  | .csrc _ _ _ => true
  | .fence o s => o != 0 && decide (s < 6)
  | .rstpt _ _ => true
  | .trap _ _ => true
  | .tack _ => true
  | .tret _ => true
  | .svc _ _ => true
  | .scanr _ _ _ => true
  | .add _ _ d r _ j _ => outA k d r && jOk k j d
  | .sub _ _ d r _ _ => outA k d r
  | .mul _ _ d r _ _ => outA k d r
  | .mulh _ _ d r _ _ => outA k d r
  | .mulhu _ _ d r _ _ => outA k d r
  | .div _ _ _ _ _ _ => true
  | .rem _ _ _ _ _ _ => true
  | .and _ _ d r _ j _ => outA k d r && jOk k j d
  | .or _ _ d r _ j _ => outA k d r && jOk k j d
  | .xor _ _ d r _ j _ => outA k d r && jOk k j d
  | .andn _ _ d r _ _ => outA k d r
  | .shl _ _ d r _ _ => outA k d r
  | .shr _ _ d r _ _ => outA k d r
  | .sra _ _ d r _ _ => outA k d r
  | .rot _ _ d r _ _ => outA k d r
  | .min _ _ d r _ j _ => outA k d r && jOk k j d
  | .max _ _ d r _ j _ => outA k d r && jOk k j d
  | .minu _ _ d r _ j _ => outA k d r && jOk k j d
  | .maxu _ _ d r _ j _ => outA k d r && jOk k j d
  | .abs _ d r _ _ => outA k d r
  | .neg _ d r _ _ => outA k d r
  | .adds _ _ d r _ _ _ => outA k d r
  | .subs _ _ d r _ _ _ => outA k d r
  | .clz _ d r _ _ => outA k d r
  | .popc _ d r _ _ => outA k d r
  | .sel _ _ d r _ _ => outA k d r
  | .addi _ d _ => outX k d
  | .andi _ d _ => outX k d
  | .ori _ d _ => outX k d
  | .movi d _ => outX k d
  | .movhi _ d _ => outX k d
  | .lea _ _ d k_ _ => outX k d && k_ != 7
  | .cmp _ _ _ _ _ _ => true
  | .fcmp _ _ _ _ _ _ => true
  | .plog _ _ _ _ _ => true
  | .prd _ _ => true
  | .pwr _ _ _ => true
  | .itset _ _ => true
  | .itnxt _ _ _ => true
  | .rndget d r _ => outA k d r
  | .rndset _ _ => true
  | .mkemit d r _ k_ => outA k d r && decide (k_ < 2) && d != 9 && d != 10
  | .mktst _ _ _ k_ => decide (k_ < 3)
  | .tagset _ d r _ t => outA k d r && t != 7
  | .tagchk _ _ _ _ => true
  | .tagget _ d r _ => outA k d r
  | .fadd _ _ d r _ j _ _ => outA k d r && jOk k j d
  | .fsub _ _ d r _ _ _ => outA k d r
  | .fmul _ _ d r _ _ _ => outA k d r
  | .fma _ _ d r _ j _ _ => outA k d r && jOk k j d
  | .fms _ _ d r _ _ _ => outA k d r
  | .fnma _ _ d r _ _ _ => outA k d r
  | .fmin _ _ d r _ j _ => outA k d r && jOk k j d
  | .fmax _ _ d r _ j _ => outA k d r && jOk k j d
  | .fabs _ d r _ _ => outA k d r
  | .fneg _ d r _ _ => outA k d r
  | .fclamp _ _ d r _ _ => outA k d r
  | .fsel _ _ d r _ _ _ => outA k d r
  | .frsum _ d r _ _ _ => outA k d r
  | .frmax _ d r _ _ => outA k d r
  | .frmin _ d r _ _ => outA k d r
  | .frsqs _ d r _ _ _ => outA k d r
  | .vperm _ _ d z => outX k d && z != 3
  | .vbcast _ d z x => outX k d && z != 3 && decide (x.toNat < elements z)
  | .vslide _ _ d z k_ => outX k d && z != 3 && decide (k_.toNat ≤ elements z)
  | .exp2 _ d r _ _ => outA k d r
  | .log2 _ d r _ _ => outA k d r
  | .rcp _ d r _ _ => outA k d r
  | .rsqrt _ d r _ _ => outA k d r
  | .tanh _ d r _ _ => outA k d r
  | .fsqrt _ d r _ _ _ => outA k d r
  | .fscale _ _ d r _ _ _ => outA k d r
  | .frint _ d r _ _ _ => outA k d r
  | .fcpys _ _ d r _ _ => outA k d r
  | .cvt _ b d r _ _ _ _ => outA k d r && (b != (7 : BitVec 3))
  | .cvti _ _ d r _ _ _ => outA k d r
  | .qnt _ _ d _ _ _ _ _ _ => outX k d
  | .dqnt _ _ d _ _ _ _ _ => outX k d
  | .qntr _ _ d _ _ _ _ _ _ => outX k d
  | .absmx _ _ d r _ s => outA k d r && decide (s < 2)
  | .pk4 _ _ d r _ _ => outA k d r
  | .upk4 _ d r _ _ => outA k d r
  | .wclm _ _ => true
  | .wrel _ _ => true
  | .wstatMn _ _ _ => true
  | .wstatSeq _ _ _ _ => true
  | .pxd _ _ _ _ => true
  | .mma a _ y _ h r _ _ _ => (a == 8 || a == 14) && y != 7 && (!h || y == 3) && !(r && y == 6)
  | .ldrs q k_ _ => !k_ || q == 0
  | .ldcs q k_ _ => !k_ || q == 0
  | .prom _ _ => true
  | .adrn _ q f _ _ _ _ => !f || decide (q < 2)
  | .azer _ _ => true
  | .arel _ _ => true
  | .ptld _ _ _ _ => true
  | .ld _ d o s w _ => memOk [0, 1] o s && widthOk k w 0 3 0 6 && replyD k d
  | .st _ _ o s w _ => memOk [0, 2] o s && widthOk k w 0 3 0 6
  | .pref _ _ => true
  | .ldl _ d o s w _ => memOk [0, 1] o s && widthOk k w 3 3 3 6 && replyD k d
  | .ldv _ _ d o s w t p => memOk [0, 1] o s && widthOk k w 0 3 0 6 && replyD k d && statusOk t p
  | .stv _ _ _ o s w t p => memOk [0, 2] o s && widthOk k w 0 3 0 6 && statusOk t p
  | .lde _ _ d o s w => memOk [0, 1] o s && widthOk k w 0 3 0 6 && replyD k d
  | .vrd _ d o s => memOk [0, 1] o s && replyD k d
  | .recl _ _ d => replyD k d
  | .gath _ _ d o s w => memOk [0, 1] o s && widthOk k w 0 3 0 3 && replyD k d
  | .scat _ _ _ o s w => memOk [0, 2] o s && widthOk k w 0 3 0 3
  | .cpyl _ _ d o s => memOk [0, 1, 2, 3] o s && (if onVe k then d == 15 else d == 0)
  | .zrol _ o s => memOk [0, 2] o s
  | .otjn _ _ d r _ w s => outA k d r && decide (s < 6) && (w || s == 0)
  | .aadd _ _ d o s w t p => memOk [0, 1, 2, 3] o s && widthOk k w 2 3 2 3 && replyD k d && statusOk t p
  | .aand _ _ d o s w t p => memOk [0, 1, 2, 3] o s && widthOk k w 2 3 2 3 && replyD k d && statusOk t p
  | .aor _ _ d o s w t p => memOk [0, 1, 2, 3] o s && widthOk k w 2 3 2 3 && replyD k d && statusOk t p
  | .axor _ _ d o s w t p => memOk [0, 1, 2, 3] o s && widthOk k w 2 3 2 3 && replyD k d && statusOk t p
  | .aswp _ _ d o s w t p => memOk [0, 1, 2, 3] o s && widthOk k w 2 3 2 3 && replyD k d && statusOk t p
  | .acas _ _ _ o s w t p => memOk [0, 1, 2, 3] o s && widthOk k w 2 3 2 3 && statusOk t p
  | .ammax _ _ d o s w t p => memOk [0, 1, 2, 3] o s && widthOk k w 2 3 2 3 && replyD k d && statusOk t p
  | .afadd _ _ d o s t p => memOk [0, 1, 2, 3] o s && replyD k d && statusOk t p
  | .mcas a b d o s w t p => memOk [0, 1, 2, 3] o s && widthOk k w 3 5 3 5 && statusOk t p && mcasRegs a b d w
  | .enq _ _ _ o s t p => memOk [0, 1, 2, 3] o s && statusOk t p
  | .chase _ _ _ o s t p => memOk [0, 1] o s && statusOk t p
  | .abar _ _ d o s x t p => memOk [0, 1, 2, 3] o s && decide (x < 3) && replyD k d && statusOk t p
  | .patw _ _ => true
  | .patr _ _ => true
  | .layw _ _ => true
  | .sgo _ _ _ _ _ _ _ => true
  | .scnl _ => true
  | .spos _ s _ => s != 3
  | .coll _ _ => true
  | .rcpy _ _ _ o s _ => memOk [0, 1, 2, 3] o s
  | .gopen _ => true
  | .gst _ _ _ o s w t p => memOk [0, 2] o s && widthOk k w 0 3 0 6 && statusOk t p
  | .gcmt _ _ => true
  | .gabrt _ => true
  | .gstat _ _ => true
  | .lnch _ _ _ t p => statusOk t p
  | .sig _ => true
  | .gbar _ => true
  | .drain _ => true
  | .done _ => true
  | .cfgld _ _ _ => true
  | .bswap _ _ => true
  | .fold _ => true
  | .rqsc _ _ _ => true
  | .asids _ => true
  | .xinv _ _ s => s != 3
  | .l2md _ _ => true
  | .scrb _ _ _ => true
  | .khnd _ _ => true
  | .kdel _ => true
  | .mext _ _ => true
  | .ksign _ _ _ => true
  | .tokenArrival _ _ => true
  | .fifoTokenArrival _ _ => true
  | .replyArrival _ => true
  | .conversionReturn _ _ => true
  | .cnvReturn _ => true
  | .drainDelivery _ => true
  | .timingTrap _ => true
  | .bankSwapEffect _ => true
  | .rqscStop _ => true
  | .drainHold _ => true
  | .beginDecode _ => true
  | .decodeEnd _ => true
  | .ptldComplete _ => true
  | .slotFill _ => true
  | .pendingFillStart _ _ => true
  | .fillComplete _ _ => true
  | .homeAccess _ => true
  | .chainApply _ => true
  | .waitingLoadAnswer _ => true
  | .barrierWaitAnswer _ => true
  | .translationWalk _ _ _ => true
  | .parkedStoreRetry _ => true
  | .parkedStoreAgeExpiry _ => true
  | .correctableError => true
  | .uncorrectableError _ => true
  | .bindingStart _ => true
  | .bindingComplete _ => true
  | .streamRoundHoldRelease _ => true
  | .collectiveComplete _ => true
  | .groupStoreStaging _ => true
  | .gstAck _ => true
  | .decisionRecordWrite _ => true
  | .commitPacket _ => true
  | .abortPacket _ => true
  | .groupLifetimeExpiry _ _ => true
  | .holdTimeoutResolve _ _ => true
  | .groupResolveQuery _ _ => true
  | .chipLost _ => true
  | .eventFlagSet _ => true
  | .gangBarrierRelease _ _ => true
  | .sequencerCodeLoad _ => true
  | .faultDelivery _ => true
  | .contextFault _ => true
  | .tailUpdate _ => true
  | .queueRecordRead _ => true
  | .dependenceCheck _ => true
  | .taskSelect _ => true
  | .levelStarved _ _ => true
  | .sliceExpiry _ => true
  | .placement _ => true
  | .stageStart _ _ => true
  | .fullPreemption _ => true
  | .saveResume _ => true
  | .restore _ => true
  | .stageRestart _ _ => true
  | .failedCoreRecovery _ _ => true
  | .taskCompletion _ => true
  | .taskEnd _ => true
  | .memberRequest _ _ _ _ _ _ => true
  | .gangStartTime _ => true
  | .gangSkewExpiry _ => true
  | .memberRequestTimeout _ => true
  | .gangRetry _ => true
  | .remoteLaunch _ _ _ _ _ => true
  | .memberUnreachable _ _ => true
  | .gangChannelReplay _ => true
  | .settleTimeout _ => true
  | .brQtailWrite _ _ => true
  | .queueEnable _ _ => true
  | .brL2reqWrite _ => true
  | .hpDtailWrite _ _ _ => true
  | .dmaBlock _ _ _ _ _ _ => true
  | .dmaRingDisable _ _ => true
  | .functionLevelReset _ => true
  | .vfEnableClear => true
  | .quiesceEnd _ => true
  | .hostReadTimeout _ _ => true
  | .unexpectedCompletion _ => true
  | .mailboxGo _ => true
  | .attestation _ => true
  | .sealInstall _ => true
  | .sessionOpen _ => true
  | .usageReport _ => true
  | .teardown _ => true
  | .partitionKeys _ => true
  | .certificateChain _ => true
  | .handleDelete _ => true
  | .measureExtend _ => true
  | .recoveryImageWrite => true
  | .cobaltError => true
  | .brErrpopWrite _ => true
  | .saveEnd _ => true
  | .saveCancel _ => true
  | .portRotateRequest _ => true
  | .portEnable _ _ _ => true
  | .d3hotWrite _ => true
  | .cbPwrlimWrite _ => true
  | .registerWrite _ _ => true
  | .flitGroupReceive _ _ _ _ => true
  | .nakResend _ _ => true
  | .ackReceive _ _ => true
  | .keyUpdate _ => true
  | .epochGroupLimit _ => true
  | .portDown _ => true
  | .portUp _ => true
  | .packetReceive _ => true
  | .packetWaitExpiry _ _ => true
  | .requestTimeout _ => true
  | .spdmRetry _ _ _ => true
  | .podTimeSync _ => true
  | .powerOnReset => true
  | .perst => true
  | .sidebandReset => true
  | .watchdogReset => true
  | .thermalTrip => true
  | .thermalThrottle _ => true
  | .powerDutyAdjust _ _ => true
  | .romBoot => true
  | .firmwareBoot => true
  | .illegalWordDecode _ => true
  | .groupDestinationAck _ _ => true
  | .hostReadCompletion _ _ => true
  | .thermalTripCooled => true
  | .decodeSpanDelivered _ _ => true
  | .recoverySkewExpiry _ _ => true

/-- The decode checks of R418, steps 2 and 3, in that order. -/
def Instr.check (k : Kind) (i : Instr) : Option IllFormed :=
  if (formLegality i) == .event then some .notAWord
  else if !(formLegality i).admits k then some .executor
  else if !formFieldsOk k i then some .reserved
  else none

/-- A word that this executor may execute. -/
def Instr.wf (k : Kind) (i : Instr) : Bool := (i.check k).isNone

end Sys2Proof
end

