-- ==== Sys2Proof/Machine/Ops.lean ====
section
/-! DEFINITION. The named operations on the state: registers, places of cores and islands, traps, faults at a row, and the frame that
every word runs in. -/

namespace Sys2Proof.Machine

/-! ### Tables of the state -/

def State.seq (s : State) (n : Nat) : Seq := look {} s.seqs n

def State.setSeq (s : State) (n : Nat) (q : Seq) : State := { s with seqs := put {} s.seqs n q }

def State.core (s : State) (c : Nat) : Core := look {} s.cores c

def State.setCore (s : State) (c : Nat) (k : Core) : State := { s with cores := put {} s.cores c k }

def State.ve (s : State) (c : Nat) : Ve := (s.core c).ve

def State.setVe (s : State) (c : Nat) (v : Ve) : State := s.setCore c { s.core c with ve := v }

def State.mn (s : State) (c : Nat) : Mn := (s.core c).mn

def State.setMn (s : State) (c : Nat) (m : Mn) : State := s.setCore c { s.core c with mn := m }

def State.island (s : State) (k : Nat) : Island := look {} s.islands k

def State.setIsland (s : State) (k : Nat) (i : Island) : State := { s with islands := put {} s.islands k i }

def State.region (s : State) (k : Nat) : Region := look {} s.regions k

def State.setRegion (s : State) (k : Nat) (r : Region) : State := { s with regions := put {} s.regions k r }

def State.fifo (s : State) (k : Nat) : List Token := look [] s.fifos k

def State.setFifo (s : State) (k : Nat) (l : List Token) : State := { s with fifos := put [] s.fifos k l }

def State.port (s : State) (k : Nat) : Port := look {} s.streams.ports k

def State.setPort (s : State) (k : Nat) (p : Port) : State :=
  { s with streams := { s.streams with ports := put {} s.streams.ports k p } }

def State.binding (s : State) (b : Nat) : Option Binding := look none s.streams.bindings b

def State.setBinding (s : State) (b : Nat) (x : Option Binding) : State :=
  { s with streams := { s.streams with bindings := put none s.streams.bindings b x } }

/-- SQ_CYCLE as a number. -/
def State.now (s : State) : Nat := s.cycle.toNat

/-! ### Registers of a sequencer (R62) -/

/-- G0 reads as zero. -/
def Seq.get (q : Seq) (k : BitVec 4) : W64 := if k = 0 then 0 else look 0 q.g k.toNat

/-- Writes to G0 are discarded. -/
def Seq.set (q : Seq) (k : BitVec 4) (v : W64) : Seq := if k = 0 then q else { q with g := put 0 q.g k.toNat v }

/-- R62, R124: P7 reads as true. -/
def predGet (p : BitVec 8) (k : BitVec 3) : Bool := k == 7 || p.getLsbD k.toNat

/-- R62, R124: a write to P7 is discarded. -/
def predSet (p : BitVec 8) (k : BitVec 3) (v : Bool) : BitVec 8 :=
  if k = 7 then p else if v then p ||| (1#8 <<< k.toNat) else p &&& ~~~(1#8 <<< k.toNat)

/-- Moves past the word at pc. -/
def Seq.step (q : Seq) : Seq := { q with pc := q.pc + 4, begun := false }

/-- Replaces a sequencer's registers and moves it past the word. -/
def State.seqNext (s : State) (n : Nat) (q : Seq) : State := s.setSeq n q.step

/-- R159: marks the instruction at pc as begun. -/
def State.begin (s : State) (n : Nat) : State := s.setSeq n { s.seq n with begun := true }

/-! ### Traps (R155) -/

/-- R155: exchanges G15 and SQ_SSP. -/
def Seq.swapSp (q : Seq) : Seq := { q.set 15 q.ssp with ssp := q.get 15 }

/-- A TCAUSE register: the level before the trap in bit 63, the cause in bits 15 to 0 (R153 Table 4). -/
def causeWord (super : Bool) (cause : BitVec 16) : W64 := BitVec.ofBool super ++ (0#47 ++ cause)

/-- R155 `trap_entry`. A second trap before the acknowledgement halts the sequencer with both records kept (R154); the context
fault that this sends to Brass is CONTEXT_FAULT. -/
def Seq.trapEntry (q : Seq) (cause : BitVec 16) (pc val info : W64) (mask : BitVec 8 := 0) : Seq :=
  if q.unack then
    { q with tcause1 := causeWord q.super cause, tpc1 := pc, tval1 := val, tinfo1 := info, tmask1 := mask, r1v := true, run := .halted,
             begun := false }
  else
    let q' := { q with tcause0 := causeWord q.super cause, tpc0 := pc, tval0 := val, tinfo0 := info, tmask0 := mask, unack := true, begun := false,
                       record0Isl := none, lostIsls := q.lostIsls ++ q.record0Isl.toList }
    let q' := if q.super then q' else q'.swapSp
    { q' with super := true, pc := q.tvec }

/-- R155 TRET: back to the recorded pc and level. -/
def Seq.trapReturn (q : Seq) : Seq :=
  let toSuper := q.tcause0.getLsbD 63
  let q' := { q with pc := q.tpc0, unack := false, record0Isl := none }
  let q' := if toSuper then q' else q'.swapSp
  { q' with super := toSuper }

/-- R399, R401: a class 1 fault of the word at pc: precise, so nothing else of the word takes effect. -/
def State.seqFault (s : State) (n : Nat) (kind : BitVec 8) (val : W64) (info : W64 := 0) (mask : BitVec 8 := 0) : State :=
  let q := s.seq n
  s.setSeq n (q.trapEntry (1#8 ++ kind) q.pc val info mask)

/-! ### Places (R12 to R15, R33) -/

def clusterOf (core : Nat) : Nat := core / 96

def rowOf (core : Nat) : Nat := core % 96 / 12

def colOf (core : Nat) : Nat := core % 12

def coreAt (cluster row col : Nat) : Nat := 96 * cluster + 12 * row + col

/-- R35 Table 3: fields of an island descriptor. -/
def descII (d : BitVec 64) : Nat := (d.extractLsb' 0 5).toNat + 1

def descBudget (d : BitVec 64) : Nat := 2 ^ ((d.extractLsb' 8 4).toNat + 6)

def descConv (d : BitVec 64) : Nat := (d.extractLsb' 12 7).toNat

def descRow (d : BitVec 64) : Nat := (d.extractLsb' 20 3).toNat

def descCol (d : BitVec 64) : Nat := (d.extractLsb' 23 4).toNat

def descRows (d : BitVec 64) : Nat := (d.extractLsb' 27 3).toNat + 1

def descCols (d : BitVec 64) : Nat := (d.extractLsb' 30 4).toNat + 1

/-- Whether a rectangle at (row, col) of a cluster holds a core. -/
def inRect (cluster row col rows cols core : Nat) : Bool :=
  clusterOf core == cluster && decide (row ≤ rowOf core) && decide (rowOf core < row + rows) &&
  decide (col ≤ colOf core) && decide (colOf core < col + cols)

/-- The cores of a rectangle, in ascending core index. -/
def rectCores (cluster row col rows cols : Nat) : List Nat :=
  (List.range rows).flatMap fun y => (List.range cols).map fun x => coreAt cluster (row + y) (col + x)

/-- Islands are kept under 96 × cluster + the core index of their north-west corner. -/
def covers (k : Nat) (i : Island) (core : Nat) : Bool :=
  i.desc != 0 && inRect (clusterOf k) (rowOf k) (colOf k) (descRows i.desc) (descCols i.desc) core

def islandCores (k : Nat) (i : Island) : List Nat :=
  rectCores (clusterOf k) (rowOf k) (colOf k) (descRows i.desc) (descCols i.desc)

/-- The island that holds a core. -/
def State.islandOf (s : State) (core : Nat) : Option Nat :=
  (s.islands.find? fun e => covers e.1 e.2 core).map (·.1)

/-- Regions are kept under the package core number of their north-west corner. -/
def regionHas (k : Nat) (r : Region) (core : Nat) : Bool :=
  inRect (clusterOf k) (rowOf k) (colOf k) r.rows r.cols core

def State.regionOf (s : State) (core : Nat) : Option Nat :=
  (s.regions.find? fun e => regionHas e.1 e.2 core).map (·.1)

/-- The neighbour of a core in direction 0 N, 1 E, 2 S, 3 W, inside its cluster. -/
def neighbour (core dir : Nat) : Option Nat :=
  match dir with
  | 0 => if rowOf core = 0 then none else some (core - 12)
  | 1 => if colOf core = 11 then none else some (core + 1)
  | 2 => if rowOf core = 7 then none else some (core + 12)
  | _ => if colOf core = 0 then none else some (core - 1)

/-- The port of the neighbour that a route in this direction reaches. -/
def opposite (dir : Nat) : Nat := (dir + 2) % 4

/-- R266: the fabric port beside an edge core: column 2s + j on the north edge, and on the south edge. -/
def edgePort (core dir : Nat) : Option Nat :=
  if dir = 0 ∧ rowOf core = 0 then some (fabricPort (clusterOf core) (colOf core / 2) (colOf core % 2))
  else if dir = 2 ∧ rowOf core = 7 then some (fabricPort (clusterOf core) (6 + colOf core / 2) (colOf core % 2))
  else none

/-- R266: whether a stream binding of the given direction is queued at a vector port. -/
def State.vectorBound (s : State) (core dir : Nat) (write : Bool) : Bool :=
  (s.port (vectorPort core dir)).queue.any fun b =>
    match s.binding b with
    | some x => x.write == write
    | none => false

/-- Where a route of a core leads (R31, R40, R121, R266). -/
inductive Route where
  /-- The neighbour's input port, in the same island. -/
  | inside (core port : Nat)
  /-- The retiming FIFO at a neighbour island's input port. -/
  | channel (core port : Nat)
  /-- The write channel of a stream port. -/
  | stream (port : Nat)
  /-- R121: the token is dropped at a partition fence. -/
  | dropped
  /-- R121: no channel is configured. -/
  | nowhere
  deriving DecidableEq, Repr

/-- The partition a core's region belongs to. -/
def State.partOf (s : State) (core : Nat) : Option (BitVec 7) := (s.regionOf core).map fun k => (s.region k).part

/-- The partition that a core is assigned to: that of its region, or of the core where no region stands. -/
def State.coreOwner (s : State) (core : Nat) : BitVec 7 := (s.partOf core).getD (look 0 s.brass.coreOf core)

/-- R26, R60: the gang that a region serves: the chip its task came from, none for this one, and the task there. -/
def State.gangOf (s : State) (region : Nat) : Option (Option Nat × Nat) :=
  (s.region region).owner.bind fun o => (look none s.brass.tasks o.1).map fun t => match t.origin with
    | some (chip, task, _) => (some chip, task)
    | none => (none, o.1)

/-- R26, R60, R61: whether two cores may exchange tokens: they lie in one region, or in regions of one gang. -/
def State.sameGang (s : State) (c d : Nat) : Bool :=
  match s.regionOf c, s.regionOf d with
  | some j, some k => j == k || ((s.gangOf j).isSome && s.gangOf j == s.gangOf k)
  | _, _ => false

/-- R26, R40, R60, R61, R121, R266: the route of a core in a direction. A route into a stream island of another partition crosses a
fence, and so does one to a core of another partition, whether or not a channel is configured (log 131). A neighbour in another island
of the same gang is reached through the retiming FIFO at its edge (log 9). -/
def State.route (s : State) (core dir : Nat) : Route :=
  match neighbour core dir with
  | some c =>
    if s.islandOf c = s.islandOf core then .inside c (opposite dir)
    else if s.vectorBound core dir true then .stream (vectorPort core dir)
    else if s.partOf c = none then .nowhere
    else if s.partOf c ≠ s.partOf core then .dropped
    else if s.islandOf c = none ∨ !s.sameGang core c then .nowhere
    else .channel c (opposite dir)
  | none =>
    if s.vectorBound core dir true then .stream (vectorPort core dir)
    else match edgePort core dir with
      | some p => if look 0 s.brass.siOf (p / 2) = (s.partOf core).getD 0 then .stream p else .dropped
      | none => .nowhere

/-- R32, R40, R266: whether an input port is fed by a retiming FIFO or a stream port. Every port that faces out of its island counts as
fed by the FIFO at its edge, whatever stands beyond it: an empty one stalls and never faults (log 130). -/
def State.fifoFed (s : State) (core dir : Nat) : Bool :=
  match neighbour core dir with
  | some c => s.islandOf c != s.islandOf core
  | none => true

/-! ### The row that is due (R28) -/

/-- The row context of a VE that its island's counter selects. -/
def State.veRow (s : State) (c : Nat) : Row :=
  match s.islandOf c with
  | some k => look {} (s.ve c).rows (32 * (if (s.core c).bank then 1 else 0) + (s.island k).cnt)
  | none => {}

def State.mnRow (s : State) (c : Nat) : Row :=
  match s.islandOf c with
  | some k => look {} (s.mn c).rows (32 * (if (s.core c).bank then 1 else 0) + (s.island k).cnt)
  | none => {}

/-- R28: the index of the row that is due at a core. -/
def State.dueRow (s : State) (c : Nat) : Nat := ((s.islandOf c).map fun k => (s.island k).cnt).getD 0

/-- R33: the number of an island within its region. -/
def State.islandNumber (s : State) (k : Nat) : Nat :=
  ((s.region (s.island k).region).islands.findIdx? (· == k)).getD 0

/-- R400 Table 4: the locator of a fault at a row of an island. -/
def State.locator (s : State) (k : Nat) (disp src : BitVec 2) (rnd : BitVec 8) (iter : BitVec 16) (mn : Bool) (row core : Nat) : W64 :=
  let i := s.island k
  disp ++ (i.rstRnd ++ (BitVec.ofNat 5 i.cnt ++ (src ++ (rnd ++ (iter ++ (BitVec.ofBool mn ++ (BitVec.ofNat 5 row ++
    (BitVec.ofNat 7 (core % 96) ++ (BitVec.ofNat 5 (s.islandNumber k) ++ (0#1 ++ BitVec.ofNat 4 (clusterOf k)))))))))))

/-- R399, R400: the record of a fault of the row that is due at a VE or MN. -/
def State.rowFault (s : State) (c : Nat) (mn : Bool) (kind : BitVec 8) (val : W64) : FaultRec :=
  let k := (s.islandOf c).getD 0
  let i := s.island k
  { cause := 2#8 ++ kind
    tval := val
    tinfo := s.locator k 3 0 (if mn then (s.mn c).rnd else (s.ve c).rnd) i.iter mn i.cnt c }

/-- The order of a row within its island's cycle (R423). -/
def unitOrder (c : Nat) (mn : Bool) : Nat := 2 * c + if mn then 1 else 0

/-- Records a fault of the row that is due (R423); the cycle decides whether it is raised. -/
def State.addFault (s : State) (c : Nat) (mn : Bool) (kind : BitVec 8) (val : W64) : State :=
  { s with scratch := { s.scratch with faults := s.scratch.faults ++ [(unitOrder c mn, s.rowFault c mn kind val)] } }

/-- Records a stall source of the row that is due (R37), with its unit. -/
def State.addStall (s : State) (src : BitVec 2) : State :=
  { s with scratch := { s.scratch with stalls := s.scratch.stalls ++ [(src, s.actor)] } }

/-- R399 Table 2: the value of a schedule fault. -/
def schedVal (sub : BitVec 8) (rest : BitVec 32 := 0) : W64 := sub ++ (0#24 ++ rest)

/-! ### The frame of a word (R418) -/

/-- The next state of an outcome; the state before it where there is none. -/
def settleTo (s : State) (o : Host.Outcome State Fault Refusal) : State :=
  match o with
  | .next t => t
  | .fault _ => s
  | .refused _ => s

/-- R130: entry 32 of the sequencer table is Cobalt. -/
def seqKind (n : Nat) : Kind := if n = 32 then .cobalt else .seq

/-- The 32 bits of a word. -/
def wordOf (i : Instr) : Word := (encode i).getD 0

/-- Runs a word on the executor whose turn it is. An illegal word raises kind 0x02 (R418, R421, R422); a word whose guard, CP or cond
fails has no effect but the use of its slot or the advance of the fetch address (R125, R197); an S* word at user level raises kind
0x03. The three bodies are the word's effect on a sequencer, a VE and an MN; they leave the advance of pc to the sequencer's body. -/
def word (i : Instr) (guard : BitVec 8 → Bool) (onSeq onVe onMn : Nat → State → State) (s : State) :
    Host.Outcome State Fault Refusal :=
  .next <| match s.actor with
  | .seq n =>
    let q := s.seq n
    if i.wf (seqKind n) then
      if guard q.preds then
        if formLegality i == .supervisor && !q.super then s.seqFault n 0x03 ((wordOf i).setWidth 64)
        else onSeq n s
      else s.seqNext n q
    else s.seqFault n 0x02 ((wordOf i).setWidth 64)
  | .ve c =>
    if i.wf .ve then (if guard (s.ve c).preds then onVe c s else s)
    else s.addFault c false 0x02 ((wordOf i).setWidth 64)
  | .mn c =>
    if i.wf .mn then (if guard (s.mn c).preds then onMn c s else s)
    else s.addFault c true 0x02 ((wordOf i).setWidth 64)

/-- R124: the guard of a format A word. -/
def guarded (p : BitVec 3) (preds : BitVec 8) : Bool := predGet preds p

/-- A word of another format always executes (R124). -/
def always (_ : BitVec 8) : Bool := true

/-- R126: the condition of a format C word. -/
def condHolds (c : BitVec 4) (preds : BitVec 8) : Bool := predGet preds (c.setWidth 3) != c.getLsbD 3

/-- The body of a form on an executor that does not accept it; legality keeps it from being reached. -/
def noBody (_ : Nat) (s : State) : State := s

end Sys2Proof.Machine
end

