-- ==== Sys2Proof/Machine/Operands.lean ====
section
/-! DEFINITION. Operand forms of a vector element's row: reading its selectors, stalls, markers, tags and steering, consuming what it
read, and sending its result (R30 to R32, R47 to R56, R120, R121, R423, R425). -/

namespace Sys2Proof.Machine

/-- What a source selector gave. -/
structure Operand where
  sel : Nat
  tok : Token
  /-- A token operand: neither Z nor a cleared latch (R50, R52, R293). -/
  real : Bool
  /-- Read from a port, X or SD: its round is the one R47 takes (log 10). -/
  moving : Bool
  deriving DecidableEq, Repr

/-- Reading a selector: an operand, a stall source (R37), or an empty place with the sub-cause of its fault (R32, R223). -/
inductive Read where
  | got (o : Operand)
  | stall (src : BitVec 2)
  | empty (sub : BitVec 8)
  deriving DecidableEq, Repr

/-- The lowest tag set in a TAGS mask among the tags that `p` admits; bit 7 is ignored (R27). -/
def lowestTag (tags : BitVec 8) (p : Nat → Bool) : Option (BitVec 3) :=
  ((List.range 7).find? fun t => tags.getLsbD t && p t).map (BitVec.ofNat 3)

/-- R47, R52: the zero token as a row with these TAGS reads it, with the element's round; with no tag set it has tag 0 (log 129). -/
def zeroToken (tags rnd : BitVec 8) : Token := { data := 0, tag := (lowestTag tags fun _ => true).getD 0, rnd := rnd }

/-- R53: lane-count classes. -/
def sameClass (t u : Nat) : Bool :=
  match fmtOfTag (BitVec.ofNat 3 t), fmtOfTag (BitVec.ofNat 3 u) with
  | some f, some g => f.bits == g.bits
  | _, _ => false

/-- R53: the tag the conversion element converts to. -/
def conversionTag (tags : BitVec 8) (t : BitVec 3) : Option (BitVec 3) := lowestTag tags (sameClass t.toNat)

/-- R53, R106: a token converted lane by lane, with the default rounding and saturation, into a tag of the same class. -/
def convertToken (t : Token) (tag : BitVec 3) : Token :=
  match fmtOfTag t.tag, fmtOfTag tag with
  | some f, some g =>
    { t with data := ofLanes 512 g.bits fun i => cvt (valOf f (lane t.data f.bits i).toNat) g .rne false, tag := tag }
  | _, _ => t

/-- R32: whether the MN of the core fires an ADRN in this cycle. -/
def State.adrnDue (s : State) (c : Nat) : Bool :=
  match decode true (s.mnRow c).word with
  | .ok i => match i with
    | .adrn _ _ _ _ _ _ cp => i.wf .mn && predGet (s.mn c).preds cp
    | _ => false
  | .bad _ => false

/-- R32: an empty X stalls while something is outstanding that will deliver into it. -/
def State.emptyX (s : State) (c : Nat) : Read :=
  let v := s.ve c
  if v.replies.any (·.wantsX) || (s.mn c).drain.isSome || (s.mn c).drainIn.isSome || s.adrnDue c then .stall 0
  else if v.cnv.isEmpty then .empty 8
  else .stall 2

/-- R120 Table 3: reads a source selector of a row of a VE at the start of the cycle. -/
def State.readSel (s : State) (c : Nat) (sel : BitVec 4) : Read :=
  let v := s.ve c
  let k := sel.toNat
  if v.steering.contains k then .stall 2
  else match look none v.returned k with
  | some t => .got ⟨k, t, true, decide (8 ≤ k ∧ k < 12 ∨ k = 15)⟩
  | none =>
    if k < 8 then
      match look none v.latches k with
      | some t => .got ⟨k, t, true, false⟩
      | none => .got ⟨k, zeroToken (s.veRow c).tags v.rnd, false, false⟩
    else if k < 12 then
      match look none v.ports (k - 8) with
      | some t => .got ⟨k, t, true, true⟩
      | none =>
        if s.fifoFed c (k - 8) then
          match s.fifo (4 * c + (k - 8)) with
          | t :: _ => .got ⟨k, t, true, true⟩
          | [] => .stall 1
        else .empty 8
    else if k < 14 then
      .got ⟨k, { look ⟨0, 0, 0⟩ v.consts (2 * (if (s.core c).bank then 1 else 0) + (k - 12)) with rnd := v.rnd }, true, false⟩
    else if k = 14 then .got ⟨k, zeroToken (s.veRow c).tags v.rnd, false, false⟩
    else match v.x with
      | some t => .got ⟨k, t, true, true⟩
      | none => s.emptyX c

/-- R223: the data selector of a store names SD with code 14. The operand is kept under number 16. -/
def State.readData (s : State) (c : Nat) (sel : BitVec 4) : Read :=
  if sel = 14 then
    if (s.ve c).steering.contains 16 then .stall 2
    else match (if (look none (s.ve c).returned 16).isSome then look none (s.ve c).returned 16 else (s.ve c).sd) with
    | some t => .got ⟨16, t, true, true⟩
    | none => .empty 5
  else s.readSel c sel

/-- R48: the kind of a marker token. -/
def markerKind (t : Token) : BitVec 8 := t.data.extractLsb' 0 8

def isMarker (t : Token) : Bool := t.tag == 7

/-- R48: a marker of a reserved kind, which is a fault of the row that receives it. -/
def reservedMarker (t : Token) : Bool := isMarker t && markerKind t != 1 && markerKind t != 2

/-- R48: a marker token. -/
def marker (kind : BitVec 8) (rnd : BitVec 8) : Token := { data := kind.setWidth 512, tag := 7, rnd := rnd }

/-- R467: whether round `a` is at or before round `b`. -/
def roundLe (a b : BitVec 8) : Bool := decide ((b - a).toNat < 128)

/-- The gang channel that feeds the FIFO with this key. -/
def State.chan (s : State) (k : Nat) : Option GangChannel := look none s.brass.chans k

def State.setChan (s : State) (k : Nat) (g : GangChannel) : State :=
  { s with brass := { s.brass with chans := put none s.brass.chans k (some g) } }

/-- R467: a token of a gang channel enters the channel's log. -/
def State.logToken (s : State) (k : Nat) (t : Token) : State :=
  match s.chan k with
  | some g => s.setChan k { g with log := g.log ++ [t] }
  | none => s

/-- R467: an end-of-round marker delivered from a gang channel into the region. -/
def State.noteDelivered (s : State) (k : Nat) (t : Token) : State :=
  match s.chan k with
  | some g => if isMarker t && markerKind t == 1 then s.setChan k { g with dlv := t.rnd } else s
  | none => s

/-- R467: each gang channel into a region is retired through its DLV: its log drops the rounds at or before it. -/
def State.retireChannels (s : State) (region : Nat) : State :=
  s.brass.chans.foldl (fun (s : State) e =>
    match e.2 with
    | some g =>
      if s.regionOf (e.1 / 4) = some region then
        s.setChan e.1 { g with retired := g.dlv, log := g.log.filter fun t => !roundLe t.rnd g.dlv }
      else s
    | none => s) s

/-- R289: notes at an armed island that a channel has delivered a drain marker. -/
def State.noteDrain (s : State) (c dir : Nat) (t : Token) : State :=
  match s.islandOf c with
  | some k =>
    let i := s.island k
    if i.armed && isMarker t && markerKind t == 2 then s.setIsland k { i with drainSeen := (4 * c + dir) :: i.drainSeen } else s
  | none => s

/-- Takes the token of a selector away once: from its port, its FIFO, X or SD. An operand that came back from the conversion element
was taken when it was steered. -/
def State.take (s : State) (c : Nat) (k : Nat) : State :=
  let v := s.ve c
  if (look none v.returned k).isSome then s.setVe c { v with returned := put none v.returned k none }
  else if 8 ≤ k ∧ k < 12 then
    match look none v.ports (k - 8) with
    | some _ => s.setVe c { v with ports := put none v.ports (k - 8) none }
    | none =>
      let l := s.fifo (4 * c + (k - 8))
      match l with
      | t :: _ => ((s.setFifo (4 * c + (k - 8)) l.tail).noteDrain c (k - 8) t).noteDelivered (4 * c + (k - 8)) t
      | [] => s
  else if k = 15 then
    match v.x with
    | some _ =>
      { s.setVe c { v with x := none } with scratch := { s.scratch with tookX := c :: s.scratch.tookX } }
    | none => s
  else if k = 16 then s.setVe c { v with sd := none }
  else s

/-- Consumes every operand of a firing, each selector once (R31, R223, R224). -/
def State.consume (s : State) (c : Nat) (ops : List Operand) : State :=
  (ops.map (·.sel)).eraseDups.foldl (fun s k => s.take c k) s

/-- R47: the round of a result. -/
def resultRound (v : Ve) (ops : List Operand) : BitVec 8 :=
  match ops.find? (·.moving) with
  | some o => o.tok.rnd
  | none => v.rnd

/-- The four directions of a route field: [3] N, [2] E, [1] S, [0] W (R118). -/
def routeDirs (r : BitVec 4) : List Nat :=
  (if r.getLsbD 3 then [0] else []) ++ (if r.getLsbD 2 then [1] else []) ++
  (if r.getLsbD 1 then [2] else []) ++ (if r.getLsbD 0 then [3] else [])

/-- R37, R266, R468: a route into a full FIFO, or a gang channel whose log is full, stalls with source 1. -/
def State.routeFull (s : State) (c dir : Nat) : Bool :=
  match s.route c dir with
  | .channel c' p => decide (32 ≤ (s.fifo (4 * c' + p)).length + (look [] s.transit (4 * c' + p)).length) ||
    (match s.chan (4 * c' + p) with
    | some g => decide (1024 ≤ g.log.length)
    | none => false)
  | .stream p => decide (32 ≤ (s.port p).toks.length)
  | _ => false

def State.routeStall (s : State) (c : Nat) (r : BitVec 4) : Bool := (routeDirs r).any fun d => s.routeFull c d

/-- R30, R121: sends a token on the routes of a row at the end of the cycle; the fault record is the one of an overrun. -/
def State.sendRoutes (s : State) (c : Nat) (r : BitVec 4) (t : Token) : State :=
  let fault := (unitOrder c false, s.rowFault c false 0x14 (schedVal 1))
  (routeDirs r).foldl (fun (s : State) d =>
    match s.route c d with
    | .inside c' p => { s with scratch := { s.scratch with sends := s.scratch.sends ++ [Send.mk c' p t fault] } }
    | .channel c' p =>
      { s with transit := put [] s.transit (4 * c' + p) (look [] s.transit (4 * c' + p) ++ [t]) }.logToken (4 * c' + p) t
    | .stream p => s.setPort p { s.port p with toks := (s.port p).toks ++ [t] }
    | .dropped => s
    | .nowhere => s.addFault c false 0x14 (schedVal 2)) s

/-- R121 Table 4, R179, R223: sends a result to the target `d` and the routes `r`. -/
def State.emit (s : State) (c : Nat) (d r : BitVec 4) (t : Token) : State :=
  let v := s.ve c
  let fault := (unitOrder c false, s.rowFault c false 0x14 (schedVal 1))
  let s1 := match d.toNat with
    | 8 => { s with scratch := { s.scratch with sends := s.scratch.sends ++ [Send.mk c 4 t fault] } }
    | 9 => if v.sd.isSome then s.addFault c false 0x14 (schedVal 5) else s.setVe c { v with sd := some t }
    | 10 =>
      let tags := (s.veRow c).tags
      let conv := match s.islandOf c with
        | some k => descConv (s.island k).desc
        | none => 0x7F
      match (if conv = 0x7F then none else if isMarker t then some t.tag else conversionTag tags t.tag) with
      | some g => s.setVe c { v with cnv := v.cnv ++ [convertToken t g] }
      | none => s.addFault c false 0x15 ((0#48 ++ tags) ++ (0#5 ++ t.tag))
    | k => if k < 8 then s.setVe c { v with latches := put none v.latches k (some t) } else s
  s1.sendRoutes c r t

/-- R404: the count of restarts of a region's stage clears as its restart round advances. -/
def State.clearRestarts (s : State) (region : Nat) : State :=
  match (s.region region).owner with
  | none => s
  | some o => match look none s.brass.tasks o.1 with
    | some t =>
      if t.stages.any (fun x => x.restarts != 0) then
        { s with brass := { s.brass with tasks := put none s.brass.tasks o.1 (some { t with stages := t.stages.modify o.2 fun x => { x with restarts := 0 } }) } }
      else s
    | none => s

/-- R56: a restart-point row that forwards an end-of-round marker. -/
def State.restartPoint (s : State) (c : Nat) (rnd : BitVec 8) : State :=
  match s.islandOf c with
  | some k => if (s.veRow c).rstpt then
      ((s.setIsland k { s.island k with round := rnd + 1, rstRnd := rnd, rval := true }).retireChannels (s.island k).region).clearRestarts (s.island k).region
    else s
  | none => s

/-- R50: the element's round advances after an end-of-round marker. -/
def State.passMarker (s : State) (c : Nat) (m : Token) : State :=
  if markerKind m = 1 then s.setVe c { s.ve c with rnd := (s.ve c).rnd + 1 } else s

/-- R50, R147: forwards a marker to the row's target and routes, or discards it in a form that produces no token. -/
def State.forward (s : State) (c : Nat) (d r : BitVec 4) (discard : Bool) (m : Token) : State :=
  if discard then s.passMarker c m
  else
    let m' := marker (markerKind m) m.rnd
    let s1 := (s.emit c d r m').passMarker c m
    if markerKind m = 1 then s1.restartPoint c m.rnd else s1

/-- What the marker check of R50 finds among a firing's operands. -/
inductive Marks where
  | data
  | all (m : Token)
  | fault (kind : BitVec 8) (val : W64)
  deriving DecidableEq, Repr

/-- R48, R50: the marker check of a row that is not stateful. -/
def checkMarkers (v : Ve) (ops : List Operand) : Marks :=
  let toks := (ops.filter (·.real)).map (·.tok)
  match toks.find? isMarker with
  | none => .data
  | some m =>
    if toks.all isMarker then
      let first := toks.headD m
      match toks.find? (fun t => markerKind t != markerKind first || t.rnd != first.rnd) with
      | some t => .fault 0x16 (0#48 ++ (t.rnd ++ first.rnd))
      | none => if markerKind first = 1 ∨ markerKind first = 2 then .all first else .fault 0x14 (schedVal 7)
    else .fault 0x16 (0#48 ++ (v.rnd ++ m.rnd))

/-- R52: whether an operand must be steered. -/
def mustSteer (tags : BitVec 8) (o : Operand) : Bool := o.real && !isMarker o.tok && !tags.getLsbD o.tok.tag.toNat

/-- R52 to R55: the tag check: goes on, faults, or steers the first operand that needs it. -/
def State.checkTags (s : State) (c : Nat) (ops : List Operand) : Option State :=
  let tags := (s.veRow c).tags
  let conv := match s.islandOf c with
    | some k => descConv (s.island k).desc
    | none => 0x7F
  match ops.filter (mustSteer tags) with
  | [] => none
  | o :: os =>
    match (o :: os).find? (fun o => conv == 0x7F || (conversionTag tags o.tok.tag).isNone) with
    | some x => some (s.addFault c false 0x15 ((0#48 ++ tags) ++ (0#5 ++ x.tok.tag)))
    | none =>
      let t := convertToken o.tok ((conversionTag tags o.tok.tag).getD 0)
      let s1 := s.addStall 2
      some { s1 with scratch := { s1.scratch with steers := s1.scratch.steers ++ [(c, o.sel, t)] } }

/-- The stalls and empty places among a firing's reads (R32, R37): the state with them recorded, or the operands. -/
def State.settle (s : State) (c : Nat) (reads : List Read) (full : Bool) : State ⊕ List Operand :=
  let stalls := reads.filterMap (fun r => match r with
    | .stall x => some x
    | _ => none) ++ (if full then [1] else [])
  if stalls.isEmpty then
    match reads.findSome? (fun r => match r with
      | .empty sub => some sub
      | _ => none) with
    | some sub => .inl (s.addFault c false 0x14 (schedVal sub))
    | none => .inr (reads.filterMap fun r => match r with
      | .got o => some o
      | _ => none)
  else .inl (stalls.foldl (fun s x => s.addStall x) s)

/-- A row of a VE with these reads: stalls, empty places, markers (R50), tags (R52), then the operands are consumed and the body
runs. The checks stand in the order of R425. -/
def State.veFireReads (s : State) (c : Nat) (reads : List Read) (r : BitVec 4)
    (onMarker : Token → List Operand → State → State) (body : List Operand → State → State) : State :=
  match s.settle c reads (s.routeStall c r) with
  | .inl s' => s'
  | .inr ops =>
    match checkMarkers (s.ve c) ops with
    | .fault kind val => s.addFault c false kind val
    | .all m => onMarker m ops (s.consume c ops)
    | .data =>
      match s.checkTags c ops with
      | some s' => s'
      | none => body ops (s.consume c ops)

/-- A row that is not stateful, with the operands its selectors name. -/
def State.veFire (s : State) (c : Nat) (sels : List (BitVec 4)) (d r : BitVec 4) (discard : Bool)
    (body : List Operand → State → State) : State :=
  s.veFireReads c (sels.map (s.readSel c)) r (fun m _ s' => s'.forward c d r discard m) body

/-- The operand at place `k` of a firing. -/
def opnd (ops : List Operand) (k : Nat) : Token := ((ops[k]?).map (·.tok)).getD ⟨0, 0, 0⟩

/-- A row whose result token is computed from its operands alone: data and tag. -/
def State.veResult (s : State) (c : Nat) (sels : List (BitVec 4)) (d r : BitVec 4)
    (f : List Operand → BitVec 512 × BitVec 3) : State :=
  s.veFire c sels d r false fun ops s' =>
    s'.emit c d r { data := (f ops).1, tag := (f ops).2, rnd := resultRound (s.ve c) ops }

/-- The data of latch `d`, or none when `d` names no latch (R169, R174). A cleared latch holds zero (R293). -/
def latchData (v : Ve) (d : BitVec 4) : Option (BitVec 512) :=
  if d.toNat < 8 then some ((look none v.latches d.toNat).map (·.data) |>.getD 0) else none

end Sys2Proof.Machine
end

