-- ==== Sys2Proof/Machine/Stateful.lean ====
section
/-! DEFINITION. Stateful rows (R51, R148): a row that reduces over its firings into a latch and sends the result of a round. -/

namespace Sys2Proof.Machine

/-- R51: a token input of a stateful row is a port or X (log 11). -/
def tokenInput (sel : BitVec 4) : Bool := (decide (8 ≤ sel.toNat) && decide (sel.toNat < 12)) || sel == 15

/-- R51: the flags of a row's token inputs: bit 0 for a, bit 1 for b. -/
def neededFlags (a b : BitVec 4) : BitVec 8 :=
  (if tokenInput a then 1 else 0) ||| (if tokenInput b then 2 else 0)

/-- R51: whether every flag of the row is set. -/
def allSeen (need seen : BitVec 8) : Bool := need != 0 && (seen &&& need) == need

/-- R51: the round check of a stateful row: a token on an input whose round is not the element's. -/
def roundMismatch (rnd : BitVec 8) (ops : List Operand) : Option Operand :=
  ops.find? fun o => o.moving && o.tok.rnd != rnd

/-- R51, R148: the row that is due clears its flags and is FRESH again. -/
def Ve.freshRow (v : Ve) (row : Nat) : Ve := { v with seen := put 0 v.seen row 0, stale := put false v.stale row false, rnd := v.rnd + 1 }

/-- R148 `j_fire`. FRESH and the seen flags are the row's own, as R51 and R148 give them (log 132). `ident` and `combine` are those of the operation; `whole` computes a firing whose two inputs are both data, for FMA,
which combines them at once. Inputs whose flag is set are not read. -/
def State.jFire (s : State) (c : Nat) (a b d r : BitVec 4) (tag : BitVec 3) (ident : BitVec 512)
    (combine : BitVec 512 → BitVec 512 → BitVec 512)
    (whole : Option (BitVec 512 → BitVec 512 → BitVec 512 → BitVec 512)) : State :=
  let v := s.ve c
  let need := neededFlags a b
  let row := s.dueRow c
  let was := look 0 v.seen row
  if allSeen need was then
    -- the firing after the round's result
    if s.routeStall c r then s.addStall 1
    else
      let s1 := s.sendRoutes c r (marker 1 v.rnd)
      (s1.setVe c ((s1.ve c).freshRow row)).restartPoint c v.rnd
  else
    let reads := (if was.getLsbD 0 then [] else [s.readSel c a]) ++ (if was.getLsbD 1 then [] else [s.readSel c b])
    match s.settle c reads false with
    | .inl s' => s'
    | .inr ops =>
      match roundMismatch v.rnd ops with
      | some o => s.addFault c false 0x16 (0#48 ++ (v.rnd ++ o.tok.rnd))
      | none =>
        if ops.any fun o => reservedMarker o.tok then
          s.addFault c false 0x14 (schedVal 7)
        else match s.checkTags c ops with
        | some s' => s'
        | none =>
          let hit (sel : BitVec 4) : Bool := tokenInput sel && ops.any fun o => o.sel == sel.toNat && isMarker o.tok
          let seen := was ||| (if hit a then 1 else 0) ||| (if hit b then 2 else 0)
          let acc := if look false v.stale row then (latchData v d).getD 0 else ident
          let data := ops.filter fun o => !isMarker o.tok
          let acc' := match whole with
            | some f => if data.length = 2 then f (opnd data 0).data (opnd data 1).data acc else acc
            | none => data.foldl (fun x o => combine x o.tok.data) acc
          let full := allSeen need seen && s.routeStall c r
          if full then s.addStall 1
          else
            let t : Token := { data := acc', tag := tag, rnd := v.rnd }
            let s1 := s.consume c ops
            let s2 := s1.setVe c { s1.ve c with
              latches := put none (s1.ve c).latches d.toNat (some t), seen := put 0 (s1.ve c).seen row seen,
              stale := put false (s1.ve c).stale row true }
            if allSeen need seen then s2.sendRoutes c r t else s2

end Sys2Proof.Machine
end

