-- ==== Sys2Proof/Machine/Integer.lean ====
section
/-! DEFINITION. Integer and address forms, opcodes 0x20 to 0x3F (R145, R146, R148, R160 to R162). -/

namespace Sys2Proof.Machine

/-! ### Lane operations (R160 Table 6) -/

/-- The high half of a 2w-bit product. -/
def highSigned {w : Nat} (x y : BitVec w) : BitVec w := BitVec.ofInt w (x.toInt * y.toInt / 2 ^ w)

def highUnsigned {w : Nat} (x y : BitVec w) : BitVec w := BitVec.ofNat w (x.toNat * y.toNat / 2 ^ w)

/-- DIV: division by zero gives all ones; the signed overflow wraps. -/
def divLane {w : Nat} (unsigned : Bool) (x y : BitVec w) : BitVec w :=
  if y = 0 then BitVec.allOnes w
  else if unsigned then BitVec.ofNat w (x.toNat / y.toNat) else BitVec.ofInt w (x.toInt.tdiv y.toInt)

/-- REM: by zero gives x; of the signed overflow gives 0. -/
def remLane {w : Nat} (unsigned : Bool) (x y : BitVec w) : BitVec w :=
  if y = 0 then x
  else if unsigned then BitVec.ofNat w (x.toNat % y.toNat) else BitVec.ofInt w (x.toInt.tmod y.toInt)

def shlLane {w : Nat} (x y : BitVec w) : BitVec w := if w ≤ y.toNat then 0 else x <<< y.toNat

def shrLane {w : Nat} (x y : BitVec w) : BitVec w := if w ≤ y.toNat then 0 else x >>> y.toNat

def sraLane {w : Nat} (x y : BitVec w) : BitVec w := x.sshiftRight (Nat.min y.toNat w)

def rotLane {w : Nat} (x y : BitVec w) : BitVec w := x.rotateLeft (y.toNat % w)

def minLane {w : Nat} (x y : BitVec w) : BitVec w := if y.slt x then y else x

def maxLane {w : Nat} (x y : BitVec w) : BitVec w := if x.slt y then y else x

def minuLane {w : Nat} (x y : BitVec w) : BitVec w := if y.ult x then y else x

def maxuLane {w : Nat} (x y : BitVec w) : BitVec w := if x.ult y then y else x

def absLane {w : Nat} (x : BitVec w) : BitVec w := if x.msb then 0 - x else x

/-- An integer clamped to the signed range, or with `unsigned` to the unsigned range. -/
def satLane (w : Nat) (unsigned : Bool) (x : Int) : BitVec w :=
  if unsigned then BitVec.ofInt w (max 0 (min (2 ^ w - 1) x))
  else BitVec.ofInt w (max (-(2 ^ (w - 1))) (min (2 ^ (w - 1) - 1) x))

def addsLane {w : Nat} (unsigned : Bool) (x y : BitVec w) : BitVec w :=
  satLane w unsigned (if unsigned then (x.toNat : Int) + y.toNat else x.toInt + y.toInt)

def subsLane {w : Nat} (unsigned : Bool) (x y : BitVec w) : BitVec w :=
  satLane w unsigned (if unsigned then (x.toNat : Int) - y.toNat else x.toInt - y.toInt)

/-- Leading zeros: w for 0. -/
def clzLane {w : Nat} (x : BitVec w) : BitVec w := BitVec.ofNat w (w - if x = 0 then 0 else x.toNat.log2 + 1)

def popcLane {w : Nat} (x : BitVec w) : BitVec w := BitVec.ofNat w ((List.range w).countP fun i => x.getLsbD i)

/-! ### The forms -/

/-- R146 Table 1: the result tag of an integer form with lane width code `w`. -/
def intTag (w : BitVec 2) : BitVec 3 := if w = 0 then 6 else 0

/-- Writes a G register and moves past the word. -/
def State.seqSet (s : State) (n : Nat) (d : BitVec 4) (v : W64) : State := s.seqNext n ((s.seq n).set d v)

/-- A format A form of two operands, lane by lane. -/
def intForm (i : Instr) (p : BitVec 3) (a b d r : BitVec 4) (w : BitVec 2)
    (op : BitVec (laneWidth w) → BitVec (laneWidth w) → BitVec (laneWidth w)) (s : State) : Host.Outcome State Fault Refusal :=
  word i (guarded p)
    (fun n s => s.seqSet n d (mapLanes (laneWidth w) op ((s.seq n).get a) ((s.seq n).get b)))
    (fun c s => s.veResult c [a, b] d r fun ops =>
      (mapLanes (laneWidth w) op (opnd ops 0).data (opnd ops 1).data, intTag w))
    noBody s

/-- A format A form of one operand, lane by lane. -/
def intForm1 (i : Instr) (p : BitVec 3) (a d r : BitVec 4) (w : BitVec 2)
    (op : BitVec (laneWidth w) → BitVec (laneWidth w)) (s : State) : Host.Outcome State Fault Refusal :=
  word i (guarded p)
    (fun n s => s.seqSet n d (mapLanes (laneWidth w) (fun x _ => op x) ((s.seq n).get a) 0))
    (fun c s => s.veResult c [a] d r fun ops =>
      (mapLanes (laneWidth w) (fun x _ => op x) (opnd ops 0).data 0, intTag w))
    noBody s

/-- R148: a form with J: a stateful row when J is set. `ident` is the identity in each lane. -/
def intFormJ (i : Instr) (p : BitVec 3) (a b d r : BitVec 4) (j : Bool) (w : BitVec 2) (ident : BitVec (laneWidth w))
    (op : BitVec (laneWidth w) → BitVec (laneWidth w) → BitVec (laneWidth w)) (s : State) : Host.Outcome State Fault Refusal :=
  word i (guarded p)
    (fun n s => s.seqSet n d (mapLanes (laneWidth w) op ((s.seq n).get a) ((s.seq n).get b)))
    (fun c s =>
      if j then s.jFire c a b d r (intTag w) (ofLanes 512 (laneWidth w) fun _ => ident.toNat) (mapLanes (laneWidth w) op) none
      else s.veResult c [a, b] d r fun ops =>
        (mapLanes (laneWidth w) op (opnd ops 0).data (opnd ops 1).data, intTag w))
    noBody s

/-- R161: a format I form: 64 bits on a sequencer, 16 lanes of 32 bits on a VE. -/
def immForm (i : Instr) (a d : BitVec 4) (reads : Bool) (op64 : W64 → W64) (op32 : Word → Word) (s : State) :
    Host.Outcome State Fault Refusal :=
  word i always
    (fun n s => s.seqSet n d (op64 ((s.seq n).get a)))
    (fun c s => s.veResult c (if reads then [a] else []) d 0 fun ops =>
      (mapLanes 32 (fun x _ => op32 x) (opnd ops 0).data 0, 0))
    noBody s

/-! ### Meanings -/

/-- SUB (R160). -/
def execSub (a b d r : BitVec 4) (p : BitVec 3) (w : BitVec 2) (s : State) : Host.Outcome State Fault Refusal :=
  intForm (.sub a b d r p w) p a b d r w (fun x y => x - y) s

/-- MUL (R160). -/
def execMul (a b d r : BitVec 4) (p : BitVec 3) (w : BitVec 2) (s : State) : Host.Outcome State Fault Refusal :=
  intForm (.mul a b d r p w) p a b d r w (fun x y => x * y) s

/-- MULH (R160). -/
def execMulh (a b d r : BitVec 4) (p : BitVec 3) (w : BitVec 2) (s : State) : Host.Outcome State Fault Refusal :=
  intForm (.mulh a b d r p w) p a b d r w (highSigned) s

/-- MULHU (R160). -/
def execMulhu (a b d r : BitVec 4) (p : BitVec 3) (w : BitVec 2) (s : State) : Host.Outcome State Fault Refusal :=
  intForm (.mulhu a b d r p w) p a b d r w (highUnsigned) s

/-- ANDN (R160). -/
def execAndn (a b d r : BitVec 4) (p : BitVec 3) (w : BitVec 2) (s : State) : Host.Outcome State Fault Refusal :=
  intForm (.andn a b d r p w) p a b d r w (fun x y => x &&& ~~~y) s

/-- SHL (R160). -/
def execShl (a b d r : BitVec 4) (p : BitVec 3) (w : BitVec 2) (s : State) : Host.Outcome State Fault Refusal :=
  intForm (.shl a b d r p w) p a b d r w (shlLane) s

/-- SHR (R160). -/
def execShr (a b d r : BitVec 4) (p : BitVec 3) (w : BitVec 2) (s : State) : Host.Outcome State Fault Refusal :=
  intForm (.shr a b d r p w) p a b d r w (shrLane) s

/-- SRA (R160). -/
def execSra (a b d r : BitVec 4) (p : BitVec 3) (w : BitVec 2) (s : State) : Host.Outcome State Fault Refusal :=
  intForm (.sra a b d r p w) p a b d r w (sraLane) s

/-- ROT (R160). -/
def execRot (a b d r : BitVec 4) (p : BitVec 3) (w : BitVec 2) (s : State) : Host.Outcome State Fault Refusal :=
  intForm (.rot a b d r p w) p a b d r w (rotLane) s

/-- DIV (R160), on a sequencer. -/
def execDiv (a b d : BitVec 4) (p : BitVec 3) (u : Bool) (w : BitVec 2) (s : State) : Host.Outcome State Fault Refusal :=
  intForm (.div a b d p u w) p a b d 0 w (divLane u) s

/-- REM (R160), on a sequencer. -/
def execRem (a b d : BitVec 4) (p : BitVec 3) (u : Bool) (w : BitVec 2) (s : State) : Host.Outcome State Fault Refusal :=
  intForm (.rem a b d p u w) p a b d 0 w (remLane u) s

/-- ADD (R148, R160). -/
def execAdd (a b d r : BitVec 4) (p : BitVec 3) (j : Bool) (w : BitVec 2) (s : State) : Host.Outcome State Fault Refusal :=
  intFormJ (.add a b d r p j w) p a b d r j w 0 (fun x y => x + y) s

/-- AND (R148, R160). -/
def execAnd (a b d r : BitVec 4) (p : BitVec 3) (j : Bool) (w : BitVec 2) (s : State) : Host.Outcome State Fault Refusal :=
  intFormJ (.and a b d r p j w) p a b d r j w (BitVec.allOnes _) (fun x y => x &&& y) s

/-- OR (R148, R160). -/
def execOr (a b d r : BitVec 4) (p : BitVec 3) (j : Bool) (w : BitVec 2) (s : State) : Host.Outcome State Fault Refusal :=
  intFormJ (.or a b d r p j w) p a b d r j w 0 (fun x y => x ||| y) s

/-- XOR (R148, R160). -/
def execXor (a b d r : BitVec 4) (p : BitVec 3) (j : Bool) (w : BitVec 2) (s : State) : Host.Outcome State Fault Refusal :=
  intFormJ (.xor a b d r p j w) p a b d r j w 0 (fun x y => x ^^^ y) s

/-- MIN (R148, R160). -/
def execMin (a b d r : BitVec 4) (p : BitVec 3) (j : Bool) (w : BitVec 2) (s : State) : Host.Outcome State Fault Refusal :=
  intFormJ (.min a b d r p j w) p a b d r j w (BitVec.intMax _) (minLane) s

/-- MAX (R148, R160). -/
def execMax (a b d r : BitVec 4) (p : BitVec 3) (j : Bool) (w : BitVec 2) (s : State) : Host.Outcome State Fault Refusal :=
  intFormJ (.max a b d r p j w) p a b d r j w (BitVec.intMin _) (maxLane) s

/-- MINU (R148, R160). -/
def execMinu (a b d r : BitVec 4) (p : BitVec 3) (j : Bool) (w : BitVec 2) (s : State) : Host.Outcome State Fault Refusal :=
  intFormJ (.minu a b d r p j w) p a b d r j w (BitVec.allOnes _) (minuLane) s

/-- MAXU (R148, R160). -/
def execMaxu (a b d r : BitVec 4) (p : BitVec 3) (j : Bool) (w : BitVec 2) (s : State) : Host.Outcome State Fault Refusal :=
  intFormJ (.maxu a b d r p j w) p a b d r j w 0 (maxuLane) s

/-- ABS (R160). -/
def execAbs (a d r : BitVec 4) (p : BitVec 3) (w : BitVec 2) (s : State) : Host.Outcome State Fault Refusal :=
  intForm1 (.abs a d r p w) p a d r w (absLane) s

/-- NEG (R160). -/
def execNeg (a d r : BitVec 4) (p : BitVec 3) (w : BitVec 2) (s : State) : Host.Outcome State Fault Refusal :=
  intForm1 (.neg a d r p w) p a d r w (fun x => 0 - x) s

/-- CLZ (R160). -/
def execClz (a d r : BitVec 4) (p : BitVec 3) (w : BitVec 2) (s : State) : Host.Outcome State Fault Refusal :=
  intForm1 (.clz a d r p w) p a d r w (clzLane) s

/-- POPC (R160). -/
def execPopc (a d r : BitVec 4) (p : BitVec 3) (w : BitVec 2) (s : State) : Host.Outcome State Fault Refusal :=
  intForm1 (.popc a d r p w) p a d r w (popcLane) s

/-- ADDS (R160). -/
def execAdds (a b d r : BitVec 4) (p : BitVec 3) (u : Bool) (w : BitVec 2) (s : State) : Host.Outcome State Fault Refusal :=
  intForm (.adds a b d r p u w) p a b d r w (addsLane u) s

/-- SUBS (R160). -/
def execSubs (a b d r : BitVec 4) (p : BitVec 3) (u : Bool) (w : BitVec 2) (s : State) : Host.Outcome State Fault Refusal :=
  intForm (.subs a b d r p u w) p a b d r w (subsLane u) s

/-- SEL (R146, R160): the whole operand that Pn selects, with its tag. -/
def execSel (a b d r : BitVec 4) (p n : BitVec 3) (s : State) : Host.Outcome State Fault Refusal :=
  word (.sel a b d r p n) (guarded p)
    (fun m s => s.seqSet m d (if predGet (s.seq m).preds n then (s.seq m).get a else (s.seq m).get b))
    (fun c s =>
      let t := if predGet (s.ve c).preds n then 0 else 1
      s.veResult c [a, b] d r fun ops => ((opnd ops t).data, (opnd ops t).tag))
    noBody s

/-- ADDI (R161). -/
def execAddi (a d : BitVec 4) (i : BitVec 16) (s : State) : Host.Outcome State Fault Refusal :=
  immForm (.addi a d i) a d true (fun x => x + i.signExtend 64) (fun x => x + i.signExtend 32) s

/-- ANDI (R161). -/
def execAndi (a d : BitVec 4) (i : BitVec 16) (s : State) : Host.Outcome State Fault Refusal :=
  immForm (.andi a d i) a d true (fun x => x &&& i.signExtend 64) (fun x => x &&& i.signExtend 32) s

/-- ORI (R161). -/
def execOri (a d : BitVec 4) (i : BitVec 16) (s : State) : Host.Outcome State Fault Refusal :=
  immForm (.ori a d i) a d true (fun x => x ||| i.setWidth 64) (fun x => x ||| i.setWidth 32) s

/-- MOVI (R161). -/
def execMovi (d : BitVec 4) (i : BitVec 16) (s : State) : Host.Outcome State Fault Refusal :=
  immForm (.movi d i) 0 d false (fun _ => i.signExtend 64) (fun _ => i.signExtend 32) s

/-- MOVHI (R161). -/
def execMovhi (a d : BitVec 4) (i : BitVec 16) (s : State) : Host.Outcome State Fault Refusal :=
  immForm (.movhi a d i) a d true (fun x => (x <<< 16) ||| i.setWidth 64) (fun x => (x <<< 16) ||| i.setWidth 32) s

/-- LEA (R162): a + (b << s) + sext(off9), on 64-bit registers or on the eight lane pairs of a token. -/
def execLea (a b d : BitVec 4) (k : BitVec 3) (f : BitVec 9) (s : State) : Host.Outcome State Fault Refusal :=
  let op (x y : W64) : W64 := x + (y <<< k.toNat) + f.signExtend 64
  word (.lea a b d k f) always
    (fun n s => s.seqSet n d (op ((s.seq n).get a) ((s.seq n).get b)))
    (fun c s => s.veResult c [a, b] d 0 fun ops => (mapLanes 64 op (opnd ops 0).data (opnd ops 1).data, 0))
    noBody s

end Sys2Proof.Machine
end

