-- ==== Sys2Proof/Machine/Float.lean ====
section
/-! DEFINITION. Floating-point vector forms, opcodes 0x50 to 0x6B (R108, R109, R148, R168 to R173). -/

namespace Sys2Proof.Machine

/-- R127: mod[2] selects FP32 or BF16. -/
def floatFmt (f : Bool) : Fmt := if f then .bf16 else .fp32

/-- Computes each lane of a result from codes. -/
def mapCodes (f : Fmt) (op : Nat → Nat → Nat → Nat) (x y z : BitVec 512) : BitVec 512 :=
  ofLanes 512 f.bits fun i => op (lane x f.bits i).toNat (lane y f.bits i).toNat (lane z f.bits i).toNat

/-! ### Lane results (R168 to R172) -/

def addCode (f : Fmt) (rm : RMode) (x y : Nat) : Nat := roundIeee f rm ((valOf f x).add rm (valOf f y))

def subCode (f : Fmt) (rm : RMode) (x y : Nat) : Nat := roundIeee f rm ((valOf f x).add rm (valOf f y).neg)

def mulCode (f : Fmt) (rm : RMode) (x y : Nat) : Nat := roundIeee f rm ((valOf f x).mul (valOf f y))

/-- x × y + c, rounded once. -/
def fmaCode (f : Fmt) (rm : RMode) (x y c : Nat) : Nat := roundIeee f rm (((valOf f x).mul (valOf f y)).add rm (valOf f c))

/-- x × y − c, rounded once. -/
def fmsCode (f : Fmt) (rm : RMode) (x y c : Nat) : Nat :=
  roundIeee f rm (((valOf f x).mul (valOf f y)).add rm (valOf f c).neg)

/-- −(x × y) + c, rounded once. -/
def fnmaCode (f : Fmt) (rm : RMode) (x y c : Nat) : Nat :=
  roundIeee f rm (((valOf f x).mul (valOf f y)).neg.add rm (valOf f c))

/-- A NaN becomes the canonical one; any other code stands (R102). -/
def canonical (f : Fmt) (x : Nat) : Nat := if (valOf f x).isNan then f.qnan else x

/-- FMIN or FMAX with a canonical NaN result (R170). -/
def minMaxCode (f : Fmt) (wantMax : Bool) (x y : Nat) : Nat := canonical f (minMax f wantMax x y)

def absCode (f : Fmt) (x : Nat) : Nat := if (valOf f x).isNan then f.qnan else x % 2 ^ (f.bits - 1)

def negCode (f : Fmt) (x : Nat) : Nat :=
  if (valOf f x).isNan then f.qnan else (x + 2 ^ (f.bits - 1)) % 2 ^ f.bits

/-- max(−|y|, min(x, |y|)); a NaN in x or y gives qnan. -/
def clampCode (f : Fmt) (x y : Nat) : Nat :=
  if (valOf f x).isNan || (valOf f y).isNan then f.qnan
  else minMax f true (negCode f (absCode f y)) (minMax f false x (absCode f y))

/-- FSEL: y when the condition holds of x, else x; the lane is copied, but for a NaN. -/
def selCode (f : Fmt) (c : BitVec 2) (x y : Nat) : Nat :=
  let v := valOf f x
  let hit := match c.toNat with
    | 0 => !v.isNan && v.sign
    | 1 => v.isNan
    | 2 => v.isZero
    | _ => v.isInf
  canonical f (if hit then y else x)

/-- |x| with the sign of y; a NaN in x gives qnan. The sign of y is its sign bit; that of a NaN, whose codes behave alike (R102), is
that of qnan (log 137). -/
def cpysCode (f : Fmt) (x y : Nat) : Nat :=
  let y := if (valOf f y).isNan then f.qnan else y
  if (valOf f x).isNan then f.qnan else x % 2 ^ (f.bits - 1) + y / 2 ^ (f.bits - 1) * 2 ^ (f.bits - 1)

/-- √x: √−0 = −0, x < 0 gives qnan. -/
def sqrtCode (f : Fmt) (rm : RMode) (x : Nat) : Nat :=
  match valOf f x with
  | .nan => f.qnan
  | .inf n => if n then f.qnan else x
  | .fin n m e => if m = 0 then x else if n then f.qnan else sqrtFin f rm m e

/-- x × 2^n, rounded once; n is y's lane read as a signed integer. -/
def scaleCode (f : Fmt) (rm : RMode) (x y : Nat) : Nat :=
  match valOf f x with
  | .fin n m e => roundIeee f rm (.fin n m (e + (BitVec.ofNat f.bits y).toInt))
  | v => roundIeee f rm v

/-- x rounded to an integral value; the sign of x is kept. -/
def rintCode (f : Fmt) (rm : RMode) (x : Nat) : Nat :=
  match valOf f x with
  | .fin n m e => if 0 ≤ e then x else roundIeee f rm (.fin n (roundInt rm n m e).natAbs 0)
  | v => roundIeee f rm v

/-- The value of an approximation, or the free value of an enclosure that does not decide (log 5). -/
def decided (fn : Nat) (f : Fmt) (x : Nat) (r : Option Nat) : Nat :=
  r.getD ((Config.undecided fn (x + 2 ^ 32 * f.bits)).toNat % 2 ^ f.bits)

/-- R172: EXP2. -/
def exp2Code (f : Fmt) (x : Nat) : Nat :=
  match valOf f x with
  | .nan => f.qnan
  | .inf n => if n then 0 else f.infCode
  | .fin n m e => decided 0 f x (exp2Val f n m e)

/-- R172: LOG2. -/
def log2Code (f : Fmt) (x : Nat) : Nat :=
  match valOf f x with
  | .nan => f.qnan
  | .inf n => if n then f.qnan else f.infCode
  | .fin n m e =>
    if m = 0 then 2 ^ (f.bits - 1) + f.infCode else if n then f.qnan else decided 1 f x (log2Val f m e)

/-- R172: RCP. -/
def rcpCode (f : Fmt) (x : Nat) : Nat :=
  match valOf f x with
  | .nan => f.qnan
  | .inf n => if n then 2 ^ (f.bits - 1) else 0
  | .fin n m e => if m = 0 then (if n then 2 ^ (f.bits - 1) else 0) + f.infCode else rcpFin f n m e

/-- R172: RSQRT. -/
def rsqrtCode (f : Fmt) (x : Nat) : Nat :=
  match valOf f x with
  | .nan => f.qnan
  | .inf n => if n then f.qnan else 0
  | .fin n m e =>
    if m = 0 then (if n then 2 ^ (f.bits - 1) else 0) + f.infCode else if n then f.qnan else rsqrtFin f m e

/-- R172: TANH. -/
def tanhCode (f : Fmt) (x : Nat) : Nat :=
  match valOf f x with
  | .nan => f.qnan
  | .inf n => roundIeee f .rne (.fin n 1 0)
  | .fin n m e => if m = 0 then x else decided 4 f x (tanhVal f n m e)

/-! ### Reductions (R109, R171) -/

/-- One level of the pairwise tree: node k of the next level joins nodes 2k and 2k + 1. -/
def treeLevel (op : Nat → Nat → Nat) : List Nat → List Nat
  | x :: y :: t => op x y :: treeLevel op t
  | l => l

/-- `n` levels of the tree; the single node at the top. -/
def treeTop (op : Nat → Nat → Nat) : Nat → List Nat → Nat
  | 0, l => l.headD 0
  | n + 1, l => treeTop op n (treeLevel op l)

/-- R109: the lanes as FP32 codes; BF16 lanes are widened exactly. -/
def widened (f : Fmt) (x : BitVec 512) : List Nat :=
  (List.range f.lanes).map fun i =>
    let c := (lane x f.bits i).toNat
    if f = .bf16 then roundIeee .fp32 .rne (valOf .bf16 c) else c

/-- R109: levels of the tree. -/
def treeDepth (f : Fmt) : Nat := if f = .bf16 then 5 else 4

/-- R109: the top node in every lane; a BF16 result is converted once. -/
def spread (f : Fmt) (rm : RMode) (top : Nat) : BitVec 512 :=
  ofLanes 512 f.bits fun _ => if f = .bf16 then cvt (valOf .fp32 top) .bf16 rm false else top

def sumTree (f : Fmt) (rm : RMode) (x : BitVec 512) : BitVec 512 :=
  spread f rm (treeTop (addCode .fp32 rm) (treeDepth f) (widened f x))

def squareTree (f : Fmt) (rm : RMode) (x : BitVec 512) : BitVec 512 :=
  spread f rm (treeTop (addCode .fp32 rm) (treeDepth f) ((widened f x).map fun c => mulCode .fp32 rm c c))

def minMaxTree (f : Fmt) (wantMax : Bool) (x : BitVec 512) : BitVec 512 :=
  spread f .rne (treeTop (minMaxCode .fp32 wantMax) (treeDepth f) (widened f x))

/-! ### Permutations (R173) -/

/-- VPERM: element i := a[byte i of b], or 0. -/
def permute (z : BitVec 2) (a b : BitVec 512) : BitVec 512 :=
  let w := laneWidth z
  ofLanes 512 w fun i =>
    let k := (byteAt b i).toNat
    if k < 512 / w then (lane a w k).toNat else 0

/-- VBCAST: every element := a[x]. -/
def broadcast (z : BitVec 2) (a : BitVec 512) (x : Nat) : BitVec 512 :=
  ofLanes 512 (laneWidth z) fun _ => (lane a (laneWidth z) x).toNat

/-- VSLIDE: element i := a[i + k], or b[i + k − n]. -/
def slide (z : BitVec 2) (a b : BitVec 512) (k : Nat) : BitVec 512 :=
  let w := laneWidth z
  let n := 512 / w
  ofLanes 512 w fun i => if i + k < n then (lane a w (i + k)).toNat else (lane b w (i + k - n)).toNat

/-! ### The forms -/

/-- A form of two operands, code by code; its result has format `f`. -/
def floatForm (i : Instr) (p : BitVec 3) (a b d r : BitVec 4) (f : Bool) (op : Nat → Nat → Nat) (s : State) :
    Host.Outcome State Fault Refusal :=
  word i (guarded p) noBody
    (fun c s => s.veResult c [a, b] d r fun ops =>
      (mapCodes (floatFmt f) (fun x y _ => op x y) (opnd ops 0).data (opnd ops 1).data 0, (floatFmt f).tag)) noBody s

/-- A form of one operand whose whole result is computed from its data. -/
def floatForm1 (i : Instr) (p : BitVec 3) (a d r : BitVec 4) (f : Bool) (op : BitVec 512 → BitVec 512) (s : State) :
    Host.Outcome State Fault Refusal :=
  word i (guarded p) noBody
    (fun c s => s.veResult c [a] d r fun ops => (op (opnd ops 0).data, (floatFmt f).tag)) noBody s

/-- R169: a form of three operands; c is the old value of latch d, or −0. -/
def floatForm3 (i : Instr) (p : BitVec 3) (a b d r : BitVec 4) (f : Bool) (op : Nat → Nat → Nat → Nat) (s : State) :
    Host.Outcome State Fault Refusal :=
  let fm := floatFmt f
  word i (guarded p) noBody
    (fun c s =>
      let z := (latchData (s.ve c) d).getD (ofLanes 512 fm.bits fun _ => 2 ^ (fm.bits - 1))
      s.veResult c [a, b] d r fun ops => (mapCodes fm op (opnd ops 0).data (opnd ops 1).data z, fm.tag)) noBody s

/-- R148: a form with J: `ident` is the identity of a lane. -/
def floatFormJ (i : Instr) (p : BitVec 3) (a b d r : BitVec 4) (j f : Bool) (ident : Nat) (op : Nat → Nat → Nat) (s : State) :
    Host.Outcome State Fault Refusal :=
  let fm := floatFmt f
  word i (guarded p) noBody
    (fun c s =>
      if j then s.jFire c a b d r fm.tag (ofLanes 512 fm.bits fun _ => ident)
        (fun x y => mapCodes fm (fun x y _ => op x y) x y 0) none
      else s.veResult c [a, b] d r fun ops =>
        (mapCodes fm (fun x y _ => op x y) (opnd ops 0).data (opnd ops 1).data 0, fm.tag)) noBody s

/-! ### Meanings -/

/-- FADD (R148, R168). -/
def execFadd (a b d r : BitVec 4) (p : BitVec 3) (j f : Bool) (u : BitVec 2) (s : State) : Host.Outcome State Fault Refusal :=
  floatFormJ (.fadd a b d r p j f u) p a b d r j f (2 ^ ((floatFmt f).bits - 1)) (addCode (floatFmt f) (rmOf u)) s

/-- FSUB (R168). -/
def execFsub (a b d r : BitVec 4) (p : BitVec 3) (f : Bool) (u : BitVec 2) (s : State) : Host.Outcome State Fault Refusal :=
  floatForm (.fsub a b d r p f u) p a b d r f (subCode (floatFmt f) (rmOf u)) s

/-- FMUL (R168). -/
def execFmul (a b d r : BitVec 4) (p : BitVec 3) (f : Bool) (u : BitVec 2) (s : State) : Host.Outcome State Fault Refusal :=
  floatForm (.fmul a b d r p f u) p a b d r f (mulCode (floatFmt f) (rmOf u)) s

/-- FSCALE (R168). -/
def execFscale (a b d r : BitVec 4) (p : BitVec 3) (f : Bool) (u : BitVec 2) (s : State) : Host.Outcome State Fault Refusal :=
  floatForm (.fscale a b d r p f u) p a b d r f (scaleCode (floatFmt f) (rmOf u)) s

/-- FMA (R148, R169). As a stateful row it adds the product of two data inputs to the accumulating latch, rounding once. -/
def execFma (a b d r : BitVec 4) (p : BitVec 3) (j f : Bool) (u : BitVec 2) (s : State) : Host.Outcome State Fault Refusal :=
  let fm := floatFmt f
  if j then
    word (.fma a b d r p j f u) (guarded p) noBody
      (fun c s => s.jFire c a b d r fm.tag (ofLanes 512 fm.bits fun _ => 2 ^ (fm.bits - 1)) (fun x _ => x)
        (some fun x y z => mapCodes fm (fmaCode fm (rmOf u)) x y z)) noBody s
  else floatForm3 (.fma a b d r p j f u) p a b d r f (fmaCode fm (rmOf u)) s

/-- FMS (R169). -/
def execFms (a b d r : BitVec 4) (p : BitVec 3) (f : Bool) (u : BitVec 2) (s : State) : Host.Outcome State Fault Refusal :=
  floatForm3 (.fms a b d r p f u) p a b d r f (fmsCode (floatFmt f) (rmOf u)) s

/-- FNMA (R169). -/
def execFnma (a b d r : BitVec 4) (p : BitVec 3) (f : Bool) (u : BitVec 2) (s : State) : Host.Outcome State Fault Refusal :=
  floatForm3 (.fnma a b d r p f u) p a b d r f (fnmaCode (floatFmt f) (rmOf u)) s

/-- FMIN (R148, R170). -/
def execFmin (a b d r : BitVec 4) (p : BitVec 3) (j f : Bool) (s : State) : Host.Outcome State Fault Refusal :=
  floatFormJ (.fmin a b d r p j f) p a b d r j f (floatFmt f).qnan (minMaxCode (floatFmt f) false) s

/-- FMAX (R148, R170). -/
def execFmax (a b d r : BitVec 4) (p : BitVec 3) (j f : Bool) (s : State) : Host.Outcome State Fault Refusal :=
  floatFormJ (.fmax a b d r p j f) p a b d r j f (floatFmt f).qnan (minMaxCode (floatFmt f) true) s

/-- FABS (R168). -/
def execFabs (a d r : BitVec 4) (p : BitVec 3) (f : Bool) (s : State) : Host.Outcome State Fault Refusal :=
  floatForm1 (.fabs a d r p f) p a d r f (fun x => mapCodes (floatFmt f) (fun x _ _ => absCode (floatFmt f) x) x 0 0) s

/-- FNEG (R168). -/
def execFneg (a d r : BitVec 4) (p : BitVec 3) (f : Bool) (s : State) : Host.Outcome State Fault Refusal :=
  floatForm1 (.fneg a d r p f) p a d r f (fun x => mapCodes (floatFmt f) (fun x _ _ => negCode (floatFmt f) x) x 0 0) s

/-- FCLAMP (R168). -/
def execFclamp (a b d r : BitVec 4) (p : BitVec 3) (f : Bool) (s : State) : Host.Outcome State Fault Refusal :=
  floatForm (.fclamp a b d r p f) p a b d r f (clampCode (floatFmt f)) s

/-- FCPYS (R168). -/
def execFcpys (a b d r : BitVec 4) (p : BitVec 3) (f : Bool) (s : State) : Host.Outcome State Fault Refusal :=
  floatForm (.fcpys a b d r p f) p a b d r f (cpysCode (floatFmt f)) s

/-- FSEL (R168). -/
def execFsel (a b d r : BitVec 4) (p : BitVec 3) (c : BitVec 2) (f : Bool) (s : State) : Host.Outcome State Fault Refusal :=
  floatForm (.fsel a b d r p c f) p a b d r f (selCode (floatFmt f) c) s

/-- FRSUM (R109, R171). -/
def execFrsum (a d r : BitVec 4) (p : BitVec 3) (f : Bool) (u : BitVec 2) (s : State) : Host.Outcome State Fault Refusal :=
  floatForm1 (.frsum a d r p f u) p a d r f (sumTree (floatFmt f) (rmOf u)) s

/-- FRSQS (R109, R171). -/
def execFrsqs (a d r : BitVec 4) (p : BitVec 3) (f : Bool) (u : BitVec 2) (s : State) : Host.Outcome State Fault Refusal :=
  floatForm1 (.frsqs a d r p f u) p a d r f (squareTree (floatFmt f) (rmOf u)) s

/-- FRMAX (R109, R171). -/
def execFrmax (a d r : BitVec 4) (p : BitVec 3) (f : Bool) (s : State) : Host.Outcome State Fault Refusal :=
  floatForm1 (.frmax a d r p f) p a d r f (minMaxTree (floatFmt f) true) s

/-- FRMIN (R109, R171). -/
def execFrmin (a d r : BitVec 4) (p : BitVec 3) (f : Bool) (s : State) : Host.Outcome State Fault Refusal :=
  floatForm1 (.frmin a d r p f) p a d r f (minMaxTree (floatFmt f) false) s

/-- VPERM (R146, R173). -/
def execVperm (a b d : BitVec 4) (z : BitVec 2) (s : State) : Host.Outcome State Fault Refusal :=
  word (.vperm a b d z) always noBody
    (fun c s => s.veResult c [a, b] d 0 fun ops => (permute z (opnd ops 0).data (opnd ops 1).data, (opnd ops 0).tag)) noBody s

/-- VBCAST (R146, R173). -/
def execVbcast (a d : BitVec 4) (z : BitVec 2) (x : BitVec 6) (s : State) : Host.Outcome State Fault Refusal :=
  word (.vbcast a d z x) always noBody
    (fun c s => s.veResult c [a] d 0 fun ops => (broadcast z (opnd ops 0).data x.toNat, (opnd ops 0).tag)) noBody s

/-- VSLIDE (R146, R173). -/
def execVslide (a b d : BitVec 4) (z : BitVec 2) (k : BitVec 7) (s : State) : Host.Outcome State Fault Refusal :=
  word (.vslide a b d z k) always noBody
    (fun c s => s.veResult c [a, b] d 0 fun ops =>
      (slide z (opnd ops 0).data (opnd ops 1).data k.toNat, (opnd ops 0).tag)) noBody s

/-- EXP2 (R172). -/
def execExp2 (a d r : BitVec 4) (p : BitVec 3) (f : Bool) (s : State) : Host.Outcome State Fault Refusal :=
  floatForm1 (.exp2 a d r p f) p a d r f (fun x => mapCodes (floatFmt f) (fun x _ _ => exp2Code (floatFmt f) x) x 0 0) s

/-- LOG2 (R172). -/
def execLog2 (a d r : BitVec 4) (p : BitVec 3) (f : Bool) (s : State) : Host.Outcome State Fault Refusal :=
  floatForm1 (.log2 a d r p f) p a d r f (fun x => mapCodes (floatFmt f) (fun x _ _ => log2Code (floatFmt f) x) x 0 0) s

/-- RCP (R172). -/
def execRcp (a d r : BitVec 4) (p : BitVec 3) (f : Bool) (s : State) : Host.Outcome State Fault Refusal :=
  floatForm1 (.rcp a d r p f) p a d r f (fun x => mapCodes (floatFmt f) (fun x _ _ => rcpCode (floatFmt f) x) x 0 0) s

/-- RSQRT (R172). -/
def execRsqrt (a d r : BitVec 4) (p : BitVec 3) (f : Bool) (s : State) : Host.Outcome State Fault Refusal :=
  floatForm1 (.rsqrt a d r p f) p a d r f (fun x => mapCodes (floatFmt f) (fun x _ _ => rsqrtCode (floatFmt f) x) x 0 0) s

/-- TANH (R172). -/
def execTanh (a d r : BitVec 4) (p : BitVec 3) (f : Bool) (s : State) : Host.Outcome State Fault Refusal :=
  floatForm1 (.tanh a d r p f) p a d r f (fun x => mapCodes (floatFmt f) (fun x _ _ => tanhCode (floatFmt f) x) x 0 0) s

/-- FSQRT (R168). -/
def execFsqrt (a d r : BitVec 4) (p : BitVec 3) (f : Bool) (u : BitVec 2) (s : State) : Host.Outcome State Fault Refusal :=
  floatForm1 (.fsqrt a d r p f u) p a d r f (fun x => mapCodes (floatFmt f) (fun x _ _ => sqrtCode (floatFmt f) (rmOf u) x) x 0 0) s

/-- FRINT (R168). -/
def execFrint (a d r : BitVec 4) (p : BitVec 3) (f : Bool) (u : BitVec 2) (s : State) : Host.Outcome State Fault Refusal :=
  floatForm1 (.frint a d r p f u) p a d r f (fun x => mapCodes (floatFmt f) (fun x _ _ => rintCode (floatFmt f) (rmOf u) x) x 0 0) s

end Sys2Proof.Machine
end

