-- ==== Sys2Proof/Machine/Memory.lean ====
section
/-! DEFINITION. The local physical address space: which unit is home to an address, bytes, versions, poison and staging (R70 to R73,
R79 to R88, R439, R443, R444). -/

namespace Sys2Proof.Machine

/-- R70, R71: the home of a local physical address. -/
inductive Home where
  | hbm (slice : Nat)
  | scratch (core : Nat)
  | tile (n : Nat)
  | unpopulated
  deriving DecidableEq, Repr

def hbmEnd : Nat := 0x6000000000

def scratchBase : Nat := 0x8000000000

def tileBase : Nat := 0x8010000000

/-- R72: the package L2 slice of an HBM address. -/
def sliceOf (a : Nat) : Nat := (a / 256 % 64) ^^^ (a / 16384 % 64)

/-- R70 Table 3. -/
def homeOf (a : Nat) : Home :=
  if a < hbmEnd then .hbm (sliceOf a)
  else if scratchBase ≤ a ∧ a < scratchBase + 1536 * 0x20000 then .scratch ((a - scratchBase) / 0x20000)
  else if tileBase ≤ a ∧ a < tileBase + 256 * 0x80000 then .tile ((a - tileBase) / 0x80000)
  else .unpopulated

def inHbm (a : Nat) : Bool := decide (a < hbmEnd)

def scratchAt (core off : Nat) : Nat := scratchBase + core * 0x20000 + off

def tileAt (tile off : Nat) : Nat := tileBase + tile * 0x80000 + off

/-- R86: staging units: one number for each, and how many entries it has. -/
def stagingUnit (a : Nat) : Nat × Nat :=
  match homeOf a with
  | .scratch n => (n, 32)
  | .tile m => (2000 + m, 256)
  | .hbm x => (3000 + x, 256)
  | .unpopulated => (4000, 0)

/-! ### Bytes -/

/-- The byte at a local physical address; one that nothing has written reads zero (log 7). -/
def Mem.byte (m : Mem) (a : Nat) : Byte := look 0 m.bytes a

def Mem.setByte (m : Mem) (a : Nat) (v : Byte) : Mem := { m with bytes := put 0 m.bytes a v }

/-- R3: the `w` bytes at `a`, the lowest address least significant. -/
def Mem.read (m : Mem) (a : Nat) : Nat → BitVec 512
  | 0 => 0
  | w + 1 => (m.read (a + 1) w) <<< 8 ||| (m.byte a).setWidth 512

def Mem.write (m : Mem) (a : Nat) : Nat → BitVec 512 → Mem
  | 0, _ => m
  | w + 1, v => (m.setByte a (v.setWidth 8)).write (a + 1) w (v >>> 8)

/-- A canonical memory: rising addresses, and no byte that is listed reads as an unlisted one. -/
abbrev Mem.wf (m : Mem) : Prop := Tab.wf (0 : Byte) m.bytes = true

def lineOf (a : Nat) : Nat := a / 64

def Mem.ver (m : Mem) (line : Nat) : BitVec 16 := look 0 m.vers line

def Mem.setVer (m : Mem) (line : Nat) (v : BitVec 16) : Mem := { m with vers := put 0 m.vers line v }

/-- R80. -/
def verGe (a b : BitVec 16) : Bool := decide ((a - b).toNat < 32768)

/-- R80: before, that is neither equal, after nor incomparable. -/
def verAfter (a b : BitVec 16) : Bool := decide (0 < (a - b).toNat) && decide ((a - b).toNat < 32768)

/-! ### Poison (R442 to R444, R389, R412) -/

def frameOf (a : Nat) : Nat := a / 32768

def blockOf (a : Nat) : Nat := a / 512

/-- R389, R443: whether a line's data is lost: an HBM block that no scrub or write has cleared, or a poisoned line. -/
def Mem.poisoned (m : Mem) (a : Nat) : Bool :=
  if inHbm a then
    !look false m.clean (blockOf a) || look false m.badL2 (lineOf a) || m.retired.contains (frameOf a)
  else look false m.bad (lineOf a)

/-- R412: the whole scratchpad of a failed core is poisoned, and stays so. -/
def State.lostScratch (s : State) (a : Nat) : Bool :=
  match homeOf a with
  | .scratch n => (s.core n).failed
  | _ => false

/-- R443: whether reading an address raises kind 0x12. -/
def State.unreadable (s : State) (a : Nat) : Bool := s.lostScratch a || s.mem.poisoned a

/-- R443: whether a write of `w` bytes raises kind 0x12: a whole line may be written over a poisoned on-die line. -/
def State.unwritable (s : State) (a w : Nat) : Bool :=
  s.lostScratch a || (s.mem.poisoned a && (inHbm a || w != 64))

/-- R445: an error log entry, or one more lost when the log is full. -/
def Mem.report (m : Mem) (e : ErrEntry) : Mem :=
  if m.log.length < 64 then { m with log := m.log ++ [e] }
  else { m with lost := if m.lost = 0xFFFF then m.lost else m.lost + 1 }

/-- An MSI-X message of a function to the host. A quiescing function's messages are discarded (R463), and none leaves for a vector that the
function does not have: 64 are the PF's and 4 a VF's (R367, log 146). -/
def State.interrupt (s : State) (f vec : Nat) : State :=
  if (look {} s.host.fns f : Fn).qsc ∨ (if f = 0 then 64 else 4) ≤ vec then s
  else { s with host := { s.host with msix := s.host.msix ++ [(f, vec)] } }

/-- R390, R463: whether the host reaches the registers of the package: they stand behind the BARs in stage 2, and the PF's ignore writes
while it is quiescing. -/
def State.barOpen (s : State) : Bool := s.mgmt.stage == 2 && !(look {} s.host.fns 0 : Fn).qsc

/-- R445: writes an error log entry and tells the PF when the log was empty. -/
def State.logError (s : State) (reason : BitVec 3) (part : BitVec 7) (a : Nat) : State :=
  let s' := { s with mem := s.mem.report { reason := reason, part := part, addr := BitVec.ofNat 46 a } }
  if s.mem.log.isEmpty then s'.interrupt 0 2 else s'

/-! ### Staging (R82 to R88) -/

/-- The entries of a staging unit, and those of one partition in it. -/
def Mem.stagedIn (m : Mem) (unit : Nat) : List Staged := m.staged.filter fun e => (stagingUnit (64 * e.line)).1 == unit

/-- R86, R439: whether the unit that is home to `a` has a free entry for a partition. -/
def Mem.room (m : Mem) (a : Nat) (part : BitVec 7) : Bool :=
  let u := stagingUnit a
  let l := m.stagedIn u.1
  decide (l.length < u.2) &&
  (!inHbm a || decide ((l.filter fun e => e.iss.part == part).length < 64))

/-- R256: PHASE of a barrier line. -/
def Mem.phase (m : Mem) (line : Nat) : BitVec 16 := (m.read (64 * line) 2).setWidth 16

/-- R84, R85, R258: what a waiting entry is answered after a write to its line, if it is. -/
def Mem.answerOf (m : Mem) (e : Staged) : Option Answer :=
  let c := m.ver e.line
  match e.op with
  | .store _ _ _ _ => none
  | .load off w x => if verGe c x then some { data := m.read (64 * e.line + off) w, ver := c } else none
  | .exact off w x =>
    if c = x then some { data := m.read (64 * e.line + off) w, ver := c }
    else if verAfter c x then
      some { ver := c, fault := some (0x14, (6#8 ++ (0#24 ++ (x ++ c)) : W64)) }
    else none
  | .phase q => if verGe (m.phase e.line) (q + 1) then some { ver := m.phase e.line } else none

def StagedOp.isStore : StagedOp → Bool
  | .store _ _ _ _ => true
  | .load _ _ _ => false
  | .exact _ _ _ => false
  | .phase _ => false

/-- R84, R258: moves the entries that the last write to a line satisfied to those answered in the following cycle. -/
def Mem.satisfy (m : Mem) (line : Nat) : Mem :=
  let hit (e : Staged) : Option Due :=
    if e.line = line then (m.answerOf e).map fun a => { staged := e, answer := a } else none
  { m with staged := m.staged.filter (fun e => (hit e).isNone), due := m.due ++ m.staged.filterMap hit }

/-- R83: a parked store to the line with the next version. -/
def Mem.nextParked (m : Mem) (line : Nat) : Option Staged :=
  m.staged.find? fun e => e.line == line && match e.op with
    | .store _ _ v _ => v == m.ver line + 1
    | _ => false

/-- R320: the tail word that a write has left in a doorbell line. -/
def Mem.ring (m : Mem) (line : Nat) : Mem :=
  match look none m.bells line with
  | some w =>
    let v : W64 := (m.read (64 * line) 8).setWidth 64
    if w.ult v then { m with bells := put none m.bells line (some v) } else m
  | none => m

/-- R83, R84, R320: after a write to a line: answers are fixed, a chain is noted, and a doorbell has rung. -/
def Mem.afterWrite (m : Mem) (line : Nat) : Mem :=
  let m1 := (m.ring line).satisfy line
  if (m1.nextParked line).isSome then { m1 with chain := line :: m1.chain.filter (· != line) }
  else { m1 with chain := m1.chain.filter (· != line) }

/-- R81: a plain write of `w` bytes inside one line that advances the version of a versioned line by one. A write to a page whose
lines are not versioned leaves an undefined version (R79), the free value `fresh`. A whole line written over a poisoned on-die line
clears the poison and sets version 0 (R443). -/
def Mem.plainWrite (m : Mem) (a w : Nat) (v : BitVec 512) (ver : Bool) (fresh : BitVec 16) : Mem :=
  let line := lineOf a
  let mended := !inHbm a && look false m.bad line
  let m1 := m.write a w v
  if mended then ({ m1 with bad := put false m1.bad line false }.setVer line 0).afterWrite line
  else if ver then (m1.setVer line (m.ver line + 1)).afterWrite line
  else (m1.setVer line fresh).ring line

/-- R82, R83: applies a versioned store of the next version. -/
def Mem.versionedWrite (m : Mem) (a w : Nat) (v : BitVec 512) (n : BitVec 16) : Mem :=
  ((m.write a w v).setVer (lineOf a) n).afterWrite (lineOf a)

/-- R83: applies the parked store that continues a chain. -/
def Mem.chainStep (m : Mem) (line : Nat) : Mem :=
  match m.nextParked line with
  | some e => match e.op with
    | .store off w v data =>
      { m with staged := m.staged.filter fun x => !(x == e) }.versionedWrite (64 * line + off) w data v
    | _ => m
  | none => { m with chain := m.chain.filter (· != line) }

/-- Applies a pending chain of a line to its end: an access that arrives meanwhile is ordered after it (R88). -/
def Mem.settleChain (m : Mem) (line : Nat) : Mem :=
  if m.chain.contains line then (List.range (m.staged.length + 1)).foldl (fun x _ => x.chainStep line) m else m

/-- R443: an entry that waits on a line when it is poisoned is answered with kind 0x12. -/
def Mem.poisonWaits (m : Mem) (line : Nat) : Mem :=
  let hit (e : Staged) : Option Due :=
    if e.line = line ∧ !e.op.isStore then some { staged := e, answer := { fault := some (0x12, e.ea) } } else none
  { m with staged := m.staged.filter (fun e => (hit e).isNone), due := m.due ++ m.staged.filterMap hit }

/-- R442: poisons a line of a memory tile or scratchpad. -/
def Mem.poisonLine (m : Mem) (line : Nat) : Mem := { m with bad := put false m.bad line true }.poisonWaits line

/-- R442: poisons an HBM block. -/
def Mem.poisonBlock (m : Mem) (block : Nat) : Mem :=
  (List.range 8).foldl (fun x k => x.poisonWaits (8 * block + k)) { m with clean := put false m.clean block false }

/-! ### Atomics (R249, R250) -/

/-- The new value of an atomic, when it writes. -/
def atomNew (op : Atom) (w : Nat) (old v e : BitVec 64) : Option (BitVec 64) :=
  let cut (x : BitVec 64) : BitVec 64 := x.setWidth (8 * w) |>.setWidth 64
  let v := cut v
  match op with
  | .add => some (cut (old + v))
  | .and => some (old &&& v)
  | .or => some (old ||| v)
  | .xor => some (old ^^^ v)
  | .swap => some v
  | .cas => if old = cut e then some v else none
  | .maxu => if old.toNat < v.toNat then some v else none
  | .fadd => some (BitVec.ofNat 64 (addCode .fp32 .rne (old.setWidth 32 : BitVec 32).toNat (v.setWidth 32 : BitVec 32).toNat))

end Sys2Proof.Machine
end

