-- ==== Sys2Proof/Machine/Translate.lean ====
section
/-! DEFINITION. Effective addresses and their translation (R68, R69, R73, R92 to R98). -/

namespace Sys2Proof.Machine

/-- R95: what an access needs of its page. -/
structure Need where
  rd : Bool := false
  wr : Bool := false
  ver : Bool := false
  deriving DecidableEq, Repr

/-- A refused access: the kind of its fault, and whether its cause is Not mapped or Access denied (R95, R233). -/
structure Refused where
  kind : BitVec 8
  deriving DecidableEq, Repr

/-- R233: the causes for which a plain store is parked. -/
def Refused.parks (r : Refused) : Bool := r.kind == 0x08 || r.kind == 0x09

/-- R97: the translation cache of a stream island; those of the ingresses are numbered by cluster, and Cobalt's is 16. -/
def siUnit (si : Nat) : Nat := 17 + si

/-! ### Table entries (R93, R94) -/

def pteV (e : W64) : Bool := e.getLsbD 63
def pteLeaf (e : W64) : Bool := e.getLsbD 62
def pteRd (e : W64) : Bool := e.getLsbD 61
def pteWr (e : W64) : Bool := e.getLsbD 60
def pteOo (e : W64) : Bool := e.getLsbD 59
def pteVer (e : W64) : Bool := e.getLsbD 58
def pteCache (e : W64) : BitVec 2 := e.extractLsb' 56 2
def pteKey (e : W64) : BitVec 12 := e.extractLsb' 44 12
def pteChip (e : W64) : Nat := (e.extractLsb' 32 12).toNat
def ptePart (e : W64) : BitVec 7 := e.extractLsb' 25 7
def pteFrame (e : W64) : Nat := (e.extractLsb' 0 25).toNat

/-- R92: bytes mapped by a leaf at a level. -/
def pageBytes (level : Nat) : Nat := match level with
  | 1 => 2 ^ 39
  | 2 => 2 ^ 27
  | _ => 2 ^ 15

/-- R92: the index of an address in a table of a level. -/
def vaIndex (va level : Nat) : Nat := va / pageBytes level % 4096

/-- R95: a non-leaf entry that is not well made, or a leaf that is not. -/
def badEntry (e : W64) (level : Nat) : Bool :=
  if pteLeaf e then
    pteCache e == 3 || (level == 2 && pteFrame e % 4096 != 0) || (level == 1 && pteFrame e != 0) ||
    (pteOo e && !inHbm (pteFrame e * 32768))
  else level == 3 || (e &&& 0x3FFFFFFFFE000000) != 0

/-- An eight-byte entry of the local HBM; a poisoned one is kind 0x12 (R443). A table pointer that is unaligned or leads outside HBM
reads what stands there (log 138). -/
def State.entryAt (s : State) (a : Nat) : Except (BitVec 8) W64 :=
  if s.unreadable a then .error 0x12 else .ok ((s.mem.read a 8).setWidth 64)

/-- R93: the ASID table entry. -/
def State.asidEntry (s : State) (asid : BitVec 16) : Except (BitVec 8) W64 :=
  s.entryAt ((s.host.asidBase.toNat + 8 * asid.toNat) % 2 ^ 46)

/-- R92, R95: walks the tables from the one at `frame` down to a leaf: the leaf and its level. -/
def State.walkFrom (s : State) (va frame : Nat) : List Nat → Except (BitVec 8) (W64 × Nat)
  | [] => .error 0x0A
  | level :: rest =>
    match s.entryAt (frame * 32768 + 8 * vaIndex va level) with
    | .error k => .error k
    | .ok e =>
      if !pteV e then .error 0x08
      else if badEntry e level then .error 0x0A
      else if pteLeaf e then .ok (e, level)
      else s.walkFrom va (pteFrame e) rest

def State.walk (s : State) (asid : BitVec 16) (va : Nat) : Except (BitVec 8) (W64 × Nat) :=
  match s.asidEntry asid with
  | .error k => .error k
  | .ok e => if pteV e then s.walkFrom va (pteFrame e) [1, 2, 3] else .error 0x08

/-- R97: the leaf that a translation cache holds for an address. -/
def State.cachedLeaf (s : State) (unit : Nat) (asid : BitVec 16) (va : Nat) : Option (W64 × Nat) :=
  (s.mem.tlb.find? fun e => e.unit == unit && e.asid == asid && e.vpn * 32768 / pageBytes e.level == va / pageBytes e.level).map
    fun e => (e.pte, e.level)

/-- R97: a cached leaf, or else the walk's. -/
def State.leafOf (s : State) (unit : Nat) (asid : BitVec 16) (va : Nat) : Except (BitVec 8) (W64 × Nat) :=
  match s.cachedLeaf unit asid va with
  | some x => .ok x
  | none => s.walk asid va

/-- R95: VER is ignored where the frame lies in a scratchpad or memory tile. -/
def onDie (la : Nat) : Bool := match homeOf la with
  | .scratch _ => true
  | .tile _ => true
  | _ => false

/-- R71, R94: where a leaf maps an address. -/
def targetOf (e : W64) (level va : Nat) : Target :=
  let size := pageBytes level
  let la := pteFrame e * 32768 + va % size
  { chip := pteChip e, la := la, ver := pteVer e || onDie la, key := some (pteKey e),
    cached := inHbm la && (pteCache e == 0 || pteCache e == 1), first := pteCache e == 1, oo := pteOo e, page := va / size * size, size := size }

/-- R95: the checks of a leaf, in the order of Table 8. `ooOk` holds on the one path that reaches operand-only pages (R96). -/
def leafCheck (e : W64) (t : Target) (part : BitVec 7) (n : Need) (ooOk : Bool) : Option (BitVec 8) :=
  if (n.rd && !pteRd e) || (n.wr && !pteWr e) then some 0x09
  else if ptePart e != part then some 0x0B
  else if n.ver && !t.ver then some 0x0C
  else if pteOo e && !ooOk then some 0x0D
  else none

/-- R68 Table 2, R69: whether an effective address has a legal form for its issuer. -/
def eaLegal (who : Actor) (ea : W64) : Bool :=
  match (ea.extractLsb' 60 4).toNat with
  | 0 => ea.extractLsb' 51 9 == 0
  | 8 => ea.extractLsb' 17 43 == 0 && match who with
    | .ve _ => true
    | _ => false
  | 9 => ea.extractLsb' 24 36 == 0 && decide ((ea.extractLsb' 17 7).toNat < 96)
  | 10 => ea.extractLsb' 23 37 == 0
  | _ => false

def State.chipId (s : State) : Nat := s.links.chip.toNat

/-- R68, R69, R73, R92 to R96: resolves an access of `w` aligned bytes. -/
def State.resolve (s : State) (unit : Nat) (iss : Issuer) (ea : W64) (w : Nat) (n : Need) (ooOk : Bool := false) :
    Except (BitVec 8) Target :=
  if !eaLegal iss.who ea then .error 0x06
  else if ea.toNat % w != 0 then .error 0x07
  else
    let off := (ea.setWidth 60 : BitVec 60).toNat
    match (ea.extractLsb' 60 4).toNat with
    | 0 =>
      match s.leafOf unit iss.asid off with
      | .error k => .error k
      | .ok (e, level) =>
        let t := targetOf e level off
        match leafCheck e t iss.part n ooOk with
        | some k => .error k
        | none => .ok t
    | 8 => .ok { chip := s.chipId, la := scratchAt iss.core off, ver := true }
    | 9 =>
      let c := 96 * iss.cluster + off / 0x20000
      if look 0 s.brass.coreOf c = iss.part then .ok { chip := s.chipId, la := scratchAt c (off % 0x20000), ver := true }
      else .error 0x0B
    | _ =>
      let t := 16 * iss.cluster + off / 0x80000
      if look 0 s.brass.tileOf t = iss.part then .ok { chip := s.chipId, la := tileAt t (off % 0x80000), ver := true }
      else .error 0x0B

/-- R95: the key table check of the home chip: no key is asked of a local-window access. -/
def State.keyCheck (s : State) (key : Option (BitVec 12)) (part : BitVec 7) : Bool :=
  match key with
  | none => true
  | some k =>
    let e := look {} s.sec.keys k.toNat
    e.v && e.part == part

/-- R359: the mark a block carries when written under a key. -/
def State.keyMark (s : State) (key : Option (BitVec 12)) : Nat :=
  match key with
  | none => 0
  | some k => 4096 * (look {} s.sec.keys k.toNat).gen + k.toNat + 1

/-- R359: whether a block's MAC matches under a key. -/
def State.macMatches (s : State) (a : Nat) (key : Option (BitVec 12)) : Bool :=
  !inHbm a || look 0 s.mem.keyOf (blockOf a) == s.keyMark key

end Sys2Proof.Machine
end

