-- ==== Sys2Proof/Machine/Home.lean ====
section
/-! DEFINITION. What a home unit does with an access that reaches it (R81 to R88, R230 to R232, R250, R256, R443). -/

namespace Sys2Proof.Machine

/-- What becomes of an access at its home. -/
inductive AtHome where
  | answered (s : State) (a : Answer)
  /-- It waits there in a staging entry. -/
  | staged (s : State)
  /-- R231: its line is held by a commit group. -/
  | held
  /-- R251: the unit at the home goes on with another access, at this target and address. -/
  | further (s : State) (t : Target) (ea : W64) (op : MemOp)
  deriving DecidableEq, Repr

/-- Bytes that an operation reaches from its address, and whether it reads and writes them. -/
def opWidth (op : MemOp) : Nat := match op with
  | .load w => w
  | .store w _ => w
  | .zero => 64
  | .lineWrite _ _ => 64
  | .loadVer w _ => w
  | .loadExact w _ => w
  | .storeVer w _ _ => w
  | .readVer => 64
  | .reclaim _ => 64
  | .atom _ w _ _ => w
  | .arrive _ => 64
  | .expect _ => 64
  | .phase _ => 64
  | .copy _ => 64
  | .group _ w _ => w
  | .near _ => 64
  | .prefetch => 64

/-- R95: the permissions of each operation. -/
def opNeed (op : MemOp) : Need := match op with
  | .load _ => { rd := true }
  | .store _ _ => { wr := true }
  | .zero => { wr := true }
  | .lineWrite _ _ => { wr := true }
  | .loadVer _ _ => { rd := true, ver := true }
  | .loadExact _ _ => { rd := true, ver := true }
  | .storeVer _ _ _ => { wr := true, ver := true }
  | .readVer => { rd := true, ver := true }
  | .reclaim _ => { wr := true, ver := true }
  | .atom _ _ _ _ => { rd := true, wr := true }
  | .arrive _ => { rd := true, wr := true }
  | .expect _ => { rd := true, wr := true }
  | .phase _ => { rd := true }
  | .copy _ => { rd := true }
  | .group _ _ _ => { wr := true }
  | .near (.chase _) => { rd := true }
  | .near (.chaseKey _ _ _) => { rd := true }
  | .near (.chaseLink _ _ _) => { rd := true }
  | .near _ => { rd := true, wr := true }
  | .prefetch => { rd := true }

/-- R443: whether an operation reads data, so that a poisoned line ends it. RECL leaves data unchanged and reads none. -/
def opReads (op : MemOp) : Bool := match op with
  | .store _ _ => false
  | .zero => false
  | .lineWrite _ _ => false
  | .storeVer _ _ _ => false
  | .reclaim _ => false
  | .group _ _ _ => false
  | .near _ => false
  | _ => true

def opWrites (op : MemOp) : Bool := match op with
  | .store _ _ => true
  | .zero => true
  | .lineWrite _ _ => true
  | .storeVer _ _ _ => true
  | .atom _ _ _ _ => true
  | .arrive _ => true
  | .expect _ => true
  | _ => false

def opIsBarrier (op : MemOp) : Bool := match op with
  | .arrive _ => true
  | .expect _ => true
  | .phase _ => true
  | _ => false

/-- A near-memory operation. -/
def opIsNear (op : MemOp) : Bool := match op with
  | .near _ => true
  | _ => false

/-- A versioned store. -/
def opIsStv (op : MemOp) : Bool := match op with
  | .storeVer _ _ _ => true
  | _ => false

/-- R443: the bytes of its line that a write covers. -/
def opCovers (op : MemOp) : Nat := match op with
  | .lineWrite m _ => if m = BitVec.allOnes 64 then 64 else 1
  | _ => opWidth op

/-- The bits of a line that a byte mask names. -/
def maskBits (m : BitVec 64) : BitVec 512 :=
  (List.range 64).foldl (fun (x : BitVec 512) k => if m.getLsbD k then x ||| (0xFF#512 <<< (8 * k)) else x) 0

/-- The refusals at the home before any effect: an unpopulated address, a barrier outside the memory tiles (R255), the key table
(R95), a retired frame, which no access of any kind reaches (R444), and lost data (R443, R359). -/
def State.homeRefusal (s : State) (t : Target) (part : BitVec 7) (op : MemOp) : Option (BitVec 8) :=
  match homeOf t.la with
  | .unpopulated => some 0x06
  | h =>
    if opIsBarrier op && !(match h with
      | .tile _ => true
      | _ => false) then some 0x06
    else if !s.keyCheck t.key part then some 0x0B
    else if inHbm t.la && s.mem.retired.contains (frameOf t.la) then some 0x12
    else if (opReads op && s.unreadable t.la) || (opWrites op && s.unwritable t.la (opCovers op)) then some 0x12
    else if (opReads op || opWrites op) && !s.macMatches t.la t.key then some 0x12
    else none

/-! ### L2 (R89, R90) -/

/-- R89: the slice and set that cache a line. -/
def l2Place (line : Nat) : Nat × Nat := (sliceOf (64 * line), Config.l2Set line % 4096)

/-- R90: the ways in which a partition's lines are allocated: all of 0 to 14, or those of its mask. -/
def State.waysOf (s : State) (part : BitVec 7) : List Nat :=
  (List.range 15).filter fun w => !s.mem.l2mode || (look {} s.brass.parts part.toNat : Part).ways.getLsbD w

/-- R89, R90: whether an access leaves its line in L2. -/
def State.allocates (s : State) (t : Target) (part : BitVec 7) : Bool := t.cached && !(s.waysOf part).isEmpty

/-- R89, R90, R94: the cache once it holds a line: in the way where it stands, in a free way of the partition, or in that of a line which
leaves, one to be evicted first where there is such a line. A line newer than HBM then leaves for it (`State.writeLeaving`). -/
def State.l2With (s : State) (t : Target) (part : BitVec 7) (newer : Bool) : Tab L2Line :=
  let line := lineOf t.la
  let old := look {} s.mem.l2 line
  let new (w : Nat) : L2Line := { part := part, cached := true, dirty := old.dirty || newer, way := w, first := t.first }
  if old.cached && !old.leaving then put {} s.mem.l2 line { old with dirty := old.dirty || newer }
  else
    let ways := s.waysOf part
    let here := s.mem.l2.filter fun e => e.2.cached && !e.2.leaving && l2Place e.1 == l2Place line && ways.contains e.2.way
    match ways.find? fun w => !(here.any (·.2.way == w)) with
    | some w => put {} s.mem.l2 line (new w)
    | none =>
      let out := if here.any (·.2.first) then here.filter (·.2.first) else here
      match out[Config.l2Victim s.cycle.toNat line % out.length]? with
      | some (v, x) => put {} (put {} s.mem.l2 v (if x.dirty then { x with leaving := true } else {})) line (new x.way)
      | none => s.mem.l2

/-- A line that has been read or written at its home stands in L2 afterwards; a written one is newer there than in HBM. -/
def State.cache (s : State) (t : Target) (part : BitVec 7) (newer : Bool) : State :=
  if s.allocates t part then { s with mem := { s.mem with l2 := s.l2With t part newer } } else s

/-- Gives the first `k` lines of a frame free values as versions. -/
def State.giveVersions (s : State) (f k : Nat) : State :=
  (List.range k).foldl (fun (u : State) k =>
    { u with free := u.free + 1, mem := u.mem.setVer (512 * f + k) (Config.freeVersion u.free) }) s

/-- R79: the lines of a frame, which have no versions under VER = 0, have undefined ones when they are first reached under VER = 1: free
values (log 32). -/
def State.noteVersions (s : State) (t : Target) : State :=
  let f := frameOf t.la
  if !inHbm t.la then s
  else if !t.ver then { s with mem := { s.mem with unver := put false s.mem.unver f true } }
  else if look false s.mem.unver f then
    ({ s with mem := { s.mem with unver := put false s.mem.unver f false } } : State).giveVersions f 512
  else s

/-- Replaces the memory. -/
def State.setMem (s : State) (m : Mem) : State := { s with mem := m }

/-- R442: writes lines of L2 back to HBM: the block of one that was lost in L2 is poisoned. -/
def State.writeBack (s : State) (lines : List Nat) : State :=
  lines.foldl (fun (u : State) l =>
    let m := { u.mem with l2 := put {} u.mem.l2 l {} }
    u.setMem (if look false m.badL2 l then { m with badL2 := put false m.badL2 l false }.poisonBlock (l / 8) else m)) s

/-- R89, R442: evicted lines that are newer than HBM reach it in the next clock period. -/
def State.writeLeaving (s : State) : State := s.writeBack ((s.mem.l2.filter (·.2.leaving)).map (·.1))

/-- A plain write of `w` bytes at a target, one line at most (R81). -/
def State.plainAt (s : State) (t : Target) (part : BitVec 7) (w : Nat) (v : BitVec 512) : State :=
  let fresh := Config.freeVersion s.free
  let s1 := if t.ver then s else { s with free := s.free + 1 }
  (s1.setMem (s1.mem.plainWrite t.la w v t.ver fresh)).cache t part true

/-- R87: a reclaim: how many entries it ended, and what it leaves. Its answers carry the outcome and nothing else (log 33). -/
def Mem.reclaim (m : Mem) (line : Nat) (b : BitVec 16) : Mem × Nat :=
  let here := m.staged.filter (·.line == line)
  let dues := (here.filter fun e => !e.op.isStore).map fun e => ({ staged := e, answer := { code := 5 } } : Due)
  ({ m with staged := m.staged.filter (·.line != line), due := m.due ++ dues, chain := m.chain.filter (· != line) }.setVer line b,
   here.length)

/-- Registers a waiting access in its home's staging buffer. -/
def State.stage (s : State) (t : Target) (iss : Issuer) (entry : Option Nat) (ea : W64) (status : Bool) (op : StagedOp) : State :=
  s.setMem { s.mem with staged := s.mem.staged ++
    [({ line := lineOf t.la, op := op, iss := iss, entry := entry, ea := ea, status := status } : Staged)] }

/-- R256: the pending count and the expected arrivals of a barrier line. -/
def Mem.pending (m : Mem) (line : Nat) : Nat := (m.read (64 * line + 4) 4).toNat

def Mem.barrierInit (m : Mem) (line : Nat) : Nat := (m.read (64 * line + 8) 4).toNat

/-- R256 ARRIVE: PHASE before, and the line after, or an overrun. -/
def State.arriveAt (s : State) (t : Target) (n : Nat) : State × Answer :=
  let line := lineOf t.la
  let m := s.mem
  let r := m.phase line
  if m.pending line < n then (s, { code := 12 })
  else
    let left := m.pending line - n
    let m1 := if left = 0 then
        ((m.write t.la 2 ((r + 1).setWidth 512)).write (t.la + 4) 4 (BitVec.ofNat 512 (m.barrierInit line)))
      else m.write (t.la + 4) 4 (BitVec.ofNat 512 left)
    (s.setMem ((m1.setVer line (m.ver line + 1)).afterWrite line), { ver := r })

/-- R256 EXPECT; R257: its cycle is kept. -/
def State.expectAt (s : State) (t : Target) (n : Nat) : State × Answer :=
  let line := lineOf t.la
  let m := s.mem
  let left := Nat.min (m.pending line + n) (2 ^ 32 - 1)
  let m1 := ((m.write (t.la + 4) 4 (BitVec.ofNat 512 left)).setVer line (m.ver line + 1)).afterWrite line
  (s.setMem { m1 with expected := put 0 m1.expected line (s.cycle.toNat + 1) }, { ver := m.phase line })

/-- R82 Table 5: a versioned store at its home. -/
def State.storeVerAt (s : State) (t : Target) (iss : Issuer) (entry : Option Nat) (ea : W64) (w : Nat) (v : BitVec 16) (data : BitVec 512) :
    State × Answer :=
  let line := lineOf t.la
  let c := s.mem.ver line
  let d := (v - c).toNat
  if d = 1 then
    -- R443: a whole line over a poisoned on-die line clears the poison and sets version 0
    if !inHbm t.la && look false s.mem.bad line then (s.plainAt t iss.part w data, { ver := 0 })
    else ((s.setMem (s.mem.versionedWrite t.la w data v)).cache t iss.part true, { ver := v })
  else if d = 0 ∨ 32768 < d then (s, { ver := c, code := 2 })
  else if d = 32768 then (s, { ver := c, code := 4 })
  else if s.mem.room t.la iss.part then
    -- R305: another chip is told when the store is performed
    (s.stage t iss (if iss.chip.isSome then entry else none) ea false (.store (t.la % 64) w v data), { ver := c, code := 1 })
  else (s, { ver := c, code := 3 })

/-! ### Near-memory operations (R251 to R254, R449) -/

/-- R251: the page that a near-memory request carries, and the address it was translated from. -/
structure Nmu where
  page : Target
  base : W64
  deriving DecidableEq, Repr

/-- Where an address inside the page lies. -/
def Nmu.field (u : Nmu) (va : W64) : Option Target :=
  if u.page.page ≤ va.toNat ∧ va.toNat < u.page.page + u.page.size then
    some { u.page with la := u.page.la + va.toNat - u.base.toNat }
  else none

/-- R251: where a pointer of the operation leads; none when it is not 8-byte aligned or leaves the page. -/
def Nmu.at (u : Nmu) (va : W64) : Option Target := if va.toNat % 8 = 0 then u.field va else none

/-- R443, R449: a field read or written by an NMU: the kind of its refusal. -/
def State.nmuBad (s : State) (t : Target) (part : BitVec 7) : Option (BitVec 8) := s.homeRefusal t part (.load 8)

/-- R231: whether a line of the operation is held. -/
def State.lineHeld (s : State) (t : Target) : Bool := (look none s.mem.held (lineOf t.la)).isSome

/-- R252. -/
def State.mcasAt (s : State) (t : Target) (part : BitVec 7) (n : Nat) (expected new : BitVec 256) (ea : W64) : AtHome :=
  match s.nmuBad t part with
  | some kind => .answered s { fault := some (kind, ea) }
  | none =>
    let cur := s.mem.read t.la (8 * n)
    if cur = expected.setWidth 512 then .answered (s.plainAt t part (8 * n) (new.setWidth 512)) {}
    else .answered (s.cache t part false) { data := cur, code := 7 }

/-- R253, R449: the first action of ENQ, at the descriptor. -/
def State.enqAt (s : State) (u : Nmu) (part : BitVec 7) (node : W64) : AtHome :=
  let d := u.page
  match s.nmuBad d part with
  | some kind => .answered s { fault := some (kind, u.base) }
  | none =>
    let tail : W64 := (s.mem.read (d.la + 8) 8).setWidth 64
    let count := (s.mem.read (d.la + 16) 4).toNat
    if (s.mem.read (d.la + 20) 4).toNat ≤ count then .answered s { code := 8 }
    else match u.at node, (if tail = 0 then some d else u.at tail) with
    | some nt, some _ =>
      let head : W64 := if tail = 0 then node else (s.mem.read d.la 8).setWidth 64
      let line : BitVec 160 := BitVec.ofNat 32 (count + 1) ++ (node ++ head)
      .further (s.plainAt d part 20 (line.setWidth 512)) nt node (.near (.enqNode node tail))
    | _, _ => .answered s { code := 9 }

/-- R253: the second action: the node's link; the third follows when the list was not empty. -/
def State.enqNodeAt (s : State) (u : Nmu) (part : BitVec 7) (node tail : W64) : AtHome :=
  match s.nmuBad u.page part with
  | some kind => .answered s { fault := some (kind, node) }
  | none =>
    let s1 := s.plainAt u.page part 8 0
    match (if tail = 0 then none else u.at tail) with
    | none => .answered s1 { data := 0 }
    | some tt => .further s1 tt tail (.near (.enqTail node tail))

/-- R253: the third action: the link of the old tail. -/
def State.enqTailAt (s : State) (u : Nmu) (part : BitVec 7) (node tail : W64) : AtHome :=
  match s.nmuBad u.page part with
  | some kind => .answered s { fault := some (kind, tail) }
  | none => .answered (s.plainAt u.page part 8 (node.setWidth 512)) { data := tail.setWidth 512 }

/-- R254: goes to a node: its key is read next, or its link; a pointer or field that breaks R251 is Page exit (log 38). -/
def chaseNode (s : State) (u : Nmu) (ctl ptr : W64) (left : Nat) : AtHome :=
  let keyVa := ptr + BitVec.ofNat 64 (4 * (ctl.extractLsb' 16 8).toNat)
  let linkVa := ptr + BitVec.ofNat 64 (8 * (ctl.extractLsb' 8 8).toNat)
  match u.at ptr, (if ctl.getLsbD 5 then (u.field keyVa).map fun t => (t, keyVa, MemOp.near (.chaseKey ctl ptr left))
      else (u.at linkVa).map fun t => (t, linkVa, MemOp.near (.chaseLink ctl ptr left))) with
  | some _, some (t, va, op) => .further s t va op
  | _, _ => .answered s { data := ptr.setWidth 512, code := 9 }

/-- R254: the read of a node's key; the link follows where it is another. -/
def State.chaseKeyAt (s : State) (u : Nmu) (part : BitVec 7) (ctl ptr : W64) (left : Nat) : AtHome :=
  match s.nmuBad u.page part with
  | some kind => .answered s { fault := some (kind, u.base) }
  | none =>
    let s1 := s.cache u.page part false
    let linkVa := ptr + BitVec.ofNat 64 (8 * (ctl.extractLsb' 8 8).toNat)
    if (s.mem.read u.page.la 4).setWidth 32 = ctl.extractLsb' 32 32 then .answered s1 { data := ptr.setWidth 512 }
    else match u.at linkVa with
    | some t => .further s1 t linkVa (.near (.chaseLink ctl ptr left))
    | none => .answered s1 { data := ptr.setWidth 512, code := 9 }

/-- R254: the read of a node's link; `left` counts the hops still to come. -/
def State.chaseLinkAt (s : State) (u : Nmu) (part : BitVec 7) (ctl ptr : W64) (left : Nat) : AtHome :=
  match s.nmuBad u.page part with
  | some kind => .answered s { fault := some (kind, u.base) }
  | none =>
    let s1 := s.cache u.page part false
    let nxt : W64 := (s.mem.read u.page.la 8).setWidth 64
    if nxt = 0 then .answered s1 { data := ptr.setWidth 512, code := 10 }
    else if left ≤ 1 then .answered s1 { data := nxt.setWidth 512, code := if ctl.getLsbD 5 then 11 else 0 }
    else chaseNode s1 u ctl nxt (left - 1)

/-- R251: an action of a near-memory operation at the home of its line. -/
def State.nearAt (s : State) (u : Nmu) (part : BitVec 7) (x : Near) : AtHome :=
  match x with
  | .mcas n e v => s.mcasAt u.page part n e v u.base
  | .enq node => s.enqAt u part node
  | .enqNode node tail => s.enqNodeAt u part node tail
  | .enqTail node tail => s.enqTailAt u part node tail
  | .chase ctl => chaseNode s u ctl u.base (ctl.setWidth 5 : BitVec 5).toNat
  | .chaseKey ctl ptr left => s.chaseKeyAt u part ctl ptr left
  | .chaseLink ctl ptr left => s.chaseLinkAt u part ctl ptr left

/-- What an access that its home has accepted does there, and what it is answered. `entry` is what it will answer if it waits. -/
def State.applyAt (s : State) (t : Target) (iss : Issuer) (entry : Option Nat) (ea : W64) (status : Bool) (op : MemOp) : AtHome :=
  let line := lineOf t.la
  let m := s.mem
  let c := m.ver line
  match op with
  | .load w => .answered (s.cache t iss.part false) { data := m.read t.la w, ver := c }
  | .copy _ => .answered (s.cache t iss.part false) { data := m.read t.la 64, ver := c }
  | .store w data => .answered (s.plainAt t iss.part w data) {}
  | .zero => .answered (s.plainAt t iss.part 64 0) {}
  | .lineWrite mask data =>
    let old := m.read t.la 64
    .answered (s.plainAt t iss.part 64 ((old &&& ~~~(maskBits mask)) ||| (data &&& maskBits mask))) {}
  | .loadVer w x =>
    if verGe c x then .answered (s.cache t iss.part false) { data := m.read t.la w, ver := c }
    else if m.room t.la iss.part then .staged (s.stage t iss entry ea status (.load (t.la % 64) w x))
    else .answered s { code := 3 }
  | .loadExact w x =>
    if c = x then .answered (s.cache t iss.part false) { data := m.read t.la w, ver := c }
    else if verAfter c x then .answered s { ver := c, fault := some (0x14, (6#8 ++ (0#24 ++ (x ++ c)) : W64)) }
    else if m.room t.la iss.part then .staged (s.stage t iss entry ea status (.exact (t.la % 64) w x))
    else .answered s { code := 3 }
  | .storeVer w v data => .answered (s.storeVerAt t iss entry ea w v data).1 (s.storeVerAt t iss entry ea w v data).2
  | .readVer => .answered (s.cache t iss.part false) { data := (c.setWidth 512), ver := c }
  | .reclaim b => .answered (s.setMem (m.reclaim line b).1) { data := BitVec.ofNat 512 (m.reclaim line b).2, ver := b }
  | .atom op w v e =>
    let old := (m.read t.la w).setWidth 64
    let code : BitVec 5 := match op, atomNew op w old v e with
      | .cas, none => 7
      | _, _ => 0
    match atomNew op w old v e with
    | some x => .answered (s.plainAt t iss.part w (x.setWidth 512)) { data := old.setWidth 512, ver := c, code := code }
    | none => .answered (s.cache t iss.part false) { data := old.setWidth 512, ver := c, code := code }
  | .arrive n => .answered (s.arriveAt t n.toNat).1 (s.arriveAt t n.toNat).2
  | .expect n => .answered (s.expectAt t n.toNat).1 (s.expectAt t n.toNat).2
  | .phase q =>
    if verGe (m.phase line) (q + 1) then .answered s { ver := m.phase line }
    else if m.room t.la iss.part then .staged (s.stage t iss entry ea status (.phase q))
    else .answered s { code := 3 }
  | .group _ _ _ => .held
  | .near x => s.nearAt { page := t, base := ea } iss.part x
  | .prefetch => .answered (s.cache t iss.part false) {}

/-- Applies an access at the home of its target. -/
def State.atHome (s : State) (t : Target) (iss : Issuer) (entry : Option Nat) (ea : W64) (status : Bool) (op : MemOp) : AtHome :=
  match s.homeRefusal t iss.part op with
  | some k =>
    -- R442: a MAC mismatch poisons the block
    let s := if k = 0x12 ∧ !s.unreadable t.la ∧ !s.macMatches t.la t.key then
        (s.setMem (s.mem.poisonBlock (blockOf t.la))).logError 2 iss.part (blockOf t.la * 512) else s
    .answered s { fault := some (k, ea) }
  | none =>
    if (look none s.mem.held (lineOf t.la)).isSome then .held
    else
      let s1 := s.noteVersions t
      (s1.setMem (s1.mem.settleChain (lineOf t.la))).applyAt t iss entry ea status op

/-- The actions of an access, one after the other, as far as no held line stops it. -/
def State.homeRun (s : State) (t : Target) (iss : Issuer) (entry : Option Nat) (ea : W64) (status : Bool) (op : MemOp) : Nat → AtHome
  | 0 => .further s t ea op
  | n + 1 => match s.atHome t iss entry ea status op with
    | .further s' t' ea' op' => (match s'.homeRun t' iss entry ea' status op' n with
      | .held => .further s' t' ea' op'
      | other => other)
    | other => other

end Sys2Proof.Machine
end

