-- ==== Sys2Proof/Machine/Access.lean ====
section
/-! DEFINITION. How accesses leave their issuers and how their answers come back: sequencers, vector elements, replay queues, other
chips (R221 to R233, R302 to R312, R379 to R381, R433 to R437, R477). -/

namespace Sys2Proof.Machine

/-! ### Packets to other chips (R380, R381, R477) -/

/-- Sends a packet to another chip: it takes the pair's next number and waits for the chip's route. -/
def State.send (s : State) (dst : Nat) (b : Body) : State :=
  let p := look {} s.links.pairs dst
  let k : Packet := { src := s.chipId, dst := dst, psn := p.next, body := b }
  { s with links := { s.links with
      pairs := put {} s.links.pairs dst { p with next := (p.next + 1) % 2 ^ 32, waiting := p.waiting ++ [(k, s.mgmt.podTime.toNat)] } } }

/-- R380: whether CL_RTAB names a route to a chip. -/
def State.routed (s : State) (dst : Nat) : Bool := (look {} s.links.rtab dst : ChipRoute).v

/-- R380: the port by which packets to a chip leave, where one is usable. -/
def State.portTo (s : State) (chip : Nat) : Option Nat :=
  let r : ChipRoute := look {} s.links.rtab chip
  let up (n : BitVec 4) : Bool := (look {} s.links.ports n.toNat : CouriPort).up
  if !r.v then none
  else if r.use then (if r.av && up r.aport then some r.aport.toNat else none)
  else if up r.pport then some r.pport.toNat
  else if r.av && up r.aport then some r.aport.toNat else none

/-- R375, R380, R456: whether another chip is not to be reached: it is lost, or no usable port leads to it. -/
def State.cutOff (s : State) (chip : Nat) : Bool := chip != s.chipId && (s.mem.gone.contains chip || (s.portTo chip).isNone)

/-- Numbers a request to another chip and notes when it left (R479). -/
def State.sendRequest (s : State) (dst : Nat) (b : Nat → Body) : State × Nat :=
  let id := s.links.nextId
  let s1 := { s with links := { s.links with nextId := id + 1, sentAt := put 0 s.links.sentAt id (s.mgmt.podTime.toNat + 1) } }
  (s1.send dst (b id), id)

/-! ### Issuers -/

/-- R227, R333: a VE or a sequencer whose context is saved is named by its task and its number there. -/
def savedName (task n : Nat) : Nat := 2000 * (task + 1) + n

/-- A core by name: one of the package, or one of a saved context. -/
def State.coreNamed (s : State) (c : Nat) : Core :=
  if c < 2000 then s.core c
  else match look none s.brass.tasks (c / 2000 - 1) with
    | some x => look {} (x.saved.getD {}).cores (c % 2000)
    | none => {}

def State.setCoreNamed (s : State) (c : Nat) (k : Core) : State :=
  if c < 2000 then s.setCore c k
  else match look none s.brass.tasks (c / 2000 - 1) with
    | some x => (match x.saved with
      | some v =>
        let x1 : Task := { x with saved := some { v with cores := put {} v.cores (c % 2000) k } }
        { s with brass := { s.brass with tasks := put none s.brass.tasks (c / 2000 - 1) (some x1) } }
      | none => s)
    | none => s

/-- A sequencer by name, as `coreNamed`. -/
def State.seqNamed (s : State) (n : Nat) : Seq :=
  if n < 2000 then s.seq n
  else match look none s.brass.tasks (n / 2000 - 1) with
    | some x => look {} (x.saved.getD {}).seqs (n % 2000)
    | none => {}

def State.setSeqNamed (s : State) (n : Nat) (q : Seq) : State :=
  if n < 2000 then s.setSeq n q
  else match look none s.brass.tasks (n / 2000 - 1) with
    | some x => (match x.saved with
      | some v =>
        let x1 : Task := { x with saved := some { v with seqs := put {} v.seqs (n % 2000) q } }
        { s with brass := { s.brass with tasks := put none s.brass.tasks (n / 2000 - 1) (some x1) } }
      | none => s)
    | none => s

/-- A sequencer as an issuer. Two sequencers stand in each cluster (R15). -/
def State.seqIssuer (s : State) (n : Nat) : Issuer :=
  { who := .seq n, cluster := n % 2000 / 2, asid := (s.seqNamed n).asid, part := (s.seqNamed n).part }

/-- R296: a fabric row is translated under the ASID of its stage. -/
def State.veIssuer (s : State) (c : Nat) : Issuer :=
  if c < 2000 then
    let r := match s.regionOf c with
      | some k => s.region k
      | none => {}
    { who := .ve c, cluster := clusterOf c, asid := r.asid, part := r.part, core := c }
  else match look none s.brass.tasks (c / 2000 - 1) with
    | some x => { who := .ve c, cluster := clusterOf (c % 2000), asid := x.asid, part := x.part, core := c % 2000 }
    | none => { who := .ve c, cluster := 0, asid := 0, part := 0, core := c % 2000 }

/-- Whether an access was issued by a unit of this chip. -/
def Issuer.is (i : Issuer) (a : Actor) : Bool := i.chip.isNone && i.who == a

/-- The replay queue of an issuer. -/
def State.replayOf (s : State) (a : Actor) : List Parked :=
  match a with
  | .seq n => (s.seqNamed n).replay
  | .ve c => (s.coreNamed c).ve.replay
  | .mn _ => []

def State.setReplay (s : State) (a : Actor) (l : List Parked) : State :=
  match a with
  | .seq n => s.setSeqNamed n { s.seqNamed n with replay := l }
  | .ve c =>
    let k := s.coreNamed c
    s.setCoreNamed c { k with ve := { k.ve with replay := l } }
  | .mn _ => s

/-- R233: the page of a store: the aligned 32 KiB virtual range that holds its address. -/
def pageOf (ea : W64) : Nat := ea.toNat / 32768

/-- R233: whether a parked store of the issuer stands in the page of an address. -/
def State.pageParked (s : State) (iss : Issuer) (ea : W64) : Bool :=
  (s.replayOf iss.who).any fun p => pageOf p.va == pageOf ea && p.asid == iss.asid

/-! ### Scopes (R304, R305) -/

/-- R304 Table 1: whether two issuers of this chip lie in one instance of a scope. -/
def State.together (s : State) (a b : Issuer) (scope : Nat) : Bool :=
  a.chip.isNone && b.chip.isNone && match scope with
  | 0 => a.who == b.who
  | 1 => a.who == b.who || (match a.who, b.who with
    | .ve c, .ve e => (s.islandOf (c % 2000)).isSome && s.islandOf (c % 2000) == s.islandOf (e % 2000)
    | _, _ => false)
  | 2 => a.cluster == b.cluster
  | 3 => a.cluster / 4 == b.cluster / 4
  | _ => true

/-- R304, R305: whether the home of an access lies in its issuer's instance of a scope. The scratchpads of a timing island's cores lie in
it, and an actor alone is home to nothing (log 142). -/
def State.homeInside (s : State) (iss : Issuer) (t : Target) (scope : Nat) : Bool :=
  decide (5 ≤ scope) || (t.chip == s.chipId && match scope, homeOf t.la with
  | 0, _ => false
  | 1, .scratch n => (match iss.who with
    | .ve c => (s.islandOf (c % 2000)).isSome && s.islandOf (c % 2000) == s.islandOf n
    | _ => false)
  | 1, _ => false
  | 2, .scratch n => clusterOf n == iss.cluster
  | 2, .tile m => m / 16 == iss.cluster
  | 2, _ => false
  | 3, .scratch n => clusterOf n / 4 == iss.cluster / 4
  | 3, .tile m => m / 64 == iss.cluster / 4
  | 3, .hbm x => x / 16 == iss.cluster / 4
  | 3, .unpopulated => false
  | _, _ => true)

/-- R305: a plain write: it is performed at a scope once it has passed the egress point of an instance that its home lies outside of. An
atomic and a versioned store are performed at their homes (log 142). -/
def plainStore (op : MemOp) : Bool := match op with
  | .store _ _ => true
  | .zero => true
  | .lineWrite _ _ => true
  | _ => false

/-- R305: whether a request in flight is performed at a scope. -/
def State.performedAt (s : State) (r : Req) (scope : Nat) : Bool :=
  plainStore r.op && (r.arrived || decide (scope < r.passed)) && match r.target with
  | some t => !s.homeInside r.iss t scope
  | none => false

/-- R71: whether two targets have one home. -/
def sameHome (t u : Target) : Bool := t.chip == u.chip && homeOf t.la == homeOf u.la

/-- R304: whether a write on its way to the same home has passed the egress point of an instance of the issuer before it. -/
def State.egressWaits (s : State) (iss : Issuer) (t : Target) (before : List Req) : Bool :=
  before.any fun x => plainStore x.op && !x.arrived && match x.target with
  | some u => sameHome t u && (List.range 5).any fun k =>
      decide (k < x.passed) && s.together iss x.iss k && !s.homeInside x.iss u k
  | none => false

/-- R305: where a write in flight of an issuer may pass the egress point of its instance of a scope: its target, once it has been
translated. -/
def State.mayPass (s : State) (a : Actor) (scope : Nat) (r : Req) : Option Target :=
  if r.iss.is a && plainStore r.op && !r.arrived && decide (r.passed ≤ scope) && !s.pageParked r.iss r.ea then
    let t : Option Target := match r.target with
      | some t => some t
      | none => (s.resolve r.iss.cluster r.iss r.ea (opWidth r.op) (opNeed r.op)).toOption
    t.filter fun t => !s.homeInside r.iss t scope
  else none

/-- R304, R305: the writes of an issuer pass the egress point of its instance of a scope; those to the same homes that have passed inner
egress points of the instance pass before them. -/
def State.pass (s : State) (a : Actor) (scope : Nat) : State :=
  let mark (r : Req) : Option Req := (s.mayPass a scope r).map fun t => { r with target := some t, passed := scope + 1 }
  let new := s.mem.flight.filterMap mark
  if new.isEmpty then s
  else
    let pushed (x : Req) : Req :=
      if new.any fun m => s.together x.iss m.iss scope && match x.target, m.target with
        | some t, some u => sameHome t u
        | _, _ => false
      then { x with passed := Nat.max x.passed (scope + 1) } else x
    let first := (s.mem.flight.filter fun r => decide (0 < r.passed)).map fun r => (mark r).getD (pushed r)
    let then_ := (s.mem.flight.filter fun r => r.passed == 0 && (mark r).isSome).filterMap mark
    s.setMem { s.mem with flight := first ++ then_ ++ s.mem.flight.filter fun r => r.passed == 0 && (mark r).isNone }

/-- R305, R312, R317: whether every earlier access of an issuer has been performed at a scope: nothing of it is on its way, waits at a home,
or is parked. -/
def State.quiet (s : State) (a : Actor) (scope : Nat) : Bool :=
  (s.replayOf a).isEmpty &&
  !(s.mem.flight.any fun r => r.iss.is a && !s.performedAt r scope) &&
  !(s.mem.staged.any fun e => e.iss.is a) &&
  !(s.mem.away.any fun e => match e.2 with
    | some r => r.iss.is a && !(plainStore r.op && decide (scope < 5))
    | none => false) &&
  !(s.mem.groupStores.any fun g => g.req.iss.is a &&
    (look {} s.mem.groups (64 * g.gid.asid.toNat + g.gid.grp.toNat) : Group).state == 3)

/-- R226: what an ordered access does before it asks whether the earlier ones have been performed: with a release, they pass their egress
points. -/
def State.release (s : State) (a : Actor) (scope : Nat) : State := if s.quiet a scope then s else s.pass a scope

/-- R307, R312: whether a store of a sequencer that is still on its way or parked overlaps an access. -/
def State.overlaps (s : State) (iss : Issuer) (t : Option Target) (ea : W64) (w : Nat) : Bool :=
  let meet (a n b m : Nat) : Bool := decide (a < b + m) && decide (b < a + n)
  (s.mem.flight.any fun r => r.iss.is iss.who &&
    (match r.target, t with
     | some x, some y => x.chip == y.chip && meet x.la (opWidth r.op) y.la w
     | _, _ => r.iss.asid == iss.asid && meet r.ea.toNat (opWidth r.op) ea.toNat w)) ||
  ((s.replayOf iss.who).any fun p => p.asid == iss.asid && meet p.va.toNat p.width ea.toNat w)

/-- R307: a near-memory operation may reach any line of its page, and waits for every earlier store of its sequencer into it. -/
def State.nearOverlap (s : State) (iss : Issuer) (t : Target) (op : MemOp) : Bool :=
  match op with
  | .near _ =>
    (s.mem.flight.any fun r => r.iss.is iss.who) ||
    ((s.replayOf iss.who).any fun p => decide (t.page ≤ p.va.toNat) && decide (p.va.toNat < t.page + t.size))
  | _ => false

/-- R435: whether any issuer of a partition has a parked store. -/
def State.anyParked (s : State) (part : BitVec 7) : Bool :=
  (s.seqs.any fun e => e.2.part == part && !e.2.replay.isEmpty) ||
  (s.cores.any fun e => s.partOf e.1 == some part && !e.2.ve.replay.isEmpty) ||
  (s.brass.tasks.any fun e => match e.2 with
    | some x => x.part == part && match x.saved with
      | some v => (v.seqs.any fun q => !q.2.replay.isEmpty) || (v.cores.any fun c => !c.2.ve.replay.isEmpty)
      | none => false
    | none => false)

/-- R435: keeps BR_RPQ.V of a partition, and tells the PF when it is set. -/
def State.updateRpq (s : State) (part : BitVec 7) : State :=
  let p := look {} s.brass.parts part.toNat
  let v := s.anyParked part
  let s1 := { s with brass := { s.brass with parts := put {} s.brass.parts part.toNat { p with rpq := v } } }
  if v && !p.rpq then s1.interrupt 0 1 else s1

/-- R433: a parked store. -/
def State.park (s : State) (r : Req) (denied : Bool) (w : Nat) (data : BitVec 512) : State :=
  let ver := match r.op with
    | .storeVer _ v _ => some v
    | _ => none
  (s.setReplay r.iss.who (s.replayOf r.iss.who ++
    [({ asid := r.iss.asid, va := r.ea, width := w, data := data, ord := r.ord, scope := r.scope, denied := denied, row := r.row,
        iter := r.iter, born := s.mgmt.podTime.toNat, ver := ver, made := r.made } : Parked)])).updateRpq r.iss.part

/-- The width and data of an operation that parks (R233): ST, STV without status, SCAT, ZROL and the write of CPYL. -/
def parkable (op : MemOp) (status : Bool) : Option (Nat × BitVec 512) :=
  match op with
  | .store w v => some (w, v)
  | .zero => some (64, 0)
  | .storeVer w _ v => if status then none else some (w, v)
  | _ => none

/-! ### Accesses of a sequencer (R221, R226, R228) -/

/-- One access of a sequencer's instruction. -/
structure Access where
  ea : W64
  op : MemOp
  /-- Alignment in bytes. -/
  align : Nat
  status : Bool := false
  /-- A further refusal, checked between the form of the address and its translation. -/
  hbmOnly : Bool := false
  /-- R150: a store that is never parked. -/
  noPark : Bool := false
  /-- R244: its place among the elements of a SCAT. -/
  elem : Option Nat := none
  deriving DecidableEq, Repr

/-- What issuing an access comes to. -/
inductive Issued where
  | fault (kind : BitVec 8) (val : W64) (s : State)
  | answered (a : Answer) (s : State)
  /-- It waits at a home, or at another chip, under this number. -/
  | pending (id : Nat) (s : State)
  | blocked
  deriving DecidableEq, Repr

/-- R257: an ARRIVE that completes a phase does not reach its line after an EXPECT in one cycle: it comes a cycle later. -/
def State.arriveWaits (s : State) (t : Target) (op : MemOp) : Bool :=
  match op with
  | .arrive n => s.mem.pending (lineOf t.la) == n.toNat && look 0 s.mem.expected (lineOf t.la) == s.cycle.toNat + 1
  | _ => false

/-- Whether an operation completes at issue (R221). A versioned store waits for the outcome that its home decides (R228). -/
def completesAtIssue (op : MemOp) : Bool :=
  match op with
  | .store _ _ => true
  | .zero => true
  | _ => false

/-- R71, R380: the packet of an access to another chip. -/
def accessBody (t : Target) (part : BitVec 7) (op : MemOp) (ea : W64) (id : Nat) : Body :=
  .access id op t.la t.ver part (t.key.getD 0) ea t.page t.size t.cached t.first

/-- Sends an access to the chip of its target. A store waits there for its acceptance, so that a refusal is precise (R232), unless it is
left in flight (log 35). -/
def State.issueAway (s : State) (t : Target) (r : Req) : Issued :=
  if !s.routed t.chip then .fault 0x06 r.ea s
  else
    let (s1, id) := s.sendRequest t.chip fun id => accessBody t r.iss.part r.op r.ea id
    let posted := completesAtIssue r.op && s.scratch.post
    let s2 := s1.setMem { s1.mem with away := put none s1.mem.away id (some { r with target := some t, entry := if posted then none else some id }) }
    if posted then .answered {} s2 else .pending id s2

/-- R274: whether an acquiring copy of a sequencer holds its later accesses back. -/
def State.copyHolds (s : State) (n : Nat) : Bool :=
  s.streams.bindings.any fun e => match e.2 with
    | some b => b.seq == n && (b.state == 1 || b.state == 2) && (match b.kind with
      | .copy _ _ _ acq => acq
      | _ => false)
    | none => false

/-- Issues an access of sequencer `n`. -/
def State.issue (s : State) (n : Nat) (x : Access) : Issued :=
  if s.copyHolds n then .blocked else
  let iss := s.seqIssuer n
  let q := s.seq n
  let r : Req := { iss := iss, ea := x.ea, op := x.op, entry := none, status := x.status, made := s.streams.next, elem := x.elem.getD 0,
                   row := if x.elem.isSome then q.pc.toNat + 1 else 0 }
  match s.resolve iss.cluster iss x.ea x.align (opNeed x.op) with
  | .error k =>
    match parkable x.op x.status with
    | some (w, v) =>
      if (k = 0x08 ∨ k = 0x09) ∧ !q.unack ∧ !x.noPark then
        if q.replay.length < 16 then .answered { data := 1 } (s.park r (k == 0x09) w v) else .blocked
      else .fault k x.ea s
    | none => .fault k x.ea s
  | .ok t =>
    if x.hbmOnly && !inHbm t.la then .fault 0x06 x.ea s
    -- R233: a store with status stays behind the parked stores of its page too (log 143)
    else if s.egressWaits iss t s.mem.flight || s.arriveWaits t x.op || (opIsStv x.op && s.pageParked iss x.ea) && !q.unack then .blocked
    else match parkable x.op x.status with
    | some (w, v) =>
      -- R233: behind a parked store of its page
      if !q.unack && !x.noPark && s.pageParked iss x.ea then
        if q.replay.length < 16 then .answered { data := 1 } (s.park r false w v) else .blocked
      else if s.overlaps iss (some t) x.ea w then .blocked
      else if t.chip ≠ s.chipId then s.issueAway t r
      else match s.homeRefusal t iss.part x.op with
      | some k => .fault k x.ea s
      | none =>
        let fly := if completesAtIssue x.op then
            Issued.answered {} (s.setMem { s.mem with flight := s.mem.flight ++ [{ r with target := some t, arrived := s.lineHeld t }] })
          else .blocked
        if s.scratch.post && completesAtIssue x.op then fly
        else match s.atHome t iss none x.ea x.status x.op with
        | .answered s' a => (match a.fault with
          | some (k, v) => .fault k v s'
          | none => .answered a s')
        | .staged s' => .answered {} s'
        | .held => fly
        | .further _ _ _ _ => .blocked
    | none =>
      if s.overlaps iss (some t) x.ea (opWidth x.op) || s.nearOverlap iss t x.op then .blocked
      else if t.chip ≠ s.chipId then s.issueAway t r
      else
        let id := s.links.nextId
        let numbered (u : State) : State := { u with links := { u.links with nextId := id + 1 } }
        let leave (u : State) (y : Req) : Issued :=
          .pending id (numbered (u.setMem { u.mem with flight := u.mem.flight ++ [{ y with entry := some id }] }))
        -- R253, R254: other accesses may fall between the actions of a near-memory operation that is left in flight
        if s.scratch.post && opIsNear x.op then leave s { r with target := some t }
        else match s.homeRun t iss (some id) x.ea x.status x.op 64 with
        | .answered s' a => (match a.fault with
          | some (k, v) => .fault k v s'
          | none => .answered a s')
        | .staged s' => .pending id (numbered s')
        | .held => .blocked
        | .further s' t' ea' op' => leave s' { r with target := some t', ea := ea', op := op', hop := true }

/-- Drops the record of an instruction's accesses. -/
def State.endWait (s : State) (n : Nat) : State := s.setSeq n { s.seq n with wait := none }

/-- Runs an instruction of accesses, one a turn: `next` gives the access that follows the answers so far, or what the instruction
does when all have come. Until then pc stays, and the next turn goes on. The record of a fault of a SCAT carries the elements performed
(R244): the answer of a parked store holds 1. -/
def State.seqScript (s : State) (n : Nat) (next : List Answer → Access ⊕ (State → State)) (scatter : Bool := false) : State :=
  let w := ((s.seq n).wait).getD {}
  let mask : BitVec 8 := if scatter then ofLanes 8 1 fun k => ((w.got[k]?).map fun a => if a.data = 0 then 1 else 0).getD 0 else 0
  let go (got : List Answer) (s : State) : State :=
    match next got with
    | .inr fin => fin (s.endWait n)
    | .inl _ => s.setSeq n { s.seq n with wait := some { got := got } }
  let took (a : Answer) (s : State) : State :=
    match a.fault with
    | some (k, v) => (s.endWait n).seqFault n k v 0 mask
    | none => go (w.got ++ [a]) s
  match w.id, w.answer with
  | some _, none => s
  | some _, some a => took a s
  | none, _ =>
    match next w.got with
    | .inr fin => fin (s.endWait n)
    | .inl x =>
      match s.issue n x with
      | .fault k v s' => (s'.endWait n).seqFault n k v 0 mask
      | .answered a s' => took a s'
      | .pending id s' => s'.setSeq n { s'.seq n with wait := some { got := w.got, id := some id } }
      | .blocked => s.begin n

/-- R226: with ord 2 or 3 an instruction waits until every earlier access of the sequencer has been performed at its scope. -/
def State.seqRelease (s : State) (n : Nat) (ord : BitVec 2) (scope : BitVec 3) (body : State → State) : State :=
  if ord.getLsbD 1 ∧ ((s.seq n).wait).isNone then
    let s1 := s.release (.seq n) scope.toNat
    if s1.quiet (.seq n) scope.toNat then body s1 else s1.begin n
  else body s

/-- R228 Table 1: ends an instruction with a status outcome: the predicate, or without status the fault of the code. -/
def State.seqOutcome (s : State) (n : Nat) (st : Bool) (sp : BitVec 3) (code : BitVec 5) (ea : W64) (wd : Word)
    (effect : Seq → Seq) : State :=
  if st then
    let q := effect (s.seq n)
    s.seqNext n { q with preds := predSet q.preds sp (decide (code.toNat < 3)) }
  else if code = 3 ∨ code = 4 ∨ code = 5 then
    s.seqFault n 0x0E (code.setWidth 8 ++ ea.setWidth 56) (code.setWidth 64)
  else if code = 12 then s.seqFault n 0x05 (wd.setWidth 64)
  else s.seqNext n (effect (s.seq n))

/-! ### Accesses of a vector element (R222 to R228, R232) -/

/-- Puts the answer of one access into its reply-queue entry. -/
def Entry.take (e : Entry) (elem w : Nat) (a : Answer) : Entry :=
  let bits : BitVec 512 := (a.data &&& (BitVec.allOnes 512 >>> (512 - 8 * w))) <<< (8 * w * elem)
  { e with left := e.left - 1
           tok := { e.tok with data := e.tok.data ||| bits }
           pred := e.pred.map fun p => (p.1, p.2 && decide (a.code.toNat < 3))
           fault := e.fault.or a.fault
           mask := if a.fault.isNone then e.mask ||| (1#8 <<< elem) else e.mask }

/-- R225, R228: the bytes that a reply carries for an operation. -/
def replyBytes (op : MemOp) (status : Bool) (a : Answer) : Answer × Nat :=
  match op with
  | .load w => (a, w)
  | .loadVer w _ => (a, w)
  | .loadExact w _ => (a, w)
  | .atom _ w _ _ => (a, w)
  | .readVer => ({ a with data := a.ver.setWidth 512 }, 4)
  | .arrive _ => ({ a with data := a.ver.setWidth 512 }, 4)
  | .expect _ => ({ a with data := a.ver.setWidth 512 }, 4)
  | .phase _ => ({ a with data := a.ver.setWidth 512 }, 4)
  | .storeVer _ _ _ => ({ a with data := if status then a.code.setWidth 512 else 0 }, 4)
  | .group _ _ _ => ({ a with data := if status then a.code.setWidth 512 else 0 }, 4)
  | _ => ({ a with data := 0 }, 4)

/-- R228: without status, an outcome marked "fault" is raised at the instruction. -/
def raiseCode (status : Bool) (ea : W64) (wd : Word) (a : Answer) : Answer :=
  if status || a.fault.isSome then a
  else if a.code = 3 ∨ a.code = 4 ∨ a.code = 5 then
    { a with fault := some (0x0E, a.code.setWidth 8 ++ ea.setWidth 56) }
  else if a.code = 12 then { a with fault := some (0x05, wd.setWidth 64) }
  else a

/-- R236: an LDL's reply sets the link register. -/
def Ve.linkReply (v : Ve) (d : BitVec 512) : Ve :=
  { v with link := d.setWidth 64, linkValid := (d.setWidth 64 : W64) != 0 }

/-- Delivers an answer to entry `num` of a VE's reply queue. -/
def State.veAnswer (s : State) (c : Nat) (num elem : Nat) (op : MemOp) (status : Bool) (ea : W64) (a : Answer) : State :=
  let k := s.coreNamed c
  let v := k.ve
  match v.replies.find? (·.num == num) with
  | none => s
  | some e =>
    -- R256: an overrun without status is an operand fault; its value is the word of the issuing row
    let wd := (look {} v.rows (32 * (if k.bank then 1 else 0) + e.row) : Row).word
    let a1 := raiseCode (status || (match op with
      | .group _ _ _ => true
      | _ => false)) ea wd a
    let (a2, w) := replyBytes op status a1
    let e' := e.take elem w a2
    let v1 := { v with replies := v.replies.map fun x => if x.num = num then e' else x }
    s.setCoreNamed c { k with ve := if e.link && a1.fault.isNone then v1.linkReply a2.data else v1 }

/-- Delivers the answer of an access that waited at a home or at another chip: to the chip that asked, to a VE's reply entry, or to the instruction of a
sequencer that waits under this number. -/
def State.deliver (s : State) (iss : Issuer) (entry : Option Nat) (elem : Nat) (op : MemOp) (status : Bool) (ea : W64) (a : Answer) :
    State :=
  match iss.chip, iss.who, entry with
  | some chip, _, some id => s.send chip (.answer id a)
  | none, .ve c, some num => s.veAnswer c num elem op status ea a
  | none, .seq n, some id =>
    let q := s.seq n
    match q.wait with
    | some w => if w.id = some id then s.setSeq n { q with wait := some { w with answer := some a } } else s
    | none => s
  | _, _, _ => s

/-- The operation of a staged entry, as its issuer knows it. -/
def StagedOp.memOp (o : StagedOp) : MemOp :=
  match o with
  | .store _ w v d => .storeVer w v d
  | .load _ w m => .loadVer w m
  | .exact _ w e => .loadExact w e
  | .phase q => .phase q

end Sys2Proof.Machine
end

