-- ==== Sys2Proof/Machine/MemoryForms.lean ====
section
/-! DEFINITION. Memory forms, opcodes 0xA0 to 0xAD (R221 to R248, R487). -/

namespace Sys2Proof.Machine

/-- R128: bytes of a width code. -/
def widthBytes (w : BitVec 3) : Nat := 2 ^ w.toNat

/-- R221, R222: an address plus the scaled offset of format M. -/
def withOffset (a : W64) (f : BitVec 8) (w : Nat) : W64 := a + BitVec.ofNat 64 (f.toNat * w)

/-- R68: lane pair `i` of a token. -/
def lanePair (t : Token) (i : Nat) : W64 := t.data.extractLsb' (64 * i) 64

def lane0 (t : Token) : BitVec 32 := t.data.setWidth 32

/-! ### Sequencer forms -/

/-- A single access of a sequencer, and what its answer does. -/
def State.seqAccess (s : State) (n : Nat) (ord : BitVec 2) (scope : BitVec 3) (x : Access) (fin : Answer → State → State) : State :=
  s.seqRelease n ord scope fun s => s.seqScript n fun got => match got with
    | [] => .inl x
    | a :: _ => .inr (fin a)

/-- R234: the low `w` bytes of a G register, as a store's data. -/
def seqData (v : W64) : BitVec 512 := v.setWidth 512

/-! ### Vector element forms -/

/-- What a memory row of a VE issues. -/
structure VePlan where
  /-- Address, operation and place of each access. -/
  accs : List (W64 × MemOp × Nat)
  link : Bool := false
  pred : Option (BitVec 3 × Bool) := none
  status : Bool := false
  deriving DecidableEq, Repr

/-- The number of the next reply-queue entry of a VE. -/
def Ve.nextEntry (v : Ve) : Nat := v.replies.foldl (fun m e => Nat.max m (e.num + 1)) 0

/-- R224, R226: whether a memory row of a VE must wait: an acquire without its reply, a full reply queue, or a release with accesses not
performed at its scope. -/
def State.veMustWait (s : State) (c : Nat) (takesEntry : Bool) (ord : BitVec 2) (scope : BitVec 3) : Bool :=
  let v := s.ve c
  (v.replies.any fun e => e.acquire && e.left != 0) || (takesEntry && decide (8 ≤ v.replies.length)) ||
  (ord.getLsbD 1 && !s.quiet (.ve c) scope.toNat)

/-- R226: before it asks that, a release lets its VE's writes pass their egress points. -/
def State.veRelease (s : State) (c : Nat) (ord : BitVec 2) (scope : BitVec 3) : State :=
  if ord.getLsbD 1 then s.release (.ve c) scope.toNat else s

/-- R224: issues the accesses of a firing under a new entry. -/
def State.veIssue (s : State) (c : Nat) (ord : BitVec 2) (scope : BitVec 3) (reply : Bool) (rnd : BitVec 8) (p : VePlan) : State :=
  let v := s.ve c
  let k := (s.islandOf c).getD 0
  let i := s.island k
  let num := v.nextEntry
  let e : Entry := { num := num, tok := { data := 0, tag := 0, rnd := rnd }, wantsX := reply, acquire := ord.getLsbD 0,
                     link := p.link, left := p.accs.length, pred := p.pred, codeReply := p.status, row := i.cnt, iter := i.iter }
  let reqs := p.accs.map fun x =>
    ({ iss := s.veIssuer c, ea := x.1, op := x.2.1, entry := some num, elem := x.2.2, status := p.status, row := i.cnt, iter := i.iter,
       ord := ord, scope := scope, made := s.streams.next } : Req)
  (s.setVe c { v with replies := v.replies ++ [e] }).setMem { s.mem with flight := s.mem.flight ++ reqs }

/-- R487: a reply entry that carries a marker. -/
def State.veMarkerEntry (s : State) (c : Nat) (m : Token) : State :=
  let v := s.ve c
  s.setVe c { v with replies := v.replies ++
    [({ num := v.nextEntry, tok := marker (markerKind m) m.rnd, wantsX := true, left := 0 } : Entry)] }

/-- R487: whether every token operand is a marker, so that the row makes no access. -/
def allMarkers (reads : List Read) : Bool :=
  let toks := reads.filterMap fun r => match r with
    | .got o => if o.real then some o.tok else none
    | _ => none
  !toks.isEmpty && toks.all isMarker

/-- A memory row of a VE: `reply` says that it takes a reply entry, not a completion entry; `more` adds waits of its own; `check` gives
the kind of an operand fault. -/
def State.veMemory (s : State) (c : Nat) (reads : List Read) (ord : BitVec 2) (scope : BitVec 3) (reply more : Bool)
    (plan : List Operand → VePlan) (check : List Operand → Option (BitVec 8) := fun _ => none) : State :=
  let s := if allMarkers reads then s else s.veRelease c ord scope
  let waits := if allMarkers reads then reply && decide (8 ≤ (s.ve c).replies.length) else s.veMustWait c true ord scope
  if more || waits then s.addStall 0
  else s.veFireReads c reads 0
    (fun m _ s' => (if reply then s'.veMarkerEntry c m else s').passMarker c m)
    (fun ops s' => match check ops with
      | some kind => s.addFault c false kind ((s.veRow c).word.setWidth 64)
      | none => s'.veIssue c ord scope reply (resultRound (s.ve c) ops) (plan ops))

/-- The predicate part of a plan in the status form. -/
def statusPred (t : Bool) (p : BitVec 3) : Option (BitVec 3 × Bool) := if t then some (p, true) else none

/-! ### LD, ST, PREF, LDL -/

/-- LD (R234). -/
def execLd (b d : BitVec 4) (o : BitVec 2) (sc w : BitVec 3) (f : BitVec 8) (s : State) : Host.Outcome State Fault Refusal :=
  let n := widthBytes w
  word (.ld b d o sc w f) always
    (fun k s => s.seqAccess k o sc { ea := withOffset ((s.seq k).get b) f n, op := .load n, align := n }
      fun a s => s.seqNext k ((s.seq k).set d (a.data.setWidth 64)))
    (fun c s => s.veMemory c [s.readSel c b] o sc true false fun ops =>
      { accs := [(withOffset (lanePair (opnd ops 0) 0) f n, .load n, 0)] })
    noBody s

/-- ST (R234). -/
def execSt (b d : BitVec 4) (o : BitVec 2) (sc w : BitVec 3) (f : BitVec 8) (s : State) : Host.Outcome State Fault Refusal :=
  let n := widthBytes w
  word (.st b d o sc w f) always
    (fun k s => s.seqAccess k o sc
      { ea := withOffset ((s.seq k).get b) f n, op := .store n (seqData ((s.seq k).get d)), align := n }
      fun _ s => s.seqNext k (s.seq k))
    (fun c s => s.veMemory c [s.readSel c b, s.readData c d] o sc false false fun ops =>
      { accs := [(withOffset (lanePair (opnd ops 0) 0) f n, .store n (opnd ops 1).data, 0)] })
    noBody s

/-- R235: asks the slice of a cacheable HBM line, which may be another chip's, to fetch it into L2; any refusal drops it. -/
def State.prefetch (s : State) (iss : Issuer) (ea : W64) : State :=
  match s.resolve iss.cluster iss ea 64 { rd := true } with
  | .error _ => s
  | .ok t =>
    if !inHbm t.la then s
    else if t.chip ≠ s.chipId then
      if s.routed t.chip then (s.sendRequest t.chip fun id => accessBody t iss.part .prefetch ea id).1 else s
    else if (s.homeRefusal t iss.part (.load 64)).isNone then s.cache t iss.part false
    else s

/-- PREF (R235). On a VE it takes no reply-queue entry (R224). -/
def execPref (b : BitVec 4) (f : BitVec 8) (s : State) : Host.Outcome State Fault Refusal :=
  word (.pref b f) always
    (fun k s => (s.prefetch (s.seqIssuer k) (withOffset ((s.seq k).get b) f 64)).seqNext k (s.seq k))
    (fun c s =>
      if !allMarkers [s.readSel c b] && s.veMustWait c false 0 0 then s.addStall 0
      else s.veFireReads c [s.readSel c b] 0 (fun m _ s' => s'.passMarker c m)
        (fun ops s' => s'.prefetch (s'.veIssuer c) (withOffset (lanePair (opnd ops 0) 0) f 64)))
    noBody s

/-- LDL (R236): on a VE through the link register, once every earlier LDL reply has arrived. -/
def execLdl (b d : BitVec 4) (o : BitVec 2) (sc w : BitVec 3) (f : BitVec 8) (s : State) : Host.Outcome State Fault Refusal :=
  let n := widthBytes w
  word (.ldl b d o sc w f) always
    (fun k s => s.seqAccess k o sc { ea := withOffset ((s.seq k).get b) f 8, op := .load 8, align := 8 }
      fun a s =>
        let q := (s.seq k).set d (a.data.setWidth 64)
        s.seqNext k (q.set b (q.get d)))
    (fun c s =>
      let v := s.ve c
      let waits := v.replies.any fun e => e.link && e.left != 0
      s.veMemory c (if v.linkValid then [] else [s.readSel c b]) o sc true waits fun ops =>
        { accs := [(withOffset (if v.linkValid then v.link else lanePair (opnd ops 0) 0) f n, .load n, 0)], link := true })
    noBody s

/-! ### LDV, STV, LDE, VRD, RECL -/

/-- LDV (R237). -/
def execLdv (a b d : BitVec 4) (o : BitVec 2) (sc w : BitVec 3) (t : Bool) (p : BitVec 3) (s : State) :
    Host.Outcome State Fault Refusal :=
  let n := widthBytes w
  let i := Instr.ldv a b d o sc w t p
  word i always
    (fun k s =>
      let ea := (s.seq k).get a
      s.seqAccess k o sc { ea := ea, op := .loadVer n (((s.seq k).get b).setWidth 16), align := n, status := t }
        fun x s => s.seqOutcome k t p x.code ea (wordOf i) fun q =>
          if x.code = 3 ∨ x.code = 5 then q
          else
            let q := q.set d (x.data.setWidth 64)
            if b = 0 then q else q.set b (x.ver.setWidth 64))
    (fun c s => s.veMemory c [s.readSel c a, s.readSel c b] o sc true false fun ops =>
      { accs := [(lanePair (opnd ops 0) 0, .loadVer n ((lane0 (opnd ops 1)).setWidth 16), 0)], pred := statusPred t p, status := t })
    noBody s

/-- STV (R238). -/
def execStv (a b d : BitVec 4) (o : BitVec 2) (sc w : BitVec 3) (t : Bool) (p : BitVec 3) (s : State) :
    Host.Outcome State Fault Refusal :=
  let n := widthBytes w
  let i := Instr.stv a b d o sc w t p
  word i always
    (fun k s =>
      let ea := (s.seq k).get a
      s.seqAccess k o sc
        { ea := ea, op := .storeVer n (((s.seq k).get d).setWidth 16) (seqData ((s.seq k).get b)), align := n, status := t }
        fun x s => s.seqOutcome k t p x.code ea (wordOf i) fun q => if t then q.set d (x.code.setWidth 64) else q)
    (fun c s => s.veMemory c [s.readSel c a, s.readData c b, s.readSel c d] o sc t false fun ops =>
      { accs := [(lanePair (opnd ops 0) 0, .storeVer n ((lane0 (opnd ops 2)).setWidth 16) (opnd ops 1).data, 0)],
        pred := statusPred t p, status := t })
    noBody s

/-- LDE (R239), on a VE. -/
def execLde (a b d : BitVec 4) (o : BitVec 2) (sc w : BitVec 3) (s : State) : Host.Outcome State Fault Refusal :=
  let n := widthBytes w
  word (.lde a b d o sc w) always noBody
    (fun c s => s.veMemory c [s.readSel c a, s.readSel c b] o sc true false fun ops =>
      { accs := [(lanePair (opnd ops 0) 0, .loadExact n ((lane0 (opnd ops 1)).setWidth 16), 0)] })
    noBody s

/-- VRD (R240). -/
def execVrd (a d : BitVec 4) (o : BitVec 2) (sc : BitVec 3) (s : State) : Host.Outcome State Fault Refusal :=
  word (.vrd a d o sc) always
    (fun k s => s.seqAccess k o sc { ea := (s.seq k).get a, op := .readVer, align := 64 }
      fun x s => s.seqNext k ((s.seq k).set d (x.ver.setWidth 64)))
    (fun c s => s.veMemory c [s.readSel c a] o sc true false fun ops =>
      { accs := [(lanePair (opnd ops 0) 0, .readVer, 0)] })
    noBody s

/-- RECL (R241). -/
def execRecl (a b d : BitVec 4) (s : State) : Host.Outcome State Fault Refusal :=
  word (.recl a b d) always
    (fun k s => s.seqAccess k 0 0 { ea := (s.seq k).get a, op := .reclaim (((s.seq k).get b).setWidth 16), align := 64 }
      fun x s => s.seqNext k ((s.seq k).set d (x.data.setWidth 64)))
    (fun c s => s.veMemory c [s.readSel c a, s.readSel c b] 0 0 false false fun ops =>
      { accs := [(lanePair (opnd ops 0) 0, .reclaim ((lane0 (opnd ops 1)).setWidth 16), 0)] })
    noBody s

/-! ### GATH, SCAT, CPYL, ZROL -/

/-- R243: the address of element `k` on a sequencer: the base plus `w` times the signed byte `k` of the offsets. -/
def seqElement (base offs : W64) (w k : Nat) : W64 :=
  base + BitVec.ofInt 64 (w * (offs.extractLsb' (8 * k) 8).toInt)

/-- R243: the address of element `k` on a VE. -/
def veElement (ops : List Operand) (k : Nat) : W64 := lanePair (opnd ops 0) k + lanePair (opnd ops 1) k

/-- GATH (R243): independent loads, one a turn on a sequencer. -/
def execGath (a b d : BitVec 4) (o : BitVec 2) (sc w : BitVec 3) (s : State) : Host.Outcome State Fault Refusal :=
  let n := widthBytes w
  word (.gath a b d o sc w) always
    (fun k s =>
      let base := (s.seq k).get a
      let offs := (s.seq k).get b
      s.seqRelease k o sc fun s => s.seqScript k fun got =>
        if got.length < 8 / n then
          .inl { ea := seqElement base offs n got.length, op := .load n, align := n }
        else .inr fun s =>
          let v : W64 := got.foldr (fun (x : Answer) (acc : W64) => (acc <<< (8 * n)) ||| x.data.setWidth 64) 0
          s.seqNext k ((s.seq k).set d v))
    (fun c s => s.veMemory c [s.readSel c a, s.readSel c b] o sc true false fun ops =>
      { accs := ((List.range 8).filter fun k => veElement ops k != 0).map fun k => (veElement ops k, .load n, k) })
    noBody s

/-- SCAT (R244): plain stores, in ascending index. -/
def execScat (a b d : BitVec 4) (o : BitVec 2) (sc w : BitVec 3) (s : State) : Host.Outcome State Fault Refusal :=
  let n := widthBytes w
  word (.scat a b d o sc w) always
    (fun k s =>
      let q := s.seq k
      s.seqRelease k o sc fun s => s.seqScript k (fun got =>
        if got.length < 8 / n then
          .inl { ea := seqElement (q.get a) (q.get b) n got.length,
                 op := .store n (((q.get d) >>> (8 * n * got.length)).setWidth 512), align := n, elem := some got.length }
        else .inr fun s => s.seqNext k (s.seq k)) true)
    (fun c s => s.veMemory c [s.readSel c a, s.readSel c b, s.readData c d] o sc false false fun ops =>
      { accs := ((List.range 8).filter fun k => veElement ops k != 0).map fun k =>
          (veElement ops k, .store n ((opnd ops 2).data >>> (8 * n * k)), k) })
    noBody s

/-- CPYL (R245): a read and then a write of one line. -/
def execCpyl (a b d : BitVec 4) (o : BitVec 2) (sc : BitVec 3) (s : State) : Host.Outcome State Fault Refusal :=
  word (.cpyl a b d o sc) always
    (fun k s =>
      let q := s.seq k
      s.seqRelease k o sc fun s => s.seqScript k fun got => match got with
        | [] => .inl { ea := q.get b, op := .load 64, align := 64 }
        | [x] => .inl { ea := q.get a, op := .store 64 x.data, align := 64 }
        | _ => .inr fun s => s.seqNext k (s.seq k))
    (fun c s => s.veMemory c [s.readSel c a, s.readSel c b] o sc false false fun ops =>
      { accs := [(lanePair (opnd ops 1) 0, .copy (lanePair (opnd ops 0) 0), 0)] })
    noBody s

/-- ZROL (R246). -/
def execZrol (a : BitVec 4) (o : BitVec 2) (sc : BitVec 3) (s : State) : Host.Outcome State Fault Refusal :=
  word (.zrol a o sc) always
    (fun k s => s.seqAccess k o sc { ea := (s.seq k).get a, op := .zero, align := 64 } fun _ s => s.seqNext k (s.seq k))
    (fun c s => s.veMemory c [s.readSel c a] o sc false false fun ops =>
      { accs := [(lanePair (opnd ops 0) 0, .zero, 0)] })
    noBody s

/-- OTJN (R247): passes a, consumes b, and with W waits until the VE's earlier accesses have been performed at the scope. -/
def execOtjn (a b d r : BitVec 4) (p : BitVec 3) (w : Bool) (sc : BitVec 3) (s : State) : Host.Outcome State Fault Refusal :=
  word (.otjn a b d r p w sc) (guarded p) noBody
    (fun c s =>
      let s := if w then s.release (.ve c) sc.toNat else s
      if w && !s.quiet (.ve c) sc.toNat then s.addStall 0
      else s.veFire c [a, b] d r false fun ops s' => s'.emit c d r (opnd ops 0))
    noBody s

end Sys2Proof.Machine
end

