-- ==== Sys2Proof/Machine/AtomicForms.lean ====
section
/-! DEFINITION. Atomics, near-memory operations and arrival barriers, opcodes 0xC0 to 0xCB (R249 to R258, R449). -/

namespace Sys2Proof.Machine

/-- R249: an atomic other than ACAS. -/
def atomicForm (i : Instr) (op : Atom) (a b d : BitVec 4) (o : BitVec 2) (sc : BitVec 3) (n : Nat) (t : Bool) (p : BitVec 3)
    (s : State) : Host.Outcome State Fault Refusal :=
  word i always
    (fun k s =>
      let ea := (s.seq k).get a
      s.seqAccess k o sc { ea := ea, op := .atom op n ((s.seq k).get b) 0, align := n, status := t }
        fun x s => s.seqOutcome k t p x.code ea (wordOf i) fun q => q.set d (x.data.setWidth 64))
    (fun c s => s.veMemory c [s.readSel c a, s.readSel c b] o sc true false fun ops =>
      { accs := [(lanePair (opnd ops 0) 0, .atom op n (lanePair (opnd ops 1) 0) 0, 0)], pred := statusPred t p, status := t })
    noBody s

/-- AADD (R249, R250). -/
def execAadd (a b d : BitVec 4) (o : BitVec 2) (sc w : BitVec 3) (t : Bool) (p : BitVec 3) (s : State) :
    Host.Outcome State Fault Refusal := atomicForm (.aadd a b d o sc w t p) .add a b d o sc (widthBytes w) t p s

/-- AAND (R249, R250). -/
def execAand (a b d : BitVec 4) (o : BitVec 2) (sc w : BitVec 3) (t : Bool) (p : BitVec 3) (s : State) :
    Host.Outcome State Fault Refusal := atomicForm (.aand a b d o sc w t p) .and a b d o sc (widthBytes w) t p s

/-- AOR (R249, R250). -/
def execAor (a b d : BitVec 4) (o : BitVec 2) (sc w : BitVec 3) (t : Bool) (p : BitVec 3) (s : State) :
    Host.Outcome State Fault Refusal := atomicForm (.aor a b d o sc w t p) .or a b d o sc (widthBytes w) t p s

/-- AXOR (R249, R250). -/
def execAxor (a b d : BitVec 4) (o : BitVec 2) (sc w : BitVec 3) (t : Bool) (p : BitVec 3) (s : State) :
    Host.Outcome State Fault Refusal := atomicForm (.axor a b d o sc w t p) .xor a b d o sc (widthBytes w) t p s

/-- ASWP (R249, R250). -/
def execAswp (a b d : BitVec 4) (o : BitVec 2) (sc w : BitVec 3) (t : Bool) (p : BitVec 3) (s : State) :
    Host.Outcome State Fault Refusal := atomicForm (.aswp a b d o sc w t p) .swap a b d o sc (widthBytes w) t p s

/-- ACAS (R249, R250): G[d], or the token that d names, holds the expected value. -/
def execAcas (a b d : BitVec 4) (o : BitVec 2) (sc w : BitVec 3) (t : Bool) (p : BitVec 3) (s : State) :
    Host.Outcome State Fault Refusal :=
  let n := widthBytes w
  let i := Instr.acas a b d o sc w t p
  word i always
    (fun k s =>
      let ea := (s.seq k).get a
      s.seqAccess k o sc { ea := ea, op := .atom .cas n ((s.seq k).get b) ((s.seq k).get d), align := n, status := t }
        fun x s => s.seqOutcome k t p x.code ea (wordOf i) fun q => q.set d (x.data.setWidth 64))
    (fun c s => s.veMemory c [s.readSel c a, s.readSel c b, s.readSel c d] o sc true false fun ops =>
      { accs := [(lanePair (opnd ops 0) 0, .atom .cas n (lanePair (opnd ops 1) 0) (lanePair (opnd ops 2) 0), 0)],
        pred := statusPred t p, status := t })
    noBody s

/-- AMMAX (R249, R250). -/
def execAmmax (a b d : BitVec 4) (o : BitVec 2) (sc w : BitVec 3) (t : Bool) (p : BitVec 3) (s : State) :
    Host.Outcome State Fault Refusal := atomicForm (.ammax a b d o sc w t p) .maxu a b d o sc (widthBytes w) t p s

/-- AFADD (R249, R250): FP32, ties to even. -/
def execAfadd (a b d : BitVec 4) (o : BitVec 2) (sc : BitVec 3) (t : Bool) (p : BitVec 3) (s : State) :
    Host.Outcome State Fault Refusal := atomicForm (.afadd a b d o sc t p) .fadd a b d o sc 4 t p s

/-! ### Near-memory operations (R251 to R254, R449) -/

/-- R252: the words of G[b], G[b + 1], … as one value; whether the ranges are legal is a check of the word. -/
def Seq.words (q : Seq) (b : BitVec 4) (n : Nat) : BitVec 256 :=
  (List.range n).foldr (fun i acc => (acc <<< 64) ||| (q.get (b + BitVec.ofNat 4 i)).setWidth 256) 0

def Seq.setWords (q : Seq) (b : BitVec 4) (n : Nat) (v : BitVec 512) : Seq :=
  (List.range n).foldl (fun q i => q.set (b + BitVec.ofNat 4 i) (v.extractLsb' (64 * i) 64)) q

/-- MCAS (R252). -/
def execMcas (a b d : BitVec 4) (o : BitVec 2) (sc w : BitVec 3) (t : Bool) (p : BitVec 3) (s : State) :
    Host.Outcome State Fault Refusal :=
  let n := widthBytes w
  let i := Instr.mcas a b d o sc w t p
  word i always
    (fun k s =>
      let q := s.seq k
      s.seqAccess k o sc { ea := q.get a, op := .near (.mcas (n / 8) (q.words b (n / 8)) (q.words d (n / 8))), align := n, status := t,
                           hbmOnly := true }
        fun x s => s.seqOutcome k t p x.code (q.get a) (wordOf i) fun q => if x.code = 7 then q.setWords b (n / 8) x.data else q)
    noBody noBody s

/-- ENQ (R253). -/
def execEnq (a b d : BitVec 4) (o : BitVec 2) (sc : BitVec 3) (t : Bool) (p : BitVec 3) (s : State) :
    Host.Outcome State Fault Refusal :=
  let i := Instr.enq a b d o sc t p
  word i always
    (fun k s =>
      let q := s.seq k
      s.seqAccess k o sc { ea := q.get a, op := .near (.enq (q.get b)), align := 64, status := t, hbmOnly := true }
        fun x s => s.seqOutcome k t p x.code (q.get a) (wordOf i) fun q => if x.code = 0 then q.set d (x.data.setWidth 64) else q)
    noBody noBody s

/-- R254 Table 5: whether CHASE's control is legal. -/
def chaseLegal (ctl : W64) : Bool :=
  ctl.extractLsb' 24 8 == 0 && ctl.extractLsb' 6 2 == 0 && (ctl.setWidth 5 : BitVec 5) != 0 &&
  decide ((ctl.setWidth 5 : BitVec 5).toNat ≤ 16)

/-- CHASE (R254). A node address that is null ends the list before any access; one that is not 8-byte aligned is Page exit (R251), once it has
been translated. -/
def execChase (a b d : BitVec 4) (o : BitVec 2) (sc : BitVec 3) (t : Bool) (p : BitVec 3) (s : State) :
    Host.Outcome State Fault Refusal :=
  let i := Instr.chase a b d o sc t p
  word i always
    (fun k s => s.seqRelease k o sc fun s =>
      let q := s.seq k
      let ea := q.get a
      if !chaseLegal (q.get b) then s.seqFault k 0x05 ((wordOf i).setWidth 64)
      else if ea = 0 then s.seqOutcome k t p 10 ea (wordOf i) fun q => q.set d 0
      else s.seqAccess k o sc { ea := ea, op := .near (.chase (q.get b)), align := 1, status := t, hbmOnly := true }
        fun x s => s.seqOutcome k t p x.code ea (wordOf i) fun q => q.set d (x.data.setWidth 64))
    noBody noBody s

/-! ### Arrival barriers -/

/-- R256: the operation that OP names, with the count or phase. -/
def barrierOp (x : BitVec 3) (v : W64) : MemOp :=
  match x.toNat with
  | 0 => .arrive v
  | 1 => .expect v
  | _ => .phase (v.setWidth 16)

/-- ABAR (R255 to R258). -/
def execAbar (a b d : BitVec 4) (o : BitVec 2) (sc x : BitVec 3) (t : Bool) (p : BitVec 3) (s : State) :
    Host.Outcome State Fault Refusal :=
  let i := Instr.abar a b d o sc x t p
  word i always
    (fun k s =>
      let ea := (s.seq k).get a
      s.seqAccess k o sc { ea := ea, op := barrierOp x ((s.seq k).get b), align := 64, status := t }
        fun y s => s.seqOutcome k t p y.code ea (wordOf i) fun q =>
          if y.code = 3 ∨ y.code = 5 ∨ y.code = 12 then q else q.set d (y.ver.setWidth 64))
    (fun c s => s.veMemory c [s.readSel c a, s.readSel c b] o sc true false fun ops =>
      { accs := [(lanePair (opnd ops 0) 0, barrierOp x ((lane0 (opnd ops 1)).setWidth 64), 0)], pred := statusPred t p, status := t })
    noBody s

end Sys2Proof.Machine
end

