-- ==== Sys2Proof/Machine/Convert.lean ====
section
/-! DEFINITION. Conversion forms, opcodes 0x80 to 0x87 (R106, R107, R174 to R178). The conversion route of R179 is part of `emit`. -/

namespace Sys2Proof.Machine

/-- R174: whether part `q` exists in a conversion of `m` lanes to `n` lanes. -/
def partOk (m n q : Nat) : Bool :=
  if m = n then q == 0
  else
    let ratio := if n < m then m / n else n / m
    decide (q < ratio)

/-- R175, R177: CVT takes no pairing of 16 with 128 lanes, and QNT none from FP32 to E2M1. -/
def ratio8 (m n : Nat) : Bool := m == 8 * n || n == 8 * m

/-- R174: the result data: `g i` is the converted code of source lane i. -/
def placePart (m : Nat) (dst : Fmt) (q : Nat) (old : BitVec 512) (g : Nat → Nat) : BitVec 512 :=
  let n := dst.lanes
  ofLanes 512 dst.bits fun i =>
    if n ≤ m then g (q * n + i)
    else if q * m ≤ i ∧ i < q * m + m then g (i - q * m) else (lane old dst.bits i).toNat

/-- An operand fault at the row that is due (R399 Table 2: TVAL is the word). -/
def State.operandFault (s : State) (c : Nat) (mn : Bool) (i : Instr) : State := s.addFault c mn 0x05 ((wordOf i).setWidth 64)

/-- CVT (R174, R175). -/
def execCvt (a : BitVec 4) (b : BitVec 3) (d r : BitVec 4) (p : BitVec 3) (q : BitVec 2) (n : Bool) (u : BitVec 2) (s : State) :
    Host.Outcome State Fault Refusal :=
  let i : Instr := .cvt a b d r p q n u
  word i (guarded p) noBody
    (fun c s => s.veFire c [a] d r false fun ops s' =>
      let t := opnd ops 0
      match fmtOfTag t.tag, fmtOfTag b with
      | some f, some g =>
        if partOk f.lanes g.lanes q.toNat && !ratio8 f.lanes g.lanes then
          let data := placePart f.lanes g q.toNat ((latchData (s.ve c) d).getD 0)
            fun k => cvt (valOf f (lane t.data f.bits k).toNat) g (rmOf u) n
          s'.emit c d r { data := data, tag := b, rnd := resultRound (s.ve c) ops }
        else s.operandFault c false i
      | _, _ => s.operandFault c false i) noBody s

/-- R176: a shift: a lane as I32, clamped to −255 to 255. -/
def shiftOf (x : BitVec 32) : Int := max (-255) (min 255 x.toInt)

/-- CVTI (R176). -/
def execCvti (a b d r : BitVec 4) (p : BitVec 3) (t : Bool) (u : BitVec 2) (s : State) : Host.Outcome State Fault Refusal :=
  word (.cvti a b d r p t u) (guarded p) noBody
    (fun c s => s.veResult c [a, b] d r fun ops =>
      let x := (opnd ops 0).data
      let y := (opnd ops 1).data
      (ofLanes 512 32 fun k =>
        let sh := shiftOf (lane y 32 k)
        if t then cvt ((valOf .i32 (lane x 32 k).toNat).mul (.fin false 1 (-sh))) .fp32 (rmOf u) false
        else cvt ((valOf .fp32 (lane x 32 k).toNat).mul (.fin false 1 sh)) .i32 (rmOf u) false,
       if t then 1 else 0)) noBody s

/-- R177: the scale of source lane k: lane `l` of b as FP32, or lane k mod 16. -/
def scaleOf (y : BitVec 512) (perLane : Bool) (l : BitVec 4) (k : Nat) : Val :=
  valOf .fp32 (lane y 32 (if perLane then k % 16 else l.toNat)).toNat

/-- R177: the shared form of QNT, DQNT and QNTR. `ok` says which source and destination formats the form takes. -/
def scaledForm (i : Instr) (a b d : BitVec 4) (ok : Fmt → Fmt → Bool) (dst : Fmt) (q : Nat) (ns : Bool) (u : BitVec 2) (perLane : Bool)
    (l : BitVec 4) (s : State) : Host.Outcome State Fault Refusal :=
  word i always noBody
    (fun c s => s.veFire c [a, b] d 0 false fun ops s' =>
      let t := opnd ops 0
      match fmtOfTag t.tag with
      | some f =>
        if ok f dst && partOk f.lanes dst.lanes q then
          let data := placePart f.lanes dst q ((latchData (s.ve c) d).getD 0)
            fun k => cvt ((valOf f (lane t.data f.bits k).toNat).mul (scaleOf (opnd ops 1).data perLane l k)) dst (rmOf u) ns
          s'.emit c d 0 { data := data, tag := dst.tag, rnd := resultRound (s.ve c) ops }
        else s.operandFault c false i
      | none => s.operandFault c false i) noBody s

/-- R177: the destination of QNT and QNTR. -/
def narrowFmt (t : BitVec 2) : Fmt :=
  match t.toNat with
  | 0 => .e4m3
  | 1 => .e5m2
  | 2 => .e2m1
  | _ => .i8

/-- QNT (R177). -/
def execQnt (a b d : BitVec 4) (t q : BitVec 2) (n : Bool) (u : BitVec 2) (p : Bool) (l : BitVec 4) (s : State) :
    Host.Outcome State Fault Refusal :=
  scaledForm (.qnt a b d t q n u p l) a b d (fun f g => (f == .fp32 && !ratio8 f.lanes g.lanes) || f == .bf16) (narrowFmt t) q.toNat n u p l s

/-- DQNT (R177). -/
def execDqnt (a b d : BitVec 4) (t : Bool) (q : BitVec 3) (u : BitVec 2) (p : Bool) (l : BitVec 4) (s : State) :
    Host.Outcome State Fault Refusal :=
  scaledForm (.dqnt a b d t q u p l) a b d (fun f _ => f == .e4m3 || f == .e5m2 || f == .e2m1 || f == .i8)
    (if t then .bf16 else .fp32) q.toNat false u p l s

/-- QNTR (R177). -/
def execQntr (a b d : BitVec 4) (t : BitVec 2) (q n : Bool) (u : BitVec 2) (p : Bool) (l : BitVec 4) (s : State) :
    Host.Outcome State Fault Refusal :=
  scaledForm (.qntr a b d t q n u p l) a b d (fun f _ => f == .e4m3 || f == .e5m2 || f == .i8) (narrowFmt t) q.toNat n u p l s

/-- R178: the larger of two magnitudes; any NaN gives a NaN. -/
def absMax (x y : Val) : Val :=
  if x.isNan || y.isNan then .nan else if x.abs.cmp y.abs == .lt then y.abs else x.abs

/-- ABSMX (R178). -/
def execAbsmx (a b d r : BitVec 4) (p : BitVec 3) (f : BitVec 2) (s : State) : Host.Outcome State Fault Refusal :=
  let fm : Fmt := if f = 1 then .bf16 else .fp32
  word (.absmx a b d r p f) (guarded p) noBody
    (fun c s => s.veResult c [a, b] d r fun ops =>
      let x := (opnd ops 0).data
      let top := (List.range fm.lanes).foldl (fun m k => absMax m (valOf fm (lane x fm.bits k).toNat))
        (absMax (.fin false 0 0) (valOf .fp32 (lane (opnd ops 1).data 32 0).toNat))
      (ofLanes 512 32 fun _ => roundIeee .fp32 .rne top, 1)) noBody s

/-- R178: a source of PK4: E4M3, E5M2 or I8. -/
def packSource (t : BitVec 3) : Option Fmt :=
  match fmtOfTag t with
  | some .e4m3 => some .e4m3
  | some .e5m2 => some .e5m2
  | some .i8 => some .i8
  | _ => none

/-- PK4 (R178): two 8-bit tokens into one E2M1 token. -/
def execPk4 (a b d r : BitVec 4) (p : BitVec 3) (u : BitVec 2) (s : State) : Host.Outcome State Fault Refusal :=
  let i : Instr := .pk4 a b d r p u
  word i (guarded p) noBody
    (fun c s => s.veFire c [a, b] d r false fun ops s' =>
      let x := opnd ops 0
      let y := opnd ops 1
      match packSource x.tag, packSource y.tag with
      | some f, some g =>
        let data := ofLanes 512 4 fun k =>
          if k < 64 then cvt (valOf f (lane x.data 8 k).toNat) .e2m1 (rmOf u) false
          else cvt (valOf g (lane y.data 8 (k - 64)).toNat) .e2m1 (rmOf u) false
        s'.emit c d r { data := data, tag := 5, rnd := resultRound (s.ve c) ops }
      | _, _ => s.operandFault c false i) noBody s

/-- UPK4 (R178): half of an E2M1 token as E4M3 lanes, exactly. -/
def execUpk4 (a d r : BitVec 4) (p : BitVec 3) (h : Bool) (s : State) : Host.Outcome State Fault Refusal :=
  let i : Instr := .upk4 a d r p h
  word i (guarded p) noBody
    (fun c s => s.veFire c [a] d r false fun ops s' =>
      let x := opnd ops 0
      if x.tag = 5 then
        let data := ofLanes 512 8 fun k =>
          cvt (valOf .e2m1 (lane x.data 4 (k + if h then 64 else 0)).toNat) .e4m3 .rne false
        s'.emit c d r { data := data, tag := 3, rnd := resultRound (s.ve c) ops }
      else s.operandFault c false i) noBody s

end Sys2Proof.Machine
end

