-- ==== Sys2Proof/Machine/Keys.lean ====
section
/-! DEFINITION. Key handles: what a handle permits and what it counts (R349 to R353, R363, R482). -/

namespace Sys2Proof.Machine

/-- The key record of a handle. -/
def State.handle (s : State) (kh : BitVec 16) : Option KeyRec := look none s.sec.handles kh.toNat

def State.setHandle (s : State) (kh : BitVec 16) (h : Option KeyRec) : State :=
  { s with sec := { s.sec with handles := put none s.sec.handles kh.toNat h } }

/-- R347, R351: whether a handle's kernel list holds a measurement. A region without an active measurement matches no list. -/
def State.listed (s : State) (h : KeyRec) (meas : BitVec 256) : Bool :=
  meas != 0 && h.klist != 0xFFFFFFFF && (look [] s.sec.kernels h.klist.toNat).contains meas

/-- R352, R482: whether a slot, table or buffer under handle `kh` is barred to a core: the handle is of TYPE 1 and its kernel list omits
the active measurement of the core's region, or the handle has been deleted. -/
def State.kernelBars (s : State) (core : Nat) (kh : BitVec 16) : Bool :=
  if kh = 0 then false
  else match s.handle kh with
    | none => true
    | some h => h.type == 1 && !(s.listed h (match s.regionOf core with
      | some k => (s.region k).meas
      | none => 0))

/-- R363: adds to a handle's counters. -/
def State.meter (s : State) (kh : BitVec 16) (rd wr fills : Nat) : State :=
  match s.handle kh with
  | none => s
  | some h => s.setHandle kh (some { h with rdb := h.rdb + BitVec.ofNat 64 rd, wrb := h.wrb + BitVec.ofNat 64 wr,
                                            fills := h.fills + BitVec.ofNat 64 fills })

/-- R349: the IV of an authenticated unit. -/
def unitIv (h : KeyRec) (ivlo : BitVec 32) (u : Nat) : BitVec 96 := h.salt ++ (ivlo ++ BitVec.ofNat 32 u)

/-- The bytes of a value of `8 * n` bits, lowest first. -/
def bytesOf {w : Nat} (x : BitVec w) (n : Nat) : List Byte := (List.range n).map fun k => x.extractLsb' (8 * k) 8

/-- A value from its bytes, lowest first. -/
def ofBytes (w : Nat) (l : List Byte) : BitVec w := l.foldr (fun b (x : BitVec w) => (x <<< 8) ||| b.setWidth w) 0

end Sys2Proof.Machine
end

