-- ==== Sys2Proof/Machine/Predicate.lean ====
section
/-! DEFINITION. Predicates, iteration counters, rounds and tags, opcodes 0x40 to 0x4D (R147, R163 to R167). -/

namespace Sys2Proof.Machine

/-- Writes a predicate of a VE. -/
def State.vePred (s : State) (c : Nat) (k : BitVec 3) (v : Bool) : State :=
  s.setVe c { s.ve c with preds := predSet (s.ve c).preds k v }

/-- Writes a predicate of an MN. -/
def State.mnPred (s : State) (c : Nat) (k : BitVec 3) (v : Bool) : State :=
  s.setMn c { s.mn c with preds := predSet (s.mn c).preds k v }

/-- Writes a predicate of a sequencer and moves past the word. -/
def State.seqPred (s : State) (n : Nat) (k : BitVec 3) (v : Bool) : State :=
  s.seqNext n { s.seq n with preds := predSet (s.seq n).preds k v }

/-- CMP (R163): the AND, or with d[3] the OR, of a condition over the lanes. -/
def execCmp (a b d : BitVec 4) (p c : BitVec 3) (w : BitVec 2) (s : State) : Host.Outcome State Fault Refusal :=
  word (.cmp a b d p c w) (guarded p)
    (fun n s => s.seqPred n (d.setWidth 3) (cmpLanes (laneWidth w) c (d.getLsbD 3) ((s.seq n).get a) ((s.seq n).get b)))
    (fun k s => s.veFire k [a, b] 15 0 true fun ops s' =>
      s'.vePred k (d.setWidth 3) (cmpLanes (laneWidth w) c (d.getLsbD 3) (opnd ops 0).data (opnd ops 1).data))
    noBody s

/-- FCMP (R163), on a VE. -/
def execFcmp (a b d : BitVec 4) (p : BitVec 3) (c : BitVec 2) (f : Bool) (s : State) : Host.Outcome State Fault Refusal :=
  word (.fcmp a b d p c f) (guarded p) noBody
    (fun k s => s.veFire k [a, b] 15 0 true fun ops s' =>
      s'.vePred k (d.setWidth 3)
        (fcmpLanes (if f then .bf16 else .fp32) c (d.getLsbD 3) (opnd ops 0).data (opnd ops 1).data))
    noBody s

/-- PLOG (R164): a logical function of two predicates. -/
def execPlog (a b d p f : BitVec 3) (s : State) : Host.Outcome State Fault Refusal :=
  word (.plog a b d p f) (guarded p)
    (fun n s => s.seqPred n d (logicFn f (predGet (s.seq n).preds a) (predGet (s.seq n).preds b)))
    (fun c s => s.vePred c d (logicFn f (predGet (s.ve c).preds a) (predGet (s.ve c).preds b)))
    (fun c s => s.mnPred c d (logicFn f (predGet (s.mn c).preds a) (predGet (s.mn c).preds b)))
    s

/-- R164: the eight predicates as PRD reads them. -/
def predByte (p : BitVec 8) : BitVec 8 := p ||| 0x80

/-- PRD (R164): G[d] := the predicates; bit 7 reads 1. -/
def execPrd (d : BitVec 4) (p : BitVec 3) (s : State) : Host.Outcome State Fault Refusal :=
  word (.prd d p) (guarded p) (fun n s => s.seqSet n d ((predByte (s.seq n).preds).setWidth 64)) noBody noBody s

/-- R164: P0 to P6 taken from `v` where `mask` is set. -/
def predWrite (p : BitVec 8) (v mask : W64) : BitVec 8 :=
  let m := mask.setWidth 8 &&& 0x7F
  (p &&& ~~~m) ||| (v.setWidth 8 &&& m)

/-- PWR (R164): P[i] := G[a][i] where G[b][i] is set, for i from 0 to 6. -/
def execPwr (a b : BitVec 4) (p : BitVec 3) (s : State) : Host.Outcome State Fault Refusal :=
  word (.pwr a b p) (guarded p)
    (fun n s => s.seqNext n { s.seq n with preds := predWrite (s.seq n).preds ((s.seq n).get a) ((s.seq n).get b) })
    noBody noBody s

/-- ITSET (R165): sets a counter's limit and clears its count. -/
def execItset (d : BitVec 2) (i : BitVec 16) (s : State) : Host.Outcome State Fault Refusal :=
  word (.itset d i) always noBody
    (fun c s => s.setVe c { s.ve c with ics := put {} (s.ve c).ics d.toNat { count := 0, limit := i } })
    (fun c s => s.setMn c { s.mn c with ics := put {} (s.mn c).ics d.toNat { count := 0, limit := i } })
    s

/-- R165: one advance of a counter, and whether it wrapped. The 16-bit count reaches a limit of 65536 as it wraps to 0. -/
def Counter.advance (k : Counter) : Counter × Bool :=
  if k.count + 1 = k.limit then ({ k with count := 0 }, true) else ({ k with count := k.count + 1 }, false)

/-- ITNXT (R165): advances a counter and writes whether it wrapped. -/
def execItnxt (a : BitVec 2) (d p : BitVec 3) (s : State) : Host.Outcome State Fault Refusal :=
  word (.itnxt a d p) (guarded p) noBody
    (fun c s =>
      let k := (look {} (s.ve c).ics a.toNat : Counter).advance
      (s.setVe c { s.ve c with ics := put {} (s.ve c).ics a.toNat k.1 }).vePred c d k.2)
    (fun c s =>
      let k := (look {} (s.mn c).ics a.toNat : Counter).advance
      (s.setMn c { s.mn c with ics := put {} (s.mn c).ics a.toNat k.1 }).mnPred c d k.2)
    s

/-- RNDGET (R166): an I32 token whose lane 0 holds the element's round. -/
def execRndget (d r : BitVec 4) (p : BitVec 3) (s : State) : Host.Outcome State Fault Refusal :=
  word (.rndget d r p) (guarded p) noBody
    (fun c s => s.veResult c [] d r fun _ => ((s.ve c).rnd.setWidth 512, 0)) noBody s

/-- RNDSET (R166): the element's round := bits 7 to 0 of lane 0 of a. -/
def execRndset (a : BitVec 4) (p : BitVec 3) (s : State) : Host.Outcome State Fault Refusal :=
  word (.rndset a p) (guarded p) noBody
    (fun c s => s.veFire c [a] 15 0 true fun ops s' =>
      s'.setVe c { s'.ve c with rnd := (opnd ops 0).data.setWidth 8 }) noBody s

/-- MKEMIT (R166): emits a marker of the element's round; an end-of-round marker then advances the round. -/
def execMkemit (d r : BitVec 4) (p : BitVec 3) (k : BitVec 2) (s : State) : Host.Outcome State Fault Refusal :=
  word (.mkemit d r p k) (guarded p) noBody
    (fun c s => s.veFire c [] d r false fun _ s' =>
      let m := marker (k.setWidth 8 + 1) (s.ve c).rnd
      (s'.emit c d r m).passMarker c m) noBody s

/-- Reads a selector without consuming it (R32, R147): an empty input port gives nothing, an empty X is treated as in R32, a marker of a
reserved kind is a fault (R48). -/
def State.peek (s : State) (c : Nat) (a : BitVec 4) (body : Option Token → State → State) : State :=
  match s.readSel c a with
  | .got o => if reservedMarker o.tok then s.addFault c false 0x14 (schedVal 7) else body (some o.tok) s
  | .stall x => s.addStall x
  | .empty sub => if a = 15 then s.addFault c false 0x14 (schedVal sub) else body none s

/-- MKTST (R166): whether the operand is a marker of a kind. -/
def execMktst (a : BitVec 4) (d p : BitVec 3) (k : BitVec 2) (s : State) : Host.Outcome State Fault Refusal :=
  word (.mktst a d p k) (guarded p) noBody
    (fun c s => s.peek c a fun t s' => s'.vePred c d (match t with
      | some t => isMarker t && (k == 0 || markerKind t == k.setWidth 8)
      | none => false)) noBody s

/-- TAGSET (R167): the operand's bytes under a new tag. -/
def execTagset (a d r : BitVec 4) (p t : BitVec 3) (s : State) : Host.Outcome State Fault Refusal :=
  word (.tagset a d r p t) (guarded p) noBody
    (fun c s => s.veResult c [a] d r fun ops => ((opnd ops 0).data, t)) noBody s

/-- TAGCHK (R167): whether the operand's tag is `t`; 7 tests for a marker. -/
def execTagchk (a : BitVec 4) (d p t : BitVec 3) (s : State) : Host.Outcome State Fault Refusal :=
  word (.tagchk a d p t) (guarded p) noBody
    (fun c s => s.peek c a fun x s' => s'.vePred c d (match x with
      | some x => x.tag == t
      | none => false)) noBody s

/-- TAGGET (R167): consumes a, a marker as data, and emits its tag and round in lanes 0 and 1. -/
def execTagget (a d r : BitVec 4) (p : BitVec 3) (s : State) : Host.Outcome State Fault Refusal :=
  word (.tagget a d r p) (guarded p) noBody
    (fun c s =>
      match s.settle c [s.readSel c a] (s.routeStall c r) with
      | .inl s' => s'
      | .inr ops =>
        if ops.any fun o => reservedMarker o.tok then s.addFault c false 0x14 (schedVal 7)
        else match s.checkTags c ops with
        | some s' => s'
        | none =>
          let t := opnd ops 0
          (s.consume c ops).emit c d r
            { data := (t.rnd.setWidth 32 ++ t.tag.setWidth 32 : BitVec 64).setWidth 512, tag := 0,
              rnd := resultRound (s.ve c) ops }) noBody s

end Sys2Proof.Machine
end

