-- ==== Sys2Proof/Machine/Matrix.lean ====
section
/-! DEFINITION. Matrix node forms, opcodes 0x90 to 0x9B (R110 to R115, R194 to R215, R485). -/

namespace Sys2Proof.Machine

/-! ### Parts of a matrix node -/

def Mn.slot (m : Mn) (n : Nat) : Slot := look {} m.slots n

def Mn.setSlot (m : Mn) (n : Nat) (x : Slot) : Mn := { m with slots := put {} m.slots n x }

def Mn.buffer (m : Mn) (b : Bool) : Buffer := look {} m.buffers (if b then 1 else 0)

def Mn.setBuffer (m : Mn) (b : Bool) (x : Buffer) : Mn := { m with buffers := put {} m.buffers (if b then 1 else 0) x }

def Mn.handle (m : Mn) (d : BitVec 2) : Handle := look {} m.handles d.toNat

def Mn.setHandle (m : Mn) (d : BitVec 2) (x : Handle) : Mn := { m with handles := put {} m.handles d.toNat x }

def Mn.block (m : Mn) (d : BitVec 2) (i : Nat) : Option OpenBlock := look none m.blocks (64 * d.toNat + i)

def Mn.setBlock (m : Mn) (d : BitVec 2) (i : Nat) (x : Option OpenBlock) : Mn :=
  { m with blocks := put none m.blocks (64 * d.toNat + i) x }

def Mn.accRow (m : Mn) (slot i : Nat) : BitVec 2048 := look 0 m.acc (64 * slot + i)

def Mn.setAccRow (m : Mn) (slot i : Nat) (x : BitVec 2048) : Mn := { m with acc := put 0 m.acc (64 * slot + i) x }

def Mn.table (m : Mn) (t : Nat) : DecTable := look {} m.tables t

/-- R194: the row that IC[n] names. -/
def Mn.rowIndex (m : Mn) (n : BitVec 2) : Nat := (look {} m.ics n.toNat : Counter).count.toNat % 64

/-- R209, R213: advances IC[n] as ITNXT does, writing no predicate. -/
def Mn.advance (m : Mn) (n : BitVec 2) (inc : Bool) : Mn :=
  if inc then { m with ics := put {} m.ics n.toNat (look {} m.ics n.toNat : Counter).advance.1 } else m

/-- R399 Table 2: the value of a slot fault. -/
def slotVal (n : BitVec 5) (claims : BitVec 4) : W64 := 0#52 ++ (claims ++ (0#3 ++ n))

/-- R399 Table 2: the value of a decode fault. -/
def decodeVal (f : DecodeFault) : W64 :=
  0#17 ++ (BitVec.ofNat 3 f.cause ++ (f.slot ++ (f.off ++ (f.tnum ++ (0#2 ++ BitVec.ofNat 12 f.sym)))))

/-- R197: CP. -/
def cpHolds (c : BitVec 3) (preds : BitVec 8) : Bool := predGet preds c

/-- An MN row. -/
def mnWord (i : Instr) (c : BitVec 3) (body : Nat → State → State) (s : State) : Host.Outcome State Fault Refusal :=
  word i (cpHolds c) noBody noBody body s

/-! ### Operand slots: WCLM, WREL, WSTAT -/

/-- R75, R200: a claim waits while a fill is pending, and one that has waited, until that fill has completed. -/
def Slot.claimWaits (x : Slot) : Bool := x.pend || (x.state == 1 && x.claiming)

/-- WCLM (R75, R200). -/
def execWclm (c : BitVec 3) (n : BitVec 5) (s : State) : Host.Outcome State Fault Refusal :=
  mnWord (.wclm c n) c (fun k s =>
    let x := (s.mn k).slot n.toNat
    if x.claimWaits then
      let s1 := s.addStall 3
      { s1 with scratch := { s1.scratch with claims := s1.scratch.claims ++ [(k, n)] } }
    else if x.claims = 15 then s.addFault k true 0x18 (slotVal n x.claims)
    else s.setMn k ((s.mn k).setSlot n.toNat { x with claims := x.claims + 1, claiming := false })) s

/-- WREL (R75, R200). -/
def execWrel (c : BitVec 3) (n : BitVec 5) (s : State) : Host.Outcome State Fault Refusal :=
  mnWord (.wrel c n) c (fun k s =>
    let x := (s.mn k).slot n.toNat
    if x.claims = 0 then s.addFault k true 0x18 (slotVal n x.claims)
    else s.setMn k ((s.mn k).setSlot n.toNat { x with claims := x.claims - 1 })) s

/-- R202: the tests of WSTAT. -/
def Slot.passes (x : Slot) (t : BitVec 2) : Bool :=
  match t.toNat with
  | 0 => x.state == 2 && !x.pend
  | 1 => x.pend
  | 2 => decide (x.claims ≠ 0)
  | _ => x.mirror

/-- WSTAT on a matrix node (R202). -/
def execWstatMn (m : BitVec 3) (t : BitVec 2) (n : BitVec 5) (s : State) : Host.Outcome State Fault Refusal :=
  mnWord (.wstatMn m t n) 7 (fun k s => s.mnPred k m (((s.mn k).slot n.toNat).passes t)) s

/-- R74 Table 4: the state of a slot as 128 bits. -/
def Slot.bits (x : Slot) : BitVec 128 :=
  0#6 ++ (x.gpa ++ (x.kh ++ (0#5 ++ (BitVec.ofBool x.pend ++ (x.state ++ (x.claims ++ (BitVec.ofBool x.mirror ++ (x.len ++ 0#26))))))))

/-- WSTAT on a sequencer (R202): half of a slot's state of a core of the sequencer's partition. -/
def execWstatSeq (d a : BitVec 4) (h : Bool) (n : BitVec 5) (s : State) : Host.Outcome State Fault Refusal :=
  word (.wstatSeq d a h n) always
    (fun q s =>
      let core := (((s.seq q).get a).setWidth 11).toNat
      let v : BitVec 128 :=
        if core < 1536 ∧ s.coreOwner core = (s.seq q).part then ((s.mn core).slot n.toNat).bits else 0
      s.seqSet q d (if h then v.extractLsb' 64 64 else v.setWidth 64)) noBody noBody s

/-! ### The activation port (R198, R485) -/

/-- The token at the activation port as an MN row reads it. -/
def Mn.actToken (m : Mn) : Option Token := if m.actBack.isSome then m.actBack else m.act

/-- Consumes the token at the activation port. -/
def State.takeAct (s : State) (c : Nat) : State :=
  if (s.mn c).actBack.isSome then s.setMn c { s.mn c with actBack := none } else s.setMn c { s.mn c with act := none }

/-- R48, R198: a marker at act is consumed, and an end-of-round marker advances the MN's round; a reserved kind faults. -/
def State.mnMarker (s : State) (c : Nat) (m : Token) : State :=
  let s' := s.takeAct c
  if reservedMarker m then s.addFault c true 0x14 (schedVal 7)
  else if markerKind m = 1 then s'.setMn c { s'.mn c with rnd := (s'.mn c).rnd + 1 } else s'

/-- R52 to R55, R198: the tag check of the token at act: goes on, faults, or steers it. -/
def State.checkAct (s : State) (c : Nat) (t : Token) : Option State :=
  let tags := (s.mnRow c).tags
  let conv := match s.islandOf c with
    | some k => descConv (s.island k).desc
    | none => 0x7F
  if tags.getLsbD t.tag.toNat then none
  else match (if conv = 0x7F then none else conversionTag tags t.tag) with
    | none => some (s.addFault c true 0x15 ((0#48 ++ tags) ++ (0#5 ++ t.tag)))
    | some g =>
      let s1 := s.addStall 2
      some { s1 with scratch := { s1.scratch with steers := s1.scratch.steers ++ [(c, 17, convertToken t g)] } }

/-! ### Decoding: PXD, PTLD -/

/-- R201: ends the hold of a decode on its slot. -/
def Mn.release (m : Mn) (slot : BitVec 5) : Mn :=
  let x := m.slot slot.toNat
  m.setSlot slot.toNat { x with holds := x.holds - 1 }

/-- R203: cancels the unfinished decodes into a buffer; their holds end. -/
def Mn.cancel (m : Mn) (b : Bool) : Mn :=
  let m' := (m.queue.filter fun e => e.buf == b).foldl (fun m e => m.release e.slot) m
  { m' with queue := m'.queue.filter fun e => e.buf != b }

/-- A refusal of R352 carries a value that R399 does not state. -/
def State.barred (s : State) (c : Nat) : State :=
  { s.addFault c true 0x0D (Config.freeWord s.free) with free := s.free + 1 }

/-- PXD (R201, R203, R352): queues a decode of the next tile of a slot. -/
def execPxd (n : BitVec 5) (b r : Bool) (c : BitVec 3) (s : State) : Host.Outcome State Fault Refusal :=
  mnWord (.pxd n b r c) c (fun k s =>
    let m := s.mn k
    let x := m.slot n.toNat
    if x.claims = 0 then s.addFault k true 0x18 (slotVal n x.claims)
    else if 2 ≤ (m.queue.filter fun e => e.buf != b).length then s.addStall 3
    else if s.kernelBars k x.kh then s.barred k
    else
      let m1 := m.cancel b
      let y := m1.slot n.toNat
      let m2 := m1.setSlot n.toNat { y with holds := y.holds + 1 }
      let m3 := { m2 with queue := m2.queue ++ [({ slot := n, buf := b, rst := r } : Decode)] }
      s.setMn k (m3.setBuffer b { slot := n, kh := x.kh })) s

/-- PTLD (R205, R216): freezes its island until PTLD_COMPLETE, which acts at the end of a frozen cycle, has loaded the table, then fires, or
faults as the load did. -/
def execPtld (n : BitVec 5) (t : BitVec 2) (h : Bool) (c : BitVec 3) (s : State) : Host.Outcome State Fault Refusal :=
  mnWord (.ptld n t h c) c (fun k s =>
    let m := s.mn k
    let x := m.slot n.toNat
    match m.ptld with
    | .done => s.setMn k { m with ptld := .none }
    | .failed => s.operandFault k true (.ptld n t h c)
    | _ =>
      if x.claims = 0 then s.addFault k true 0x18 (slotVal n x.claims)
      else if s.kernelBars k x.kh then s.barred k
      else
        let s1 := s.addStall 3
        { s1 with scratch := { s1.scratch with ptlds := s1.scratch.ptlds ++ [k] } }) s

/-! ### Scales: LDRS, LDCS (R206) -/

/-- R206: the entries a scale load writes. -/
def loadScales (old : Tab Word) (q : BitVec 2) (bc : Bool) (x : BitVec 512) : Tab Word :=
  if bc then (List.range 64).foldl (fun t k => put 0 t k (lane x 32 0)) old
  else (List.range 16).foldl (fun t k => put 0 t (16 * q.toNat + k) (lane x 32 k)) old

/-- The shared form of LDRS and LDCS: an empty act, a marker, tags, then the load. -/
def scaleForm (i : Instr) (c : BitVec 3) (load : BitVec 512 → Mn → Mn) (s : State) : Host.Outcome State Fault Refusal :=
  mnWord i c (fun k s =>
    if (s.mn k).actSteering then s.addStall 2
    else match (s.mn k).actToken with
    | none => s.addFault k true 0x14 (schedVal 8)
    | some t =>
      if isMarker t then s.mnMarker k t
      else match s.checkAct k t with
        | some s' => s'
        | none => let s' := s.takeAct k; s'.setMn k (load t.data (s'.mn k))) s

/-- LDRS (R206). -/
def execLdrs (q : BitVec 2) (k : Bool) (c : BitVec 3) (s : State) : Host.Outcome State Fault Refusal :=
  scaleForm (.ldrs q k c) c (fun x m => { m with rowScale := loadScales m.rowScale q k x }) s

/-- LDCS (R206). -/
def execLdcs (q : BitVec 2) (k : Bool) (c : BitVec 3) (s : State) : Host.Outcome State Fault Refusal :=
  scaleForm (.ldcs q k c) c (fun x m => { m with colScale := loadScales m.colScale q k x }) s

/-! ### Multiplying (R110 to R116, R208 to R211) -/

/-- R208 Table 3: weight format, activation format, K values of a firing, block limit (0: none), and whether the accumulator is I32. -/
structure PairRow where
  wf : Fmt
  af : Fmt
  len : Nat
  limit : Nat
  i32 : Bool
  deriving DecidableEq, Repr

def pairRow (y : BitVec 3) : PairRow :=
  match y.toNat with
  | 0 => ⟨.e4m3, .e4m3, 64, 128, false⟩
  | 1 => ⟨.e4m3, .e5m2, 64, 128, false⟩
  | 2 => ⟨.e5m2, .e4m3, 64, 128, false⟩
  | 3 => ⟨.e2m1, .e4m3, 64, 128, false⟩
  | 4 => ⟨.e2m1, .e2m1, 128, 256, false⟩
  | 5 => ⟨.bf16, .bf16, 32, 128, false⟩
  | _ => ⟨.i8, .i8, 64, 0, true⟩

/-- R180 Table 1: the code of weight W[k][n] in a raw image. -/
def weightCode (f : Fmt) (image : BitVec 32768) (k n : Nat) : Nat :=
  match f with
  | .e2m1 => (lane image 4 (2 * (64 * (k / 2) + n) + k % 2)).toNat
  | .bf16 => (lane image 16 (64 * k + n)).toNat
  | _ => (lane image 8 (64 * k + n)).toNat

/-- R195: adds one product to an element's exact sum and flags. -/
def addProduct (e : Int × BitVec 4) (v : Val) : Int × BitVec 4 :=
  match v with
  | .nan => (e.1, e.2 ||| 0b1001)
  | .inf n => (e.1, e.2 ||| (if n then 0b1100 else 0b1010))
  | .fin n m x => (e.1 + stepsAt n m x (-266), if n && m == 0 then e.2 else e.2 ||| 0b1000)

/-- R209: the products of a firing with column j, added to an element. -/
def addColumn (p : PairRow) (x : BitVec 512) (image : BitVec 32768) (kbase j : Nat) (e : Int × BitVec 4) : Int × BitVec 4 :=
  (List.range p.len).foldl (fun e l =>
    addProduct e ((valOf p.af (lane x p.af.bits l).toNat).mul (valOf p.wf (weightCode p.wf image (kbase + l) j)))) e

/-- R115: the exact integer sum of the products of a firing with column j. -/
def intColumn (p : PairRow) (x : BitVec 512) (image : BitVec 32768) (j : Nat) : Int :=
  (List.range p.len).foldl (fun e l =>
    e + (BitVec.ofNat 8 (lane x 8 l).toNat).toInt * (BitVec.ofNat 8 (weightCode p.wf image l j)).toInt) 0

/-- R113 `fp32_block`, as a code. -/
def blockCode (sum : Int) (flags : BitVec 4) : Nat :=
  if flags.getLsbD 0 then Fmt.fp32.qnan
  else if flags.getLsbD 1 && flags.getLsbD 2 then Fmt.fp32.qnan
  else if flags.getLsbD 1 then Fmt.fp32.infCode
  else if flags.getLsbD 2 then 2 ^ 31 + Fmt.fp32.infCode
  else if !flags.getLsbD 3 then 2 ^ 31
  else if sum = 0 then 0
  else roundIeee .fp32 .rne (.fin (decide (sum < 0)) sum.natAbs (-266))

/-- R112 `promote`: one element, in the fixed order of its four steps. -/
def promoteCode (acc p rowScale colScale : Nat) : Nat :=
  addCode .fp32 .rne acc (mulCode .fp32 .rne p (mulCode .fp32 .rne rowScale colScale))

/-- R209 `promote_row`. -/
def Mn.promoteRow (m : Mn) (d : BitVec 2) (i : Nat) : Mn :=
  match m.block d i, (m.handle d).slot with
  | some ob, some slot =>
    let old := m.accRow slot i
    let rs := (look 0 m.rowScale i).toNat
    let new := ofLanes 2048 32 fun j =>
      promoteCode (lane old 32 j).toNat (blockCode (ob.sums.getD j 0) (ob.flags.getD j 0)) rs (look 0 m.colScale j).toNat
    (m.setAccRow slot i new).setBlock d i none
  | _, _ => m

/-- What R204 says of a buffer over a span: it can be used, a decode fault lies below the span's end, its symbols are still to come,
or no decode is pending. -/
inductive Span where
  | ready
  | fault (f : DecodeFault)
  | pending
  | unused
  deriving DecidableEq, Repr

/-- R204, R208: the end of the byte span of a firing. -/
def spanEnd (y : BitVec 3) (h : Bool) : Nat := if y = 3 ∧ h = false then 2048 else 4096

def Mn.span (m : Mn) (b : Bool) (stop : Nat) : Span :=
  let x := m.buffer b
  match x.flt with
  | some f => if f.sym < stop then .fault f else if stop ≤ x.nsym then .ready else .unused
  | none =>
    if stop ≤ x.nsym then .ready
    else if m.queue.any fun e => e.buf == b then .pending else .unused

/-- R77, R78: binds a handle to the slot at the head of the free list, every element zero. -/
def Mn.bind (m : Mn) (d : BitVec 2) (i32 : Bool) : Mn :=
  match m.free with
  | slot :: rest =>
    let m' := (List.range 64).foldl (fun m i => m.setAccRow slot i 0) m
    { m'.setHandle d { slot := some slot, i32 := i32 } with free := rest }
  | [] => m

/-- R209: the accumulator and block checks of MMA. -/
def Mn.mmaCheck (m : Mn) (d : BitVec 2) (y : BitVec 3) (i : Nat) : Option (BitVec 8) :=
  let p := pairRow y
  match (m.handle d).slot with
  | some _ =>
    if (m.handle d).i32 != p.i32 then some 0x19
    else match m.block d i with
      | some ob => if ob.pair != y || decide (p.limit < ob.count + p.len) then some 0x05 else none
      | none => none
  | none => if m.free.isEmpty then some 0x19 else none

/-- R209: the effect of an MMA whose checks have passed. -/
def Mn.mma (m : Mn) (x : BitVec 512) (d : BitVec 2) (y : BitVec 3) (b h pr : Bool) (n : BitVec 2) (inc : Bool) : Mn :=
  let p := pairRow y
  let i := m.rowIndex n
  let image := (m.buffer b).data
  let m1 := if (m.handle d).slot.isNone then m.bind d p.i32 else m
  let slot := (m1.handle d).slot.getD 0
  let m2 :=
    if p.i32 then
      let old := m1.accRow slot i
      m1.setAccRow slot i (ofLanes 2048 32 fun j =>
        (lane old 32 j + BitVec.ofInt 32 (intColumn p x image j)).toNat)
    else
      let ob : OpenBlock := (m1.block d i).getD { pair := y, count := 0, sums := [], flags := [] }
      let kbase := if y = 3 ∧ h then 64 else 0
      let es := (List.range 64).map fun j => addColumn p x image kbase j (ob.sums.getD j 0, ob.flags.getD j 0)
      m1.setBlock d i (some { pair := y, count := ob.count + p.len, sums := es.map (·.1), flags := es.map (·.2) })
  let m3 := if pr then m2.promoteRow d i else m2
  let m4 := m3.advance n inc
  if y = 5 then { m4 with occupied := true } else m4

/-- MMA (R204, R208 to R211). A marker at act is consumed before any wait or check; the checks stand in the order of R209, the tag
check of R198 before them (R425). -/
def execMma (a : BitVec 4) (d : BitVec 2) (y : BitVec 3) (x h r : Bool) (i : BitVec 2) (n : Bool) (c : BitVec 3) (s : State) :
    Host.Outcome State Fault Refusal :=
  let ins : Instr := .mma a d y x h r i n c
  mnWord ins c (fun k s =>
    let m := s.mn k
    if a = 8 ∧ m.actSteering then s.addStall 2
    else if a = 8 ∧ (m.actToken.map isMarker) = some true then s.mnMarker k (m.actToken.getD ⟨0, 0, 0⟩)
    else if m.span x (spanEnd y h) = .pending then s.addStall 3
    else match (if a = 8 then m.actToken.bind (s.checkAct k) else none) with
    | some s' => s'
    | none =>
      match m.span x (spanEnd y h) with
      | .fault f => s.addFault k true 0x17 (decodeVal f)
      | .unused => s.operandFault k true ins
      | _ =>
        if a = 8 ∧ m.actToken.isNone then s.addFault k true 0x14 (schedVal 8)
        else if m.occupied then s.addFault k true 0x14 (schedVal 3)
        else if s.kernelBars k (m.buffer x).kh then s.barred k
        else if (m.buffer x).fmt ≠ some (pairRow y).wf.tag then s.operandFault k true ins
        else match m.mmaCheck d y (m.rowIndex i) with
        | some kind => if kind = 0x19 then s.addFault k true kind (d.setWidth 64) else s.operandFault k true ins
        | none =>
          let t := if a = 8 then (m.actToken.map (·.data)).getD 0 else 0
          let s' := if a = 8 then s.takeAct k else s
          s'.setMn k ((s'.mn k).mma t d y x h r i n)) s

/-! ### Promote, drain, zero and release (R212 to R215) -/

/-- PROM (R212). -/
def execProm (d : BitVec 2) (c : BitVec 3) (s : State) : Host.Outcome State Fault Refusal :=
  mnWord (.prom d c) c (fun k s =>
    let m := s.mn k
    if (m.handle d).slot.isNone then s.addFault k true 0x19 (d.setWidth 64)
    else s.setMn k ((List.range 64).foldl (fun m i => m.promoteRow d i) m)) s

/-- R213: the lanes that ADRN reads, and their tag. -/
def drainData (row : BitVec 2048) (q : BitVec 2) (bf i32 : Bool) : BitVec 512 × BitVec 3 :=
  if bf then (ofLanes 512 16 fun l => cvt (valOf .fp32 (lane row 32 (32 * q.toNat + l)).toNat) .bf16 .rne false, 2)
  else (ofLanes 512 32 fun l => (lane row 32 (16 * q.toNat + l)).toNat, if i32 then 0 else 1)

/-- R213: the elements that ADRN with ZR zeroes. -/
def zeroPart (row : BitVec 2048) (q : BitVec 2) (bf : Bool) : BitVec 2048 :=
  if bf then setBits row (1024 * q.toNat) 1024 0 else setBits row (512 * q.toNat) 512 0

/-- ADRN (R213, R214): reads a part of an accumulator row into the drain stage. -/
def execAdrn (d q : BitVec 2) (f z : Bool) (i : BitVec 2) (n : Bool) (c : BitVec 3) (s : State) : Host.Outcome State Fault Refusal :=
  let ins : Instr := .adrn d q f z i n c
  mnWord ins c (fun k s =>
    let m := s.mn k
    match (m.handle d).slot with
    | none => s.addFault k true 0x19 (d.setWidth 64)
    | some slot =>
      if f && (m.handle d).i32 then s.operandFault k true ins
      else
        let row := m.accRow slot (m.rowIndex i)
        let t := drainData row q f (m.handle d).i32
        let m1 := if z then m.setAccRow slot (m.rowIndex i) (zeroPart row q f) else m
        let isl := s.island ((s.islandOf k).getD 0)
        let m2 := { m1 with drainIn := some ({ data := t.1, tag := t.2, rnd := m.rnd }, isl.cnt, isl.iter) }
        s.setMn k (m2.advance i n)) s

/-- R215: discards every open block of a handle. -/
def Mn.dropBlocks (m : Mn) (d : BitVec 2) : Mn := (List.range 64).foldl (fun m i => m.setBlock d i none) m

/-- AZER (R215). -/
def execAzer (d : BitVec 2) (c : BitVec 3) (s : State) : Host.Outcome State Fault Refusal :=
  mnWord (.azer d c) c (fun k s =>
    let m := s.mn k
    match (m.handle d).slot with
    | none => s.addFault k true 0x19 (d.setWidth 64)
    | some slot => s.setMn k (((List.range 64).foldl (fun m i => m.setAccRow slot i 0) m).dropBlocks d)) s

/-- AREL (R77, R215): the slot returns to the tail of the free list once the drain stage is empty; a lost slot does not. -/
def execArel (d : BitVec 2) (c : BitVec 3) (s : State) : Host.Outcome State Fault Refusal :=
  mnWord (.arel d c) c (fun k s =>
    let m := s.mn k
    match (m.handle d).slot with
    | none => s.addFault k true 0x19 (d.setWidth 64)
    | some slot =>
      let m1 := (m.dropBlocks d).setHandle d {}
      s.setMn k (if m.lost.contains slot then m1
        else if m.drain.isSome || m.drainIn.isSome then { m1 with returning := m1.returning ++ [slot] }
        else { m1 with free := m1.free ++ [slot] })) s

end Sys2Proof.Machine
end

