-- ==== Sys2Proof/Machine/Control.lean ====
section
/-! DEFINITION. Control and system forms, opcodes 0x00 to 0x13 (R149 to R158). -/

namespace Sys2Proof.Machine

/-- NOP (R149). -/
def execNop (p : BitVec 3) (s : State) : Host.Outcome State Fault Refusal :=
  word (.nop p) (guarded p) (fun n s => s.seqNext n (s.seq n)) noBody noBody s

/-- R151: a wait in progress keeps pc; the record tells a trap that the word has begun. -/
def State.seqIdle (s : State) (n : Nat) : State := s.setSeq n { s.seq n with wait := some {} }

/-- IDLE (R151). -/
def execIdle (p : BitVec 3) (s : State) : Host.Outcome State Fault Refusal :=
  word (.idle p) (guarded p)
    (fun n s =>
      let q := s.seq n
      if q.event then s.seqNext n { q with event := false, wait := none } else s.seqIdle n)
    noBody noBody s

/-! ### Transfers (R150) -/

/-- R150 fetch: goes on at the target, or raises an instruction-fetch fault with the transfer's pc. -/
def State.transfer (s : State) (n : Nat) (target : W64) : State :=
  if target.setWidth 2 != (0 : BitVec 2) || decide (0xFFFC < target.toNat) then s.seqFault n 0x01 target
  else s.setSeq n { s.seq n with pc := target, begun := false }

/-- R150: the target of an offset in words. -/
def branchTarget (pc : W64) (f : BitVec 20) : W64 := pc + (f.signExtend 64 <<< 2)

/-- B (R150). -/
def execB (c : BitVec 4) (f : BitVec 20) (s : State) : Host.Outcome State Fault Refusal :=
  word (.b c f) (condHolds c) (fun n s => s.transfer n (branchTarget (s.seq n).pc f)) noBody noBody s

/-- BI (R150). -/
def execBi (a : BitVec 4) (p : BitVec 3) (s : State) : Host.Outcome State Fault Refusal :=
  word (.bi a p) (guarded p) (fun n s => s.transfer n ((s.seq n).get a)) noBody noBody s

/-- R150: pushes the return address and goes to the target; the push is never parked. -/
def State.callTo (s : State) (n : Nat) (target : W64) : State :=
  let sp := (s.seq n).get 15 - 8
  s.seqScript n fun got => match got with
    | [] => .inl { ea := sp, op := .store 8 (seqData ((s.seq n).pc + 4)), align := 8, noPark := true }
    | _ => .inr fun s => (s.setSeq n ((s.seq n).set 15 sp)).transfer n target

/-- CALL (R150). -/
def execCall (c : BitVec 4) (f : BitVec 20) (s : State) : Host.Outcome State Fault Refusal :=
  word (.call c f) (condHolds c) (fun n s => s.callTo n (branchTarget (s.seq n).pc f)) noBody noBody s

/-- CALLI (R150). -/
def execCalli (a : BitVec 4) (p : BitVec 3) (s : State) : Host.Outcome State Fault Refusal :=
  word (.calli a p) (guarded p) (fun n s => s.callTo n ((s.seq n).get a)) noBody noBody s

/-- RET (R150). -/
def execRet (p : BitVec 3) (s : State) : Host.Outcome State Fault Refusal :=
  word (.ret p) (guarded p)
    (fun n s => s.seqScript n fun got => match got with
      | [] => .inl { ea := (s.seq n).get 15, op := .load 8, align := 8 }
      | a :: _ => .inr fun s =>
        (s.setSeq n ((s.seq n).set 15 ((s.seq n).get 15 + 8))).transfer n (a.data.setWidth 64))
    noBody noBody s

/-- LOOP (R150). -/
def execLoop (d : BitVec 4) (i : BitVec 16) (s : State) : Host.Outcome State Fault Refusal :=
  word (.loop d i) always
    (fun n s =>
      let q := s.seq n
      let v := q.get d
      let v' := if v = 0 then 0 else v - 1
      (s.setSeq n (q.set d v')).transfer n (if ((q.set d v').get d) != 0 then q.pc + (i.signExtend 64 <<< 2) else q.pc + 4))
    noBody noBody s

/-- WAITT (R151). -/
def execWaitt (m : BitVec 8) (s : State) : Host.Outcome State Fault Refusal :=
  word (.waitt m) always
    (fun n s =>
      let q := s.seq n
      if q.tokens &&& m = 0 then s.seqNext n { q with wait := none } else s.seqIdle n)
    noBody noBody s

/-! ### CSRs (R35, R152, R153) -/

/-- R35: the islands of a cluster's active configuration, in row-major order of their north-west corners. -/
def State.clusterIslands (s : State) (clu : Nat) : List Nat :=
  (s.islands.filter fun e => decide (clusterOf e.1 = clu) && e.2.desc != 0).map (·.1)

/-- R35: the island that SQ_ISLSEL selects, when it is one of the sequencer's partition. -/
def State.selected (s : State) (q : Seq) : Option Nat :=
  match (s.clusterIslands (q.islSel.setWidth 4 : BitVec 4).toNat)[(q.islSel.extractLsb' 8 5).toNat]? with
  | some k => if (s.region (s.island k).region).part = q.part then some k else none
  | none => none

/-- R35 Table 4: SQ_ISLSTAT of an island. -/
def State.islStat (s : State) (k : Nat) : W64 :=
  let i := s.island k
  i.frzLen ++ (i.rstRnd ++ (i.round ++ (0#5 ++ (BitVec.ofBool i.rval ++ (i.src ++ (BitVec.ofBool (s.core k).bank ++
    (BitVec.ofBool i.trapped ++ (BitVec.ofBool i.frozen ++ BitVec.ofNat 5 i.cnt))))))))

/-- R153: reading a CSR; none where Table 3 has no such number. -/
def State.csrRead (s : State) (n : Nat) (num : BitVec 12) : Option W64 :=
  let q := s.seq n
  match num.toNat with
  | 0x000 => some q.islSel
  | 0x001 => some (q.wake.setWidth 64)
  | 0x400 => some (match s.selected q with
    | some k => (s.island k).desc
    | none => 0)
  | 0x401 => some (match s.selected q with
    | some k => s.islStat k
    | none => 0)
  | 0x402 => some ((q.part ++ (0#16 ++ (BitVec.ofNat 5 n ++ BitVec.ofNat 4 (n / 2))) : BitVec 32).setWidth 64)
  | 0x403 => some ((BitVec.ofBool q.super).setWidth 64)
  | 0x404 => some s.cycle
  | 0x405 => some s.mgmt.podTime
  | 0x406 => some (q.tokens.setWidth 64)
  | 0x407 => some ((q.rstTag ++ q.rstPc : BitVec 28).setWidth 64)
  | 0x408 => some q.rstArg
  | 0x409 => some q.rstSp
  | 0x800 => some ((BitVec.ofBool q.r1v ++ BitVec.ofBool q.unack : BitVec 2).setWidth 64)
  | 0x801 => some q.tvec
  | 0x802 => some q.ssp
  | 0x810 => some q.tcause0
  | 0x811 => some q.tpc0
  | 0x812 => some q.tval0
  | 0x813 => some q.tinfo0
  | 0xC10 => some q.tcause1
  | 0xC11 => some q.tpc1
  | 0xC12 => some q.tval1
  | 0xC13 => some q.tinfo1
  | _ => none

/-- R153, R400 Table 4: what a write leaves in TINFO0: of the locator of a class 2 fault only DISP, bits 63 and 62, is read-write. -/
def Seq.tinfoAfter (q : Seq) (v : W64) : W64 :=
  if q.tcause0.extractLsb' 8 8 = 2 then (v &&& 0xC000000000000000) ||| (q.tinfo0 &&& 0x3FFFFFFFFFFFFFFF) else v

/-- R6, R7, R153: writing a CSR of a read-write class; RO and reserved fields keep what they read. -/
def Seq.csrWrite (q : Seq) (num : BitVec 12) (v : W64) : Seq :=
  match num.toNat with
  | 0x000 => { q with islSel := v &&& 0x1F0F }
  | 0x001 => { q with wake := v.setWidth 8 }
  | 0x801 => { q with tvec := v }
  | 0x802 => { q with ssp := v }
  | 0x810 => { q with tcause0 := v &&& 0x800000000000FFFF }
  | 0x811 => { q with tpc0 := v }
  | 0x812 => { q with tval0 := v }
  | 0x813 => { q with tinfo0 := q.tinfoAfter v }
  | _ => q

/-- R152, R425: the class is checked before the number. -/
def State.csrCheck (s : State) (n : Nat) (num : BitVec 12) (writes : Bool) : Option (BitVec 8 × W64) :=
  if num.getLsbD 11 && !(s.seq n).super then some (0x03, 0)
  else if (writes && num.getLsbD 10) || (s.csrRead n num).isNone then some (0x04, num.setWidth 64)
  else none

/-- The CSR forms (R152): `f` makes the new value from the old one and G[a]. -/
def csrForm (i : Instr) (d a : BitVec 4) (num : BitVec 12) (writes : Bool) (f : W64 → W64 → W64) (s : State) :
    Host.Outcome State Fault Refusal :=
  word i always
    (fun n s => match s.csrCheck n num writes with
      | some (kind, v) => s.seqFault n kind (if kind = 0x03 then (wordOf i).setWidth 64 else v)
      | none =>
        let q := s.seq n
        let old := (s.csrRead n num).getD 0
        let q' := if writes then q.csrWrite num (f old (q.get a)) else q
        s.seqNext n (q'.set d old))
    noBody noBody s

/-- CSRR (R152). -/
def execCsrr (d : BitVec 4) (i : BitVec 12) (s : State) : Host.Outcome State Fault Refusal :=
  csrForm (.csrr d i) d 0 i false (fun old _ => old) s

/-- CSRW (R152). -/
def execCsrw (d a : BitVec 4) (i : BitVec 12) (s : State) : Host.Outcome State Fault Refusal :=
  csrForm (.csrw d a i) d a i true (fun _ v => v) s

/-- CSRS (R152). -/
def execCsrs (d a : BitVec 4) (i : BitVec 12) (s : State) : Host.Outcome State Fault Refusal :=
  csrForm (.csrs d a i) d a i true (fun old v => old ||| v) s

/-- CSRC (R152). -/
def execCsrc (d a : BitVec 4) (i : BitVec 12) (s : State) : Host.Outcome State Fault Refusal :=
  csrForm (.csrc d a i) d a i true (fun old v => old &&& ~~~v) s

/-! ### Fences, restart points and traps -/

/-- FENCE (R156): waits until the issuer's earlier accesses have been performed at the scope. An acquire fence waits for them too: every earlier load
and atomic of a sequencer has its reply, and those of a VE are still on its list. -/
def execFence (o : BitVec 2) (sc : BitVec 3) (s : State) : Host.Outcome State Fault Refusal :=
  word (.fence o sc) always
    (fun n s => s.seqRelease n o sc fun s => s.seqNext n (s.seq n))
    (fun c s =>
      let s := if o.getLsbD 1 then s.release (.ve c) sc.toNat else s
      if o.getLsbD 1 && !s.quiet (.ve c) sc.toNat then s.addStall 0
      else if o.getLsbD 0 && (s.ve c).replies.any (fun e => e.wantsX && e.left != 0) then s.addStall 0
      else s)
    noBody s

/-- RSTPT (R157). -/
def execRstpt (a : BitVec 4) (i : BitVec 12) (s : State) : Host.Outcome State Fault Refusal :=
  word (.rstpt a i) always
    (fun n s =>
      let q := s.seq n
      s.seqNext n { q with rstPc := (q.pc + 4).setWidth 16, rstTag := i, rstArg := q.get a, rstSp := q.get 15 })
    noBody noBody s

/-- TRAP (R155): TRET executes it again. -/
def execTrap (a : BitVec 4) (i : BitVec 12) (s : State) : Host.Outcome State Fault Refusal :=
  word (.trap a i) always
    (fun n s =>
      let q := s.seq n
      s.setSeq n (q.trapEntry 0x0002 q.pc (i.setWidth 64) (q.get a)))
    noBody noBody s

/-- SVC (R155). -/
def execSvc (a : BitVec 4) (i : BitVec 12) (s : State) : Host.Outcome State Fault Refusal :=
  word (.svc a i) always
    (fun n s =>
      let q := s.seq n
      s.setSeq n (q.trapEntry 0x0001 (q.pc + 4) (i.setWidth 64) (q.get a)))
    noBody noBody s

/-- R155: a word of legality S that raises a privilege fault at user level. -/
def State.supervised (s : State) (n : Nat) (i : Instr) (body : State → State) : State :=
  if (s.seq n).super then body s else s.seqFault n 0x03 ((wordOf i).setWidth 64)

/-- TACK (R155). -/
def execTack (p : BitVec 3) (s : State) : Host.Outcome State Fault Refusal :=
  word (.tack p) (guarded p)
    (fun n s => s.supervised n (.tack p) fun s => s.seqNext n { s.seq n with unack := false }) noBody noBody s

/-- The stage that a sequencer's control program serves: its task and its number there. -/
def State.stageOf (s : State) (n : Nat) : Option (Nat × Nat) :=
  match (s.seq n).region with
  | some k => (s.region k).owner
  | none => none

/-- R403 Table 5: whether a disposition resumes the island; 0 does so for kind 0x13 only. -/
def resumesFault (disp : BitVec 2) (f : FaultRec) : Bool := disp == 0 && f.cause.setWidth 8 == (0x13 : BitVec 8)

/-- R403 Table 5: the sequencer after TRET: it returns to TPC0, is saved with its gang, or stops until Brass restarts or ends its stage. -/
def Seq.afterDisposition (q : Seq) (disp : BitVec 2) (f : FaultRec) : Seq :=
  if resumesFault disp f then q else { q with run := if disp = 2 then .saved else .stopped }

/-- R403: an island under disposition 2 is held for the pre-emption and no longer by its fault; its freeze begins anew (log 126). -/
def Island.yielded (i : Island) : Island :=
  if i.hold = some .fault then { i with hold := some .preempt, trapped := false, frozen := false, frzLen := 0 } else i

/-- R403: hands the fault of an island to Brass with a disposition: what Brass then does is asked of it here. A gang is pre-empted only as a
whole (R333): the stage of a member asks the gang's own chip for it. -/
def State.dispose (s : State) (k : Nat) (disp : BitVec 2) (f : FaultRec) : State :=
  let i := s.island k
  let i1 := { i with delivered := none }
  let owner := (s.region i.region).owner
  let task := owner.bind fun o => look none s.brass.tasks o.1
  if resumesFault disp f then
    s.setIsland k { i1 with hold := none, trapped := false, frozen := false, frzLen := 0 }
  else
    let s1 := s.setIsland k i1
    match owner, task with
    | some o, some t =>
      let st := t.stages[o.2]?
      let whole : State → State := fun u => match disp.toNat, t.origin with
        | 2, some (chip, gang, _) => u.send chip (.preemptGang gang false)
        | _, _ => u
      let t' : Task := match disp.toNat with
        | 1 => { t with stages := t.stages.modify o.2 fun x => { x with restart := true } }
        | 2 => { t with preempt := true }
        | _ => { t with ending := true, stages := t.stages.modify o.2 fun x => { x with cause := some (f.cause.setWidth 32) } }
      let s2 := if disp = 2 then s1.setIsland k i1.yielded else s1
      if st.isSome then whole { s2 with brass := { s2.brass with tasks := put none s2.brass.tasks o.1 (some t') } } else s1
    | _, _ => s1

/-- TRET (R155, R403). -/
def execTret (p : BitVec 3) (s : State) : Host.Outcome State Fault Refusal :=
  word (.tret p) (guarded p)
    (fun n s => s.supervised n (.tret p) fun s =>
      let q := s.seq n
      let disp := q.tinfo0.extractLsb' 62 2
      let s1 := s.setSeq n q.trapReturn
      match q.record0Isl with
      | some k =>
        let f := ((s.island k).delivered).getD { cause := q.tcause0.setWidth 16, tval := q.tval0, tinfo := q.tinfo0 }
        (s1.setSeq n (q.trapReturn.afterDisposition disp f)).dispose k disp f
      | none => s1)
    noBody noBody s

/-! ### Scan (R158) -/

/-- Bytes 8k to 8k + 7 of a token. -/
def tokenWord (t : Option Token) (k : Nat) : W64 := (t.map fun x => x.data.extractLsb' (64 * k) 64).getD 0

/-- Occupancy, tag and round as scan shows them. -/
def tokenState (t : Option Token) : W64 :=
  match t with
  | some x => (x.rnd ++ (0#4 ++ (x.tag ++ 1#1)) : BitVec 16).setWidth 64
  | none => 0

/-- R27: a row context as scan shows it. -/
def Row.bits (r : Row) : W64 := 0#23 ++ (BitVec.ofBool r.rstpt ++ (r.tags ++ r.word))

def Counter.bits (k : Counter) : W64 := (k.limit ++ k.count : BitVec 32).setWidth 64

/-- R158 Table 5: units 0, 1, 2 and 4 of a VE. -/
def Ve.scan (v : Ve) (m : Mn) (bank : Bool) (unit w : Nat) : W64 :=
  let act := if bank then 1 else 0
  match unit with
  | 0 =>
    if w < 64 then tokenWord (look none v.latches (w / 8)) (w % 8)
    else if w < 72 then match look none v.latches (w - 64) with
      | some t => (t.rnd ++ (0#5 ++ t.tag) : BitVec 16).setWidth 64
      | none => 0x10000
    else 0
  | 1 =>
    if w < 32 then tokenWord (look none v.ports (w / 8)) (w % 8)
    else if w < 36 then tokenState (look none v.ports (w - 32))
    else if w < 52 then tokenWord (some (look ⟨0, 0, 0⟩ v.consts (2 * act + (w - 36) / 8))) ((w - 36) % 8)
    else if w < 60 then tokenWord v.x (w - 52)
    else if w = 60 then tokenState v.x
    else 0
  | 2 =>
    if w < 32 then (look {} v.rows (32 * act + w) : Row).bits
    else if w < 64 then (look {} v.rows (32 * (1 - act) + (w - 32)) : Row).bits
    else 0
  | _ =>
    if w = 0 then v.preds.setWidth 64
    else if w = 1 then (BitVec.ofBool v.stale.isEmpty ++ (v.seen.foldl (fun x e => x ||| e.2) (0 : BitVec 8) ++ v.rnd) : BitVec 17).setWidth 64
    else if 2 ≤ w ∧ w < 6 then (look {} v.ics (w - 2) : Counter).bits
    else if w = 6 then tokenState v.sd ||| ((BitVec.ofBool v.linkValid).setWidth 64 <<< 16)
    else if w = 7 then v.link
    else if w = 8 then (m.rnd ++ m.preds : BitVec 16).setWidth 64
    else if 9 ≤ w ∧ w < 13 then (look {} m.ics (w - 9) : Counter).bits
    else if 16 ≤ w ∧ w < 24 then tokenWord v.sd (w - 16)
    else 0

/-- R158 Table 5: units 3 and 5 to 14 of an MN. -/
def Mn.scan (m : Mn) (bank : Bool) (unit w : Nat) : W64 :=
  let act := if bank then 1 else 0
  if unit = 3 then
    if w < 32 then (look {} m.rows (32 * act + w) : Row).bits
    else if w < 64 then (look {} m.rows (32 * (1 - act) + (w - 32)) : Row).bits
    else 0
  else if unit = 5 then
    let pair (t : Tab Word) (k : Nat) : W64 := look 0 t (2 * k + 1) ++ look 0 t (2 * k)
    if w < 32 then pair m.rowScale w else if w < 64 then pair m.colScale (w - 32) else 0
  else if unit = 6 then
    if w < 64 then ((m.slot (w / 2)).bits.extractLsb' (64 * (w % 2)) 64) else 0
  else if unit < 11 then
    let h := m.handle (BitVec.ofNat 2 (unit - 7))
    if w < 2048 then match h.slot with
      | some x => (m.accRow x (w / 32)).extractLsb' (64 * (w % 32)) 64
      | none => 0
    else if w = 2048 then (BitVec.ofBool h.slot.isSome).setWidth 64 else 0
  else
    let t := m.table (unit - 11)
    if w < 2048 then 0#16 ++ t.entries.extractLsb' (48 * w) 48
    else if w = 2048 then (BitVec.ofBool t.loaded).setWidth 64 else 0

/-- R158: the scan word of a core. -/
def State.scan (s : State) (core unit w : Nat) : W64 :=
  let c := s.core core
  if unit = 15 then match s.islandOf core with
    | some k => if w = 0 then (s.island k).desc else if w = 1 then s.islStat k else 0
    | none => 0
  else if unit = 0 ∨ unit = 1 ∨ unit = 2 ∨ unit = 4 then c.ve.scan c.mn c.bank unit w
  else c.mn.scan c.bank unit w

/-- SCANR (R158). A core index above 95 names no core and reads zero. A hold of DRAIN alone is none of R158's. -/
def execScanr (a d : BitVec 4) (e : BitVec 12) (s : State) : Host.Outcome State Fault Refusal :=
  word (.scanr a d e) always
    (fun n s =>
      let q := s.seq n
      let x := q.get a
      if x.extractLsb' 28 36 != 0 || x.getLsbD 23 then s.seqFault n 0x05 ((wordOf (.scanr a d e)).setWidth 64)
      else
        let idx := (x.extractLsb' 16 7).toNat
        let core := 96 * (x.extractLsb' 24 4).toNat + idx
        let w := (x.setWidth 12 : BitVec 12).toNat + e.toNat
        let mine := s.coreOwner core == q.part
        if 96 ≤ idx ∨ !mine then s.seqNext n (q.set d 0)
        else match s.islandOf core with
          | some k => if (s.island k).hold.isSome ∧ (s.island k).hold ≠ some .drain then s.seqNext n (q.set d (s.scan core (x.extractLsb' 12 4).toNat w))
            else s.seqFault n 0x11 x
          | none => s.seqFault n 0x11 x)
    noBody noBody s

end Sys2Proof.Machine
end

