-- ==== Sys2Proof/Machine/Fabric.lean ====
section
/-! DEFINITION. Events of the fabric: tokens, replies, conversions and drains that arrive, and islands that trap, swap, stop or drain
(R31 to R45, R53, R179, R214, R224, R289, R293, R295, R401, R410, R418). An event that is not due has no effect (log 1). -/

namespace Sys2Proof.Machine

/-- Holds an island by a fault that waits there (R401); an island holds at most one fault. -/
def State.raise (s : State) (k : Nat) (f : FaultRec) : State :=
  let i := s.island k
  if i.fault.isSome ∨ i.delivered.isSome then s
  else s.setIsland k { i with hold := some (i.hold.getD .fault), fault := some (f, s.now) }

/-- Whether a core's island runs or is frozen, but is not held. -/
def State.live (s : State) (c : Nat) : Option Nat :=
  match s.islandOf c with
  | some k => if (s.island k).hold.isNone then some k else none
  | none => none

/-- TOKEN_ARRIVAL (R31, R485): the first token of the cycle for an input port, or with direction 4 for the activation port, enters it;
at an occupied port it is an overrun of the producing row. -/
def execTokenArrival (core dir : Nat) (s : State) : Host.Outcome State Fault Refusal :=
  .next <| match s.scratch.sends.find? (fun x => x.core == core && x.port == dir) with
  | none => s
  | some x =>
    let s1 := { s with scratch := { s.scratch with sends := s.scratch.sends.erase x } }
    let full := if dir = 4 then (s.mn core).act.isSome else (look none (s.ve core).ports dir).isSome
    if full then { s1 with scratch := { s1.scratch with faults := s1.scratch.faults ++ [x.origin] } }
    else if dir = 4 then s1.setMn core { s1.mn core with act := some x.tok }
    else s1.setVe core { s1.ve core with ports := put none (s1.ve core).ports dir (some x.tok) }

/-- R467, R470, R476: what the consumer edge does with a token of a gang channel: it enters the FIFO, or it is discarded. -/
def GangChannel.receive (g : GangChannel) (t : Token) : GangChannel × Bool :=
  let skipped : Option GangChannel := match g.skipTo with
    | some (r, n) =>
      if roundLe t.rnd r then some g
      else if !isMarker t && t.rnd == r + 1 && decide (0 < n) then some { g with skipTo := some (r, n - 1) }
      else none
    | none => none
  match skipped with
  | some g' => (g', false)
  | none =>
    if isMarker t && markerKind t == 1 then ({ g with rcv := t.rnd, nrcv := 0 }, true)
    else if !isMarker t && t.rnd == g.rcv + 1 then ({ g with nrcv := g.nrcv + 1 }, true)
    else (g, true)

/-- FIFO_TOKEN_ARRIVAL (R40): the oldest token on the way to a retiming FIFO enters it, while it has room. -/
def execFifoTokenArrival (core dir : Nat) (s : State) : Host.Outcome State Fault Refusal :=
  let k := 4 * core + dir
  .next <| match look [] s.transit k with
  | [] => s
  | t :: rest =>
    if 32 ≤ (s.fifo k).length then s
    else
      let s1 := { s with transit := put [] s.transit k rest }
      match s1.chan k with
      | some g =>
        let (g', enters) := g.receive t
        let s2 := s1.setChan k g'
        if enters then s2.setFifo k (s2.fifo k ++ [t]) else s2
      | none => s1.setFifo k (s1.fifo k ++ [t])

/-- R400, R244: the record of a VE memory fault: row and iteration of the issuing firing, and the elements performed before it. -/
def State.memoryFault (s : State) (c k : Nat) (e : Entry) (kind : BitVec 8) (val : W64) : FaultRec :=
  { cause := 2#8 ++ kind, tval := val, tinfo := s.locator k 3 0 e.tok.rnd e.iter false e.row c, mask := e.mask }

/-- R400: the record of a drain token that meets another token in X. -/
def State.drainFault (s : State) (c k row : Nat) (iter : BitVec 16) : FaultRec :=
  { cause := 0x0214, tval := schedVal 4, tinfo := s.locator k 3 0 (s.mn c).rnd iter true row c }

/-- R214: a token reaches X in the cycle in which a drain token was delivered there: it stays in X, the drain token goes back to its stage,
and the island raises the fault. With no such delivery there is no effect: the token waits (R224). -/
def State.drainMeets (s : State) (c k : Nat) (v : Ve) : State :=
  match s.scratch.drained.find? (·.1 == c), (s.ve c).x with
  | some (_, row, iter), some t =>
    let m := s.mn c
    let s1 := (s.setVe c v).setMn c { m with drain := some (t, row, iter), drainIn := m.drain }
    { s1 with scratch := { s1.scratch with drained := s1.scratch.drained.filter (·.1 != c) } }.raise k (s.drainFault c k row iter)
  | _, _ => s

/-- R224: the head of a reply queue once its access has been answered: a completion entry frees, a reply enters an empty X, a fault is
raised. -/
def State.serveReply (s : State) (c k : Nat) : State :=
  let v := s.ve c
  match v.replies with
  | [] => s
  | e :: rest =>
    if e.left != 0 then s
    else match e.fault with
    | some (kind, val) => (s.setVe c { v with replies := rest }).raise k (s.memoryFault c k e kind val)
    | none =>
      if !e.wantsX then s.setVe c { v with replies := rest }
      else
        let preds := match e.pred with
          | some (p, ok) => predSet v.preds p ok
          | none => v.preds
        let v1 := { v with replies := rest, x := some e.tok, preds := preds }
        if v.x.isSome then s.drainMeets c k v1 else s.setVe c v1

/-- REPLY_ARRIVAL (R224, R228). -/
def execReplyArrival (core : Nat) (s : State) : Host.Outcome State Fault Refusal :=
  .next <| match s.live core with
  | some k => s.serveReply core k
  | none => s

/-- CONVERSION_RETURN (R53, R54): the token that the conversion element has served next returns to the row that steered it. -/
def execConversionReturn (core sel : Nat) (s : State) : Host.Outcome State Fault Refusal :=
  .next <| match s.live core with
  | none => s
  | some k =>
    let i := s.island k
    match i.conv with
    | (c, n, t) :: rest =>
      if c ≠ core ∨ n ≠ sel then s
      else
        let s1 := s.setIsland k { i with conv := rest }
        if n = 17 then s1.setMn c { s1.mn c with actSteering := false, actBack := some t }
        else
          let v := s1.ve c
          s1.setVe c { v with steering := v.steering.erase n, returned := put none v.returned n (some t) }
    | [] => s

/-- CNV_RETURN (R179): the oldest result sent to target cnv enters an empty X. -/
def execCnvReturn (core : Nat) (s : State) : Host.Outcome State Fault Refusal :=
  .next <| match s.live core with
  | none => s
  | some k =>
    let v := s.ve core
    match v.cnv with
    | t :: rest =>
      let v1 := { v with x := some t, cnv := rest }
      if v.x.isSome then s.drainMeets core k v1 else s.setVe core v1
    | [] => s

/-- R214: the drain token enters X; if X is taken, the island raises a schedule fault that names the ADRN row, and both keep their
tokens. -/
def State.deliverDrain (s : State) (core k : Nat) : State :=
  let m := s.mn core
  match m.drain with
  | none => s
  | some (t, row, iter) =>
    if (s.ve core).x.isSome then s.raise k (s.drainFault core k row iter)
    else (s.setMn core { m with drain := none }).setVe core { s.ve core with x := some t }

/-- DRAIN_DELIVERY (R214). -/
def execDrainDelivery (core : Nat) (s : State) : Host.Outcome State Fault Refusal :=
  .next <| match s.live core with
  | none => s
  | some k => s.deliverDrain core k

/-- R41, R399: the record of a timing trap. -/
def State.timingRecord (s : State) (k : Nat) (a : Actor) : FaultRec :=
  let i := s.island k
  let (mn, c, rnd) : Bool × Nat × BitVec 8 := match a with
    | .mn c => (true, c, (s.mn c).rnd)
    | .ve c => (false, c, (s.ve c).rnd)
    | .seq _ => (false, k, (s.ve k).rnd)
  { cause := 0x0213, tval := i.frzLen.setWidth 64, tinfo := s.locator k 1 i.src rnd i.iter mn i.cnt c }

/-- The timing trap of an island, at the unit whose stall is recorded. -/
def State.takeTimingTrap (s : State) (k : Nat) (a : Actor) : State :=
  let s1 := s.raise k (s.timingRecord k a)
  s1.setIsland k { s1.island k with trapped := true, frozen := true }

/-- TIMING_TRAP (R41): an island whose freeze reached its budget in the cycle just past, with a stall source still present, traps. -/
def execTimingTrap (isl : Nat) (s : State) : Host.Outcome State Fault Refusal :=
  .next <| match s.scratch.spent.find? (·.1 == isl) with
  | some (_, a) => s.takeTimingTrap isl a
  | none => s

/-- RQSC_STOP (R295, R410): an island whose stopping cycle has come is held; the next row does not fire. Brass's own stop (R331, R333) is
told from that of an RQSC in progress, so that a restore releases what Brass stopped and nothing else. -/
def execRqscStop (isl : Nat) (s : State) : Host.Outcome State Fault Refusal :=
  let i := s.island isl
  let own := match (s.region i.region).stop with
    | some a => a.isls.contains isl
    | none => false
  .next <| match i.stopAt with
  | some c =>
    if c ≤ s.now then s.setIsland isl { i with stopAt := none, hold := some (i.hold.getD (if own then .rqsc else .preempt)) } else s
  | none => s

/-- The route field of a row's word, for the forms that have one (R118, R121). -/
def routeField (w : Word) : BitVec 4 :=
  let op := (w.extractLsb' 24 8).toNat
  if (0x20 ≤ op ∧ op ≤ 0x24) ∨ (0x27 ≤ op ∧ op ≤ 0x39) ∨ op = 0x47 ∨ op = 0x49 ∨ op = 0x4B ∨ op = 0x4D ∨ (0x50 ≤ op ∧ op ≤ 0x5F) ∨
     (0x63 ≤ op ∧ op ≤ 0x6B) ∨ op = 0x80 ∨ op = 0x81 ∨ (0x85 ≤ op ∧ op ≤ 0x87) ∨ op = 0xAD
  then w.extractLsb' 8 4 else 0

/-- Whether a row of a core's active bank routes a token in a direction. -/
def State.routesTo (s : State) (c dir : Nat) : Bool :=
  match s.islandOf c with
  | some k => (List.range (descII (s.island k).desc)).any fun n =>
      (routeDirs (routeField (look {} (s.ve c).rows (32 * (if (s.core c).bank then 1 else 0) + n) : Row).word)).contains dir
  | none => false

/-- R289: whether a drain marker is due from the FIFO at an input port: its channel is one that a row of the neighbour routes into, or a
read binding has used its stream port since the last bank swap. -/
def State.feeds (s : State) (c dir : Nat) : Bool :=
  (s.port (vectorPort c dir)).used ||
  match neighbour c dir with
  | some n => (match s.route n (opposite dir) with
    | .channel _ _ => s.routesTo n (opposite dir)
    | _ => false)
  | none => match edgePort c dir with
    | some p => (s.port p).used
    | none => false

/-- Whether any access of a VE is still on its way, or waits at a home (R289, R293, R408). -/
def State.outstanding (s : State) (c : Nat) : Bool := !s.quiet (.ve c) 5

/-- R289: whether an island is drained. -/
def State.drained (s : State) (k : Nat) : Bool :=
  let i := s.island k
  (islandCores k i).all fun c =>
    let v := s.ve c
    let m := s.mn c
    v.ports.isEmpty && v.x.isNone && v.sd.isNone && v.cnv.isEmpty && v.steering.isEmpty && v.replies.isEmpty &&
    m.act.isNone && !m.actSteering && m.actBack.isNone && m.drain.isNone && m.drainIn.isNone && !s.outstanding c &&
    (List.range 4).all fun d => i.drainSeen.contains (4 * c + d) || (!s.feeds c d && (s.fifo (4 * c + d)).isEmpty)

/-- R151, R260: frees a token of a sequencer; a token named in SQ_WAKE sets the event flag. -/
def State.freeToken (s : State) (n : Nat) (t : BitVec 3) : State :=
  let q := s.seq n
  let bit : BitVec 8 := 1#8 <<< t.toNat
  s.setSeq n { q with tokens := q.tokens &&& ~~~bit, event := q.event || (q.tokens &&& q.wake &&& bit) != 0 }

/-- R289, R295: frees the token of work on islands once every one of them is held. -/
def State.settleAsk (s : State) (region : Nat) : State :=
  let r := s.region region
  let held (a : Ask) : Bool := a.isls.all fun k => (s.island k).hold.isSome
  let done (x : Option Ask) : Option Ask := x.bind fun a => if held a then none else some a
  let s1 := (r.stop.toList ++ r.drain.toList).foldl (fun s a => if held a then s.freeToken a.seq a.tok else s) s
  s1.setRegion region { s1.region region with stop := done r.stop, drain := done r.drain }

/-- DRAIN_HOLD (R289): a drained island is held at its iteration boundary. -/
def execDrainHold (isl : Nat) (s : State) : Host.Outcome State Fault Refusal :=
  let i := s.island isl
  .next (if i.armed ∧ i.hold.isNone ∧ i.cnt = 0 ∧ !i.frozen ∧ s.drained isl then
      (s.setIsland isl { i with armed := false, hold := some .drain }).settleAsk i.region
    else s)

/-- R223, R293: what a bank swap makes of a VE: run state cleared, the other bank active. -/
def Ve.swapped (v : Ve) : Ve :=
  { rows := v.rows, consts := v.consts, replay := v.replay }

/-- R293: what a bank swap makes of an MN: predicates, counters, activation port, drain stage, occupancy and round cleared. -/
def Mn.swapped (m : Mn) : Mn :=
  { m with preds := 0x80, ics := [], rnd := 0, act := none, actSteering := false, actBack := none, drain := none, drainIn := none,
           occupied := false, ptld := .none, free := m.free ++ m.returning, returning := [] }

/-- R289, R293: a FIFO whose key is listed has delivered its drain marker at a drained island, and keeps what reached it after that; any
other FIFO of the core is emptied. -/
def State.clearFifos (s : State) (c : Nat) (drained : List Nat) : State :=
  (List.range 4).foldl (fun (s : State) d =>
    if drained.contains (4 * c + d) then s
    else { (s.setFifo (4 * c + d) []) with transit := put [] s.transit (4 * c + d) [] }) s

/-- R289: whether a read binding is queued or runs at a port. -/
def State.readsAt (s : State) (k : Nat) : Bool :=
  (s.port k).queue.any fun b => ((s.binding b).map fun x => !x.write).getD false

/-- R264, R266, R289: the ports that serve a core: round counters and write FIFOs cleared. A port at which a read binding still stands
counts as used after the swap. -/
def State.resetPorts (s : State) (c : Nat) : State :=
  let one (s : State) (k : Nat) : State :=
    s.setPort k { s.port k with rnd := 0, newest := none, older := none, toks := [], used := s.readsAt k }
  (List.range 4).foldl (fun (s : State) d =>
    let s1 := one s (vectorPort c d)
    match edgePort c d with
    | some p => one s1 p
    | none => s1) s

/-- R293: swaps the banks of one core. -/
def State.swapCore (s : State) (c : Nat) (drained : List Nat) : State :=
  let k := s.core c
  ((s.setCore c { k with ve := k.ve.swapped, mn := k.mn.swapped, bank := !k.bank }).clearFifos c drained).resetPorts c

/-- R56, R293: an island as a swap leaves it, enabled; R294: held, where a fold still waits for its CFGLD. -/
def freshIsland (desc : BitVec 64) (region : Nat) (held : Bool) : Island :=
  { desc := desc, region := region, enabled := true, hold := if held then some .rqsc else none }

/-- R293: the FIFOs that keep tokens at a swap: those of drained islands that have delivered a drain marker since the arming. -/
def State.keptFifos (s : State) (c : Nat) : List Nat :=
  match s.islandOf c with
  | some k => if (s.island k).hold = some .drain then (s.island k).drainSeen else []
  | none => []

/-- R291: the sequencer that a swapped configuration names serves the region. -/
def State.serveRegion (s : State) (region : Nat) (seq : Option Nat) : State :=
  let s1 := s.setRegion region { s.region region with seq := seq }
  match seq with
  | some n => s1.setSeq n { s1.seq n with region := some region }
  | none => s1

/-- R293: swaps the selected islands of a region. When every island is selected the shadow descriptors become the configuration; where
no load has brought any, the active ones stay. The descriptors exchange places as the banks do; the measurement of the last load is copied
(R347). -/
def State.swapRegion (s : State) (region : Nat) (isls : List Nat) : State :=
  let r := s.region region
  let whole := r.islands.all isls.contains
  let waits := r.folded == some false
  if whole then
    let active := rectCores (clusterOf region) (rowOf region) (colOf region) r.rows r.cols
    let cores := active ++ (rectCores (clusterOf region) (rowOf region) (colOf region) r.shadowRows r.shadowCols).filter fun c => !active.contains c
    let descs := if r.shadow.isEmpty then r.islands.map fun k => (s.island k).desc else r.shadow
    let s1 := cores.foldl (fun (t : State) c => t.swapCore c (s.keptFifos c)) s
    let s2 := r.islands.foldl (fun (t : State) k => t.setIsland k {}) s1
    let keys := descs.map fun d => coreAt (clusterOf region) (descRow d) (descCol d)
    let s3 := (keys.zip descs).foldl (fun (t : State) e => t.setIsland e.1 (freshIsland e.2 region waits)) s2
    let r1 : Region := { s3.region region with islands := keys, swap := none, swapped := [], meas := r.shadowMeas,
                                                   folded := if waits then r.folded else none }
    if r.shadow.isEmpty then s3.setRegion region r1
    else
      let old := r.islands.map fun k => (s.island k).desc
      (s3.setRegion region { r1 with alt := r.shadowAlt, rows := r.shadowRows, cols := r.shadowCols,
                                     shadow := old, shadowAlt := r.alt, shadowRows := r.rows, shadowCols := r.cols }).serveRegion
        region r.shadowSeq
  else
    let s1 := isls.foldl (fun (t : State) k =>
      let d := (r.shadow[(r.islands.findIdx? (· == k)).getD 0]?).getD (t.island k).desc
      let t1 := (islandCores k (t.island k)).foldl (fun (u : State) c => u.swapCore c (s.keptFifos c)) t
      t1.setIsland k (freshIsland d region waits)) s
    let done := (r.swapped ++ isls).eraseDups
    let all := r.islands.all done.contains
    let old := r.shadow.zipIdx.map fun e => match r.islands[e.2]? with
      | some k => if isls.contains k then (s.island k).desc else e.1
      | none => e.1
    s1.setRegion region { s1.region region with shadow := old, swap := none, swapped := if all then [] else done,
                                                folded := if waits ∨ !all then r.folded else none,
                                                meas := if all then r.shadowMeas else 0 }

/-- R293: whether every request of an island has completed at its home and every replay queue of it is empty. -/
def State.settled (s : State) (k : Nat) : Bool := (islandCores k (s.island k)).all fun c => s.quiet (.ve c) 5

/-- BANK_SWAP_EFFECT (R45, R293): a BSWAP that waits for the requests of held islands swaps them all and frees its token. -/
def execBankSwapEffect (reg : Nat) (s : State) : Host.Outcome State Fault Refusal :=
  .next <| match (s.region reg).swap with
  | none => s
  | some a =>
    if a.isls.all s.settled then
      (s.swapRegion reg a.isls).freeToken a.seq a.tok
    else s

/-- ILLEGAL_WORD_DECODE (R418 to R422): kind 0x02 at the executor, whatever the word's guard. -/
def execIllegalWordDecode (w : BitVec 32) (s : State) : Host.Outcome State Fault Refusal :=
  .next <| match s.actor with
  | .seq n => s.seqFault n 0x02 (w.setWidth 64)
  | .ve c => s.addFault c false 0x02 (w.setWidth 64)
  | .mn c => s.addFault c true 0x02 (w.setWidth 64)

end Sys2Proof.Machine
end

