-- ==== Sys2Proof/Machine/Penax.lean ====
section
/-! DEFINITION. Penax decoding and table loads (R180 to R190, R201, R203 to R205). -/

namespace Sys2Proof.Machine

/-- Byte `b` of an operand slot. -/
def Slot.byte (x : Slot) (b : Nat) : Byte := x.data.extractLsb' (8 * b) 8

/-- `n` bytes of an operand slot, the lowest address least significant. -/
def Slot.bytes (x : Slot) (b n : Nat) : Nat := (x.data.extractLsb' (8 * b) (8 * n)).toNat

/-! ### The header (R182, R184, R188) -/

/-- R182 Table 2: fields of a tile header, given as its 256 bits. -/
structure Header where
  fmt : BitVec 3
  tbl : BitVec 2
  raw : Bool
  clen : Nat
  seg0 : Nat
  seg1 : Nat
  seg2 : Nat
  seg3 : Nat
  lstate : BitVec 192
  reserved : Bool
  deriving DecidableEq, Repr

def headerOf (h : BitVec 256) : Header :=
  { fmt := h.extractLsb' 192 3, tbl := h.extractLsb' 195 2, raw := h.getLsbD 197, clen := (h.extractLsb' 200 9).toNat,
    seg0 := (h.extractLsb' 209 6).toNat, seg1 := (h.extractLsb' 215 6).toNat, seg2 := (h.extractLsb' 221 6).toNat,
    seg3 := (h.extractLsb' 227 6).toNat, lstate := h.setWidth 192,
    reserved := h.extractLsb' 198 2 != 0 || h.extractLsb' 233 23 != 0 }

def Header.seg (h : Header) (k : Nat) : Nat := match k with
  | 0 => h.seg0
  | 1 => h.seg1
  | 2 => h.seg2
  | _ => h.seg3

def Header.sum (h : Header) : Nat := h.seg0 + h.seg1 + h.seg2 + h.seg3

/-- R188 cause 1: whether a header is well formed for a tile at `off` of a slot of length `len`. -/
def Header.ok (h : Header) (off len : Nat) : Bool :=
  !h.reserved && decide (2 ≤ h.fmt.toNat) && decide (h.fmt.toNat ≤ 6) &&
  (if h.raw then decide (h.clen = 129) && h.lstate == 0 && h.tbl == 0 && decide (h.sum = 0)
   else decide (h.seg0 ≠ 0) && decide (h.seg1 ≠ 0) && decide (h.seg2 ≠ 0) && decide (h.seg3 ≠ 0) && decide (h.clen = 4 + h.sum)) &&
  decide (off + h.clen ≤ len)

/-! ### Segments (R187) -/

/-- A lane: its state, its bit buffer and the bits in it. -/
structure Lane where
  st : Nat
  buf : Nat := 0
  cnt : Nat := 0
  deriving DecidableEq, Repr

/-- A segment in progress: the lanes, the words read, the symbols delivered and the fault that ended it (cause, symbol). -/
structure SegRun where
  lanes : List Lane
  words : Nat := 0
  out : BitVec 32768
  bad : Option (Nat × Nat) := none
  deriving DecidableEq, Repr

/-- R185 Table 4: entry of a decode table: symbol, bits, base. -/
def DecTable.entry (t : DecTable) (i : Nat) : Nat × Nat × Nat :=
  let e := t.entries.extractLsb' (24 * i) 24
  ((e.extractLsb' 16 8).toNat, (e.extractLsb' 12 4).toNat, (e.extractLsb' 0 12).toNat)

/-- Puts symbol `i` into an image. -/
def setSymbol (img : BitVec 32768) (i s : Nat) : BitVec 32768 :=
  (img &&& ~~~((0xFF : BitVec 32768) <<< (8 * i))) ||| ((BitVec.ofNat 32768 s) <<< (8 * i))

/-- R187: one symbol: the lane refills when it holds fewer than 12 bits, then decodes. -/
def SegRun.step (r : SegRun) (t : DecTable) (x : Slot) (pos seg base n : Nat) : SegRun :=
  match r.bad with
  | some _ => r
  | none =>
    let j := n % 16
    let i := base + n
    let l := (r.lanes[j]?).getD { st := 0 }
    let refill := decide (l.cnt < 12)
    if refill ∧ r.words = 16 * seg then { r with bad := some (4, i) }
    else
      let l1 : Lane := if refill then
          { l with buf := l.buf + x.bytes (pos + 2 * r.words) 2 * 2 ^ l.cnt, cnt := l.cnt + 16 } else l
      let (sym, nb, b) := t.entry l1.st
      let l2 : Lane := { st := (b + l1.buf % 2 ^ nb) % 4096, buf := l1.buf / 2 ^ nb, cnt := l1.cnt - nb }
      { r with lanes := r.lanes.set j l2, words := if refill then r.words + 1 else r.words, out := setSymbol r.out i sym }

/-- The lanes at the start of a segment. -/
def lanesOf (s : BitVec 192) : List Lane := (List.range 16).map fun j => { st := (s.extractLsb' (12 * j) 12).toNat }

/-- What a whole decode gives: the image, the symbols delivered, and the fault that ends it (cause, symbol). -/
structure TileRun where
  image : BitVec 32768
  upTo : Nat
  bad : Option (Nat × Nat) := none
  deriving DecidableEq, Repr

/-- R187: segment `k`, whose marker or header gives its lane states. -/
def runSegment (h : Header) (t : DecTable) (x : Slot) (start k : Nat) (r : TileRun) : TileRun :=
  match r.bad with
  | some _ => r
  | none =>
    let mo := start + 32 * (k + ((List.range k).map h.seg).sum)
    let m : BitVec 256 := BitVec.ofNat 256 (x.bytes mo 32)
    let markerOk := m.extractLsb' 192 16 == 0xA5C3 && (m.extractLsb' 208 2).toNat == k && m.extractLsb' 210 46 == 0
    if k ≠ 0 ∧ !markerOk then { r with bad := some (3, 1024 * k) }
    else
      let st := if k = 0 then h.lstate else m.setWidth 192
      let pos := if k = 0 then start + 32 else mo + 32
      let g : SegRun :=
        (List.range 1024).foldl (fun (g : SegRun) n => g.step t x pos (h.seg k) (1024 * k) n) { lanes := lanesOf st, out := r.image }
      match g.bad with
      | some (c, i) => { image := g.out, upTo := i, bad := some (c, i) }
      | none =>
        if g.words ≤ 16 * (h.seg k - 1) then { image := g.out, upTo := 1024 * k + 1024, bad := some (5, 1024 * k + 1023) }
        else if g.lanes.any (·.st != 0) then { image := g.out, upTo := 1024 * k + 1024, bad := some (6, 1024 * k + 1023) }
        else { image := g.out, upTo := 1024 * k + 1024 }

/-- R187 `penax_decode` of a tile with a good header, from segment `f`, onto what was delivered before. -/
def runTile (m : Mn) (h : Header) (x : Slot) (start f : Nat) (before : BitVec 32768) : TileRun :=
  if h.raw then { image := x.data.extractLsb' (8 * (start + 32)) 32768, upTo := 4096 }
  else
    let t := look {} m.tables h.tbl.toNat
    if !t.loaded then { image := before, upTo := 1024 * f, bad := some (2, 1024 * f) }
    else (List.range (4 - f)).foldl (fun r n => runSegment h t x start (f + n) r) { image := before, upTo := 1024 * f }

/-- R203 begin_decode: the first queued decode starts once its slot is ready; the header moves the cursor. -/
def Mn.beginDecode (m : Mn) : Mn :=
  match m.queue with
  | [] => m
  | e :: rest =>
    let n := e.slot.toNat
    let x := m.slot n
    if e.running || x.state != 2 then m
    else
      let x := if e.rst then { x with off := 0, tnum := 0 } else x
      let start := 32 * x.off.toNat
      let h := headerOf (BitVec.ofNat 256 (x.bytes start 32))
      let fault (c i : Nat) : DecodeFault := { cause := c, sym := i, slot := e.slot, off := x.off, tnum := x.tnum }
      if x.len.toNat ≤ x.off.toNat || !h.ok x.off.toNat x.len.toNat then
        let m1 := { m.setSlot n x with queue := { e with running := true, upTo := 0, bad := some (fault 1 0) } :: rest }
        m1.setBuffer e.buf { m1.buffer e.buf with kh := x.kh }
      else
        let r : TileRun := runTile m h x start 0 0
        let x' := { x with off := x.off + BitVec.ofNat 9 h.clen, tnum := x.tnum + 1 }
        let m1 := { m.setSlot n x' with
          queue := { e with running := true, image := r.image, upTo := r.upTo, bad := r.bad.map fun (p : Nat × Nat) => fault p.1 p.2 } :: rest }
        m1.setBuffer e.buf { m1.buffer e.buf with fmt := some h.fmt, off := x.off, kh := x.kh }

/-- Symbols `lo` to `hi - 1` of an image over what a buffer holds. -/
def copySymbols (old img : BitVec 32768) (lo hi : Nat) : BitVec 32768 :=
  let mask := (BitVec.allOnes 32768 >>> (8 * (4096 - Nat.min hi 4096))) &&& (BitVec.allOnes 32768 <<< (8 * lo))
  (old &&& ~~~mask) ||| (img &&& mask)

/-- A buffer with the symbols of a decode up to `hi`; those it had stay (R190). -/
def Buffer.fillTo (b : Buffer) (img : BitVec 32768) (hi : Nat) : Buffer :=
  { b with data := copySymbols b.data img b.nsym hi, nsym := Nat.max b.nsym hi }

/-- R201, R203: the running decode ends: its last symbol or its fault is delivered, and its hold on the slot ends. -/
def Mn.endDecode (m : Mn) : Mn :=
  match m.queue with
  | e :: rest =>
    if e.running then
      let m1 := m.setBuffer e.buf { (m.buffer e.buf).fillTo e.image e.upTo with flt := e.bad }
      { m1.release e.slot with queue := rest }
    else m
  | [] => m

/-- Delivers up to `n` further symbols of the running decode. Symbol 4095 ends it (R201); the symbol at which a segment fails comes with its
fault, in DECODE_END, so that no firing takes it for a good one (R189, R204). -/
def Mn.deliver (m : Mn) (n : Nat) : Mn :=
  match m.queue with
  | e :: _ =>
    if e.running then
      let b := m.buffer e.buf
      match e.bad with
      | none => if 4096 ≤ b.nsym + n ∧ 4096 ≤ e.upTo then m.endDecode else m.setBuffer e.buf (b.fillTo e.image (Nat.min (b.nsym + n) e.upTo))
      | some f => m.setBuffer e.buf (b.fillTo e.image (Nat.min (b.nsym + n) (Nat.min e.upTo f.sym)))
    else m
  | [] => m

/-- The MN of a core whose island does not hold it (R410). -/
def State.onMn (s : State) (core : Nat) (f : Mn → Mn) : State :=
  match s.islandOf core with
  | some k => if (s.island k).hold.isSome then s else s.setMn core (f (s.mn core))
  | none => s

/-- BEGIN_DECODE (R203). -/
def execBeginDecode (core : Nat) (s : State) : Host.Outcome State Fault Refusal := .next (s.onMn core Mn.beginDecode)

/-- DECODE_SPAN_DELIVERED (R196, R204): the decoder delivers `n` more symbols, up to the symbol at which its tile ends or faults. -/
def execDecodeSpanDelivered (core n : Nat) (s : State) : Host.Outcome State Fault Refusal := .next (s.onMn core (·.deliver n))

/-- DECODE_END (R203). -/
def execDecodeEnd (core : Nat) (s : State) : Host.Outcome State Fault Refusal := .next (s.onMn core Mn.endDecode)

/-- R185: whether every entry of a table is within its limits. -/
def DecTable.sound (t : DecTable) : Bool :=
  (List.range 4096).all fun i =>
    let e := t.entry i
    decide (e.2.1 ≤ 12) && decide (e.2.2 + 2 ^ e.2.1 ≤ 4096)

/-- R205: loads half `h` of table `t` from slot `n`. -/
def Mn.loadTable (m : Mn) (n : BitVec 5) (t : BitVec 2) (h : Bool) : Mn :=
  let x := m.slot n.toNat
  if x.len.toNat < 192 then { m with ptld := .failed }
  else
    let old := look {} m.tables t.toNat
    let half : BitVec 49152 := x.data.setWidth 49152
    let entries : BitVec 98304 :=
      if h then half ++ (old.entries.setWidth 49152 : BitVec 49152)
      else (old.entries.extractLsb' 49152 49152) ++ half
    let t1 : DecTable := { entries := entries, loaded := false, kh := x.kh }
    let good := !h || t1.sound
    let t2 := { t1 with loaded := h && good }
    { m with tables := put {} m.tables t.toNat t2, ptld := if good then .done else .failed }

/-- PTLD_COMPLETE (R205, R216): the PTLD that waits ends once every earlier decode has finished and its slot is ready, at the end of a frozen
cycle; one that R352 refuses loads nothing. -/
def execPtldComplete (core : Nat) (s : State) : Host.Outcome State Fault Refusal :=
  .next <| s.onMn core fun m =>
    match decode true (s.mnRow core).word with
    | .ok i => match i with
      | .ptld n t h cp =>
        let x := m.slot n.toNat
        if i.wf .mn && predGet m.preds cp && m.ptld == .waiting && x.claims != 0 && m.queue.isEmpty && x.state == 2 &&
            !s.kernelBars core x.kh then
          m.loadTable n t h
        else m
      | _ => m
    | .bad _ => m

end Sys2Proof.Machine
end

