-- ==== Sys2Proof/Machine/MemoryEvents.lean ====
section
/-! DEFINITION. Events of the memory system: requests that reach their homes, chains and waits, translation walks, parked stores and
errors (R83, R84, R97, R230 to R233, R258, R434 to R445). -/

namespace Sys2Proof.Machine

/-! ### The task of an issuer -/

/-- The region of an issuer: that of a VE's core, or that whose control program a sequencer runs. -/
def State.regionOfActor (s : State) (a : Actor) : Option Nat :=
  match a with
  | .seq n => (s.seq n).region
  | .ve c => s.regionOf c
  | .mn c => s.regionOf c

/-- Changes the task and stage that hold a region. -/
def State.onStage (s : State) (region : Option Nat) (f : Task → Nat → Task) : State :=
  match region.bind fun k => (s.region k).owner with
  | some (t, n) =>
    (match look none s.brass.tasks t with
    | some x => { s with brass := { s.brass with tasks := put none s.brass.tasks t (some (f x n)) } }
    | none => s)
  | none => s

/-- R406: marks the task of a region to be ended, with the cause of the stage in question. -/
def State.endFor (s : State) (region : Option Nat) (cause : BitVec 32) : State :=
  s.onStage region fun t n =>
    { t with ending := true, stages := t.stages.modify n fun x => { x with cause := some (x.cause.getD cause) } }

/-- Marks a saved task to be ended, with the cause of the stage whose region its saved context names. -/
def State.endSaved (s : State) (task : Nat) (own : Nat → Region → Bool) (cause : BitVec 32) : State :=
  match look none s.brass.tasks task with
  | some x =>
    let r := (x.saved.getD {}).regions.find? fun e => own e.1 e.2
    let n := ((r.bind (·.2.owner)).map (·.2)).getD 0
    let y : Task := { x with ending := true, stages := x.stages.modify n fun st => { st with cause := some (st.cause.getD cause) } }
    { s with brass := { s.brass with tasks := put none s.brass.tasks task (some y) } }
  | none => s

/-- R434, R436: a store that its issuer has left behind is dropped: the issuer's other parked stores are discarded and its task ends. -/
def State.dropStore (s : State) (iss : Issuer) (kind : BitVec 8) : State :=
  let cls : BitVec 8 := match iss.who with
    | .seq _ => 1
    | _ => 2
  let s1 := (s.setReplay iss.who []).updateRpq iss.part
  let cause : BitVec 32 := (cls ++ kind).setWidth 32
  match iss.who with
  | .seq n =>
    if 2000 ≤ n then s1.endSaved (n / 2000 - 1) (fun _ r => r.seq == some (n % 2000)) cause else s1.endFor (s.regionOfActor iss.who) cause
  | .ve c =>
    if 2000 ≤ c then s1.endSaved (c / 2000 - 1) (fun k r => regionHas k r (c % 2000)) cause else s1.endFor (s.regionOfActor iss.who) cause
  | .mn _ => s1.endFor (s.regionOfActor iss.who) cause

/-! ### Requests at their homes (R230 to R233) -/

/-- Replaces the list of requests in flight. -/
def State.setFlight (s : State) (l : List Req) : State := s.setMem { s.mem with flight := l }

/-- R244: elements of one SCAT that share a home leave in ascending index. Those of a sequencer are known by the pc of their word. -/
def State.scatterBefore (s : State) (r : Req) (t : Target) : Bool :=
  (r.entry.isSome || r.row != 0) && s.mem.flight.any fun x =>
    x.iss == r.iss && x.entry == r.entry && x.row == r.row && decide (x.elem < r.elem) && !x.arrived &&
    match x.target with
    | some u => sameHome u t
    | none => match s.resolve x.iss.cluster x.iss x.ea (opWidth x.op) (opNeed x.op) with
      | .ok u => sameHome u t
      | .error _ => false

/-- R304, R381: whether an earlier request of the same other chip for the same home has still to reach it. -/
def State.behind (s : State) (k : Nat) (r : Req) (t : Target) : Bool :=
  r.iss.chip.isSome && (s.mem.flight.take k).any fun x => x.iss.chip == r.iss.chip && !x.arrived && !x.hop && match x.target with
    | some u => sameHome u t
    | none => false

/-- R231: whether a request that reached its home before this one waits there on the same line. -/
def State.lineBefore (s : State) (k : Nat) (r : Req) (t : Target) : Bool :=
  ((s.mem.flight.take k).any fun x => x.arrived && (x.target.map fun u => lineOf u.la) == some (lineOf t.la)) ||
  (!r.arrived && (s.mem.flight.drop (k + 1)).any fun x => x.arrived && (x.target.map fun u => lineOf u.la) == some (lineOf t.la))

/-- R304: whether a request in flight must let another pass before it reaches its home. A unit's own further accesses, and what waits at its
home, have passed every egress point. -/
def State.mustFollow (s : State) (k : Nat) (r : Req) (t : Target) : Bool :=
  s.lineBefore k r t || (!r.arrived && !r.hop && (s.scatterBefore r t || s.behind k r t ||
    s.egressWaits r.iss t (if r.passed = 0 then s.mem.flight.eraseIdx k else s.mem.flight.take k)))

/-- What a request does once it has been answered: the copy of CPYL goes on to its write (R245), anything else is delivered. A versioned store
of another chip that waits at its home has been accepted, and its answer follows (R305). -/
def State.finishReq (s : State) (r : Req) (a : Answer) : State :=
  match r.op, r.iss.chip, a.fault with
  | .copy dst, none, none => s.setFlight (s.mem.flight ++ [{ r with ea := dst, op := .store 64 a.data, target := none, arrived := false }])
  | .prefetch, _, _ => s
  | op, chip, _ =>
    if r.entry.isNone && chip.isNone then (match a.fault with
      | some (kind, _) => s.dropStore r.iss kind
      | none => s)
    else match opIsStv op && a.code == 1, chip, r.entry with
    | true, some c, some id => s.send c (.accepted id a)
    | _, _, _ => s.deliver r.iss r.entry r.elem op r.status r.ea a

/-- R224: an access whose firing waits for no reply. -/
def Req.completes (r : Req) : Bool :=
  plainStore r.op || (opIsStv r.op && !r.status) || match r.op with
    | .reclaim _ => true
    | _ => false

/-- R224, R231: a request has passed every check of its home and waits there for a held line: what its issuer waits for is answered, and it
stays in flight, behind what reached the home before it. -/
def State.arrive (s : State) (r : Req) (t : Target) : State :=
  let y : Req := { r with target := some t, arrived := true }
  if !r.completes then s.setFlight (s.mem.flight ++ [y])
  else match r.iss.chip, r.entry with
  | some c, some id => (s.setFlight (s.mem.flight ++ [y])).send c (.accepted id {})
  | none, some _ => (s.setFlight (s.mem.flight ++ [{ y with entry := none }])).deliver r.iss r.entry r.elem r.op r.status r.ea {}
  | _, none => s.setFlight (s.mem.flight ++ [y])

/-- A request in flight reaches its home and is applied in arrival order (R230, R231). -/
def State.homeRequest (s : State) (k : Nat) : State :=
  match s.mem.flight[k]? with
  | none => s
  | some r =>
    let rest := s.setFlight (s.mem.flight.eraseIdx k)
    let parks := if r.iss.chip.isSome ∨ r.target.isSome then none else parkable r.op r.status
    let goPark (denied : Bool) (w : Nat) (v : BitVec 512) : State :=
      if (s.replayOf r.iss.who).length < 16 then (rest.park r denied w v).finishReq r {}
      else s.setFlight (s.mem.flight.set k { r with stuck := true })
    let resolved : Except (BitVec 8) Target := match r.target with
      | some t => .ok t
      | none => s.resolve r.iss.cluster r.iss r.ea (opWidth r.op) (opNeed r.op)
    match resolved, parks with
    | .error kind, some (w, v) =>
      if kind = 0x08 ∨ kind = 0x09 then goPark (kind == 0x09) w v else rest.finishReq r { fault := some (kind, r.ea) }
    | .error kind, none => rest.finishReq r { fault := some (kind, r.ea) }
    | .ok t, p =>
      if s.mustFollow k r t || s.arriveWaits t r.op then s
      else match p, s.pageParked r.iss r.ea with
      | some (w, v), true => goPark false w v
      | _, parked =>
        -- R233: a store with status stays behind the parked stores of its page (log 143)
        if parked && opIsStv r.op && r.target.isNone then s
        else if t.chip ≠ s.chipId then
          if !s.routed t.chip then rest.finishReq r { fault := some (0x06, r.ea) }
          else
            let (s1, id) := rest.sendRequest t.chip fun id => accessBody t r.iss.part r.op r.ea id
            s1.setMem { s1.mem with away := put none s1.mem.away id (some { r with target := some t }) }
        else match rest.atHome t r.iss r.entry r.ea r.status r.op with
        | .answered s' a => s'.finishReq r a
        | .staged s' => s'
        | .held => if r.arrived then s else rest.arrive r t
        | .further s' t' ea' op' =>
          s'.setFlight (s'.mem.flight ++ [{ r with target := some t', ea := ea', op := op', hop := true, arrived := false }])

/-! ### Chains and waits -/

/-- CHAIN_APPLY (R83). -/
def execChainApply (line : Nat) (s : State) : Host.Outcome State Fault Refusal :=
  .next (if s.mem.chain.contains line then s.setMem (s.mem.chainStep line) else s)

/-- Whether an entry waits for a barrier's phase. -/
def Staged.isPhase (e : Staged) : Bool := match e.op with
  | .phase _ => true
  | _ => false

/-- Answers the satisfied entries of a line. -/
def State.answerDue (s : State) (line : Nat) (phase : Bool) : State :=
  let hit (d : Due) : Bool := d.staged.line == line && d.staged.isPhase == phase
  let dues := s.mem.due.filter hit
  dues.foldl (fun (s : State) d => s.deliver d.staged.iss d.staged.entry 0 d.staged.op.memOp d.staged.status d.staged.ea d.answer)
    (s.setMem { s.mem with due := s.mem.due.filter fun d => !hit d })

/-- WAITING_LOAD_ANSWER (R84, R85, R87). -/
def execWaitingLoadAnswer (line : Nat) (s : State) : Host.Outcome State Fault Refusal := .next (s.answerDue line false)

/-- BARRIER_WAIT_ANSWER (R258). -/
def execBarrierWaitAnswer (line : Nat) (s : State) : Host.Outcome State Fault Refusal := .next (s.answerDue line true)

/-- TRANSLATION_WALK (R97): a walk ends and its leaf enters the translation cache of its unit, which holds 2048 entries; the
oldest leaves a full one (log 139). -/
def execTranslationWalk (unit : Nat) (asid : BitVec 16) (va : BitVec 64) (s : State) : Host.Outcome State Fault Refusal :=
  .next <| if (s.cachedLeaf unit asid va.toNat).isSome ∨ va.extractLsb' 51 13 ≠ 0 then s
  else match s.walk asid va.toNat with
  | .error _ => s
  | .ok (e, level) =>
    let new : TlbEntry := { unit := unit, asid := asid, vpn := va.toNat / 32768, level := level, pte := e }
    let mine := s.mem.tlb.filter (·.unit == unit)
    let kept := if mine.length < 2048 then s.mem.tlb else match mine with
      | x :: _ => s.mem.tlb.erase x
      | [] => s.mem.tlb
    s.setMem { s.mem with tlb := kept ++ [new] }

/-! ### Parked stores (R434, R436) -/

/-- The issuer of a unit, with the ASID of a parked store. -/
def State.parkedIssuer (s : State) (a : Actor) (asid : BitVec 16) : Issuer :=
  match a with
  | .seq n => { s.seqIssuer n with asid := asid }
  | .ve c => { s.veIssuer c with asid := asid }
  | .mn c => { s.veIssuer c with asid := asid }

/-- The first parked store that may retry and has none of its page before it. -/
def retryIndex (l : List Parked) : Option Nat :=
  (List.range l.length).find? fun i => match l[i]? with
    | some p => p.retry && !((l.take i).any fun x => x.asid == p.asid && pageOf x.va == pageOf p.va)
    | none => false

/-- R307, R312: whether a store of a sequencer that came before a parked one, to bytes of it, has still to be applied. Those of a VE are in no
order (R306). -/
def State.retryWaits (s : State) (who : Actor) (before : List Parked) (p : Parked) (t : Target) : Bool :=
  let meet (a n b m : Nat) : Bool := decide (a < b + m) && decide (b < a + n)
  match who with
  | .seq _ =>
    (s.mem.flight.any fun r => r.iss.is who && match r.target with
      | some u => u.chip == t.chip && meet u.la (opWidth r.op) t.la p.width
      | none => r.iss.asid == p.asid && meet r.ea.toNat (opWidth r.op) p.va.toNat p.width) ||
    before.any fun x => x.asid == p.asid && meet x.va.toNat x.width p.va.toNat p.width
  | _ => false

/-- PARKED_STORE_RETRY (R434): one parked store translates again: it issues as an ordinary store, stays, or is dropped. -/
def execParkedStoreRetry (who : Actor) (s : State) : Host.Outcome State Fault Refusal :=
  .next <|
    let l := s.replayOf who
    match retryIndex l with
    | none => s
    | some i => match l[i]? with
      | none => s
      | some p =>
        let iss := s.parkedIssuer who p.asid
        let op : MemOp := match p.ver with
          | some v => .storeVer p.width v p.data
          | none => .store p.width p.data
        match s.resolve iss.cluster iss p.va p.width (opNeed op) with
        | .ok t =>
          let r : Req := { iss := iss, ea := p.va, op := op, target := some t, row := p.row, iter := p.iter, ord := p.ord, scope := p.scope,
                           made := p.made }
          if s.retryWaits who (l.take i) p t then s
          else
            let s1 := (s.setReplay who (l.eraseIdx i)).updateRpq iss.part
            s1.setFlight (s1.mem.flight ++ [r])
        | .error kind =>
          if kind = 0x08 ∨ kind = 0x09 then
            s.setReplay who (l.map fun x =>
              if x.asid = p.asid ∧ pageOf x.va = pageOf p.va then
                { x with retry := false, denied := if x = p then kind == 0x09 else x.denied }
              else x)
          else s.dropStore iss kind

/-- PARKED_STORE_AGE_EXPIRY (R436): a parked store that is 100 ms old ends its issuer's task. -/
def execParkedStoreAgeExpiry (who : Actor) (s : State) : Host.Outcome State Fault Refusal :=
  .next <| match (s.replayOf who).find? fun p => decide (p.born + 100000000 ≤ s.mgmt.podTime.toNat) with
  | some p => s.dropStore (s.parkedIssuer who p.asid) (if p.denied then 0x09 else 0x08)
  | none => s

/-! ### Errors (R441 to R445) -/

/-- CORRECTABLE_ERROR (R441). -/
def execCorrectableError (s : State) : Host.Outcome State Fault Refusal :=
  .next (s.setMem { s.mem with corr := if s.mem.corr = 0xFFFF then s.mem.corr else s.mem.corr + 1 })

/-- The partition that owns a local address, as an error log entry names it: that of its on-die unit, and for HBM that of the partition
memory key under which the block was last written, 0 where it has been under none (log 18). -/
def State.ownerOf (s : State) (a : Nat) : BitVec 7 :=
  match homeOf a with
  | .scratch n => look 0 s.brass.coreOf n
  | .tile m => look 0 s.brass.tileOf m
  | _ =>
    let mark := look 0 s.mem.keyOf (blockOf a)
    let e := look {} s.sec.keys ((mark - 1) % 4096)
    if mark ≠ 0 ∧ e.v then e.part else 0

/-- R444: counts an ECC error of a frame; at the second the frame is retired while the table has room. -/
def State.countError (s : State) (a : Nat) : State :=
  let f := frameOf a
  let n := look 0 s.mem.errors f + 1
  let s1 := s.setMem { s.mem with errors := put 0 s.mem.errors f n }
  if n = 2 ∧ s.mem.retired.length < 256 ∧ !s.mem.retired.contains f then
    let s2 := s1.setMem { s1.mem with retired := s1.mem.retired ++ [f] }
    let s3 := { s2 with sec := { s2.sec with fuses := { s2.sec.fuses with retired := s2.mem.retired } } }
    s3.logError 3 (s.ownerOf a) (f * 32768)
  else s1

/-- R77, R412: an accumulator slot that has suffered an uncorrectable error leaves the free list until the next package reset. -/
def Mn.loseSlot (m : Mn) (slot : Nat) : Mn :=
  { m with lost := m.lost ++ [slot], free := m.free.filter (· != slot), returning := m.returning.filter (· != slot) }

/-- R412: a core fails: its island is held, its stage waits to be recovered, and its scratchpad is lost. -/
def State.failCore (s : State) (c : Nat) : State :=
  let s1 := s.setCore c { s.core c with failed := true }
  let s2 := match s1.islandOf c with
    | some k => s1.setIsland k { s1.island k with hold := some ((s1.island k).hold.getD .fault) }
    | none => s1
  let s3 := s2.onStage (s2.regionOf c) fun t n => { t with stages := t.stages.modify n fun x => { x with failed := true } }
  (List.range 2048).foldl (fun s l => s.setMem (s.mem.poisonWaits (lineOf (scratchAt c 0) + l))) s3

/-- The doom code of a group: the first set stands (R450). -/
def Group.doom (g : Group) (code : BitVec 5) : Group := if g.code = 0 then { g with code := code } else g

/-- Groups are kept under 64 × ASID + number (R276). -/
def State.group (s : State) (asid : BitVec 16) (n : BitVec 6) : Group := look {} s.mem.groups (64 * asid.toNat + n.toNat)

def State.setGroup (s : State) (asid : BitVec 16) (n : BitVec 6) (g : Group) : State :=
  s.setMem { s.mem with groups := put {} s.mem.groups (64 * asid.toNat + n.toNat) g }

/-- Takes a binding off its port's queue: the port falls free. -/
def State.leavePort (s : State) (b port : Nat) : State :=
  let p := s.port port
  s.setPort port { p with queue := p.queue.filter (· != b) }

/-- Stops a binding by a fault at the POS of the first element it has not delivered or written (R271, R446). -/
def State.stopBinding (s : State) (b : Nat) (kind : BitVec 8) (val : W64) (sub : BitVec 8) (pos : Nat) : State :=
  match s.binding b with
  | none => s
  | some x =>
    let rec1 : FaultRec := { cause := 3#8 ++ kind, tval := val, tinfo := 0#5 ++ (sub ++ (x.tok ++ BitVec.ofNat 48 pos)) }
    let s1 := (s.setBinding b (some { x with state := 3, pos := pos, fault := some rec1, out := [], writes := [], run := none, ask := none,
                                             reply := none })).leavePort b x.port
    let q := s1.seq x.seq
    -- R484: a restore whose refetch fails ends the task
    if x.refetch then s1.endFor x.region 0 else s1.setSeq x.seq { q with bindFaults := q.bindFaults ++ [(rec1, s.now)] }

/-- UNCORRECTABLE_ERROR (R442 Table 2, R444, R445). -/
def execUncorrectableError (place : Place) (s : State) : Host.Outcome State Fault Refusal :=
  .next <| match place with
  | .core n => (s.failCore n).logError 1 (look 0 s.brass.coreOf n) (scratchAt n 0)
  | .accumulator n slot =>
    let s1 := s.failCore n
    (s1.setMn n ((s1.mn n).loseSlot slot)).logError 1 (look 0 s.brass.coreOf n) (scratchAt n 0)
  | .tile line => (s.setMem (s.mem.poisonLine line)).logError 1 (s.ownerOf (64 * line)) (64 * line)
  | .l2 line =>
    let x : L2Line := look {} s.mem.l2 line
    (if x.dirty then s.setMem ({ s.mem with badL2 := put false s.mem.badL2 line true }.poisonWaits line) else s).logError 1 x.part (64 * line)
  | .ecc line => ((s.setMem (s.mem.poisonBlock (line / 8))).logError 1 (s.ownerOf (64 * line)) (64 * line)).countError (64 * line)
  | .mac line => (s.setMem (s.mem.poisonBlock (line / 8))).logError 2 (s.ownerOf (64 * line)) (line / 8 * 512)
  | .staging line =>
    (match look none s.mem.held line with
    | none => s
    | some h =>
      let here := s.group h.gid.asid h.gid.grp
      let decided := s.mem.decisions.any (·.1 == h.gid) || (h.gid.chip == s.chipId && here.epoch == h.gid.epoch && here.state == 3)
      -- a line of a group that aborts is dropped; one whose group commits after all is published poisoned
      let s0 := s.logError 4 h.part (64 * line)
      let s1 := s0.setMem { s0.mem with held := put none s0.mem.held line (some { h with poisoned := true }) }
      if decided then s1
      else if h.gid.chip = s.chipId then
        let g := s1.group h.gid.asid h.gid.grp
        if g.epoch = h.gid.epoch ∧ (g.state = 1 ∨ g.state = 2) then s1.setGroup h.gid.asid h.gid.grp (g.doom 18) else s1
      else s1.send h.gid.chip (.groupDoom h.gid 18))
  | .record g =>
    if s.mem.decisions.any (·.1 == g) then
      s.setMem { s.mem with decisions := s.mem.decisions.filter (·.1 != g), reserved := s.mem.reserved.filter (·.2 != g) }
    else
      let x := s.group g.asid g.grp
      if g.chip = s.chipId ∧ x.epoch = g.epoch ∧ x.recordHere then
        let s1 := s.setGroup g.asid g.grp { x with recordHere := false }
        s1.setMem { s1.mem with reserved := s1.mem.reserved.erase (g.grp.toNat, g) }
      else s
  | .buffer b => match s.binding b with
    | some x => if x.state = 2 then (s.stopBinding b 0x12 0 0 x.pos).logError 5 x.part 0 else s
    | none => s

/-- BR_ERRPOP_WRITE (R445). -/
def execBrErrpopWrite (v : BitVec 64) (s : State) : Host.Outcome State Fault Refusal :=
  .next (if s.barOpen ∧ v.getLsbD 0 then s.setMem { s.mem with log := s.mem.log.tail } else s)

end Sys2Proof.Machine
end

