-- ==== Sys2Proof/Machine/Groups.lean ====
section
/-! DEFINITION. Commit groups: opcodes 0xD8 to 0xDC, their homes, decision records and resolution (R276 to R285, R317, R450 to
R456). -/

namespace Sys2Proof.Machine

/-! ### The initiator's group unit (R276) -/

/-- The identity of a group as it stands. -/
def State.gid (s : State) (asid : BitVec 16) (n : BitVec 6) : GroupId :=
  { chip := s.chipId, asid := asid, grp := n, epoch := (s.group asid n).epoch }

/-- Whether an identity is that of this chip's group as it stands. -/
def State.current (s : State) (g : GroupId) : Bool := g.chip == s.chipId && (s.group g.asid g.grp).epoch == g.epoch

/-- Replaces the group of an identity. -/
def State.putGroup (s : State) (g : GroupId) (x : Group) : State := s.setGroup g.asid g.grp x

/-- The group of an identity. -/
def State.ofGid (s : State) (g : GroupId) : Group := s.group g.asid g.grp

/-- R451, R452: the reserved line of a record or abort mark is freed. -/
def State.freeReserved (s : State) (g : GroupId) (slice : Nat) : State :=
  s.setMem { s.mem with reserved := s.mem.reserved.erase (slice, g) }

/-- R439: whether a slice has a reserved line free. -/
def State.reservedRoom (s : State) (slice : Nat) : Bool := decide ((s.mem.reserved.filter fun r => r.1 == slice).length < 64)

/-- R281: whether this chip holds the decision record of a group as its first destination, and the records without it. -/
def State.decided (s : State) (g : GroupId) : Bool := s.mem.decisions.any (·.1 == g)

def State.dropDecision (s : State) (g : GroupId) : State :=
  s.setMem { s.mem with decisions := s.mem.decisions.filter (·.1 != g) }

/-- Sends a commit or abort packet of a group to one of its chips. -/
def State.tellCommit (s : State) (g : GroupId) (chip : Nat) : State :=
  if chip = s.chipId then s.setMem { s.mem with commitsIn := s.mem.commitsIn ++ [g] } else s.send chip (.commit g)

def State.tellAbort (s : State) (g : GroupId) (chip : Nat) : State :=
  if chip = s.chipId then s.setMem { s.mem with abortsIn := s.mem.abortsIn ++ [g] } else s.send chip (.abort g)

/-- R451: the initiator's end of a group: both records are freed, and the group is Free. Its last outcome stays. -/
def State.closeGroup (s : State) (g : GroupId) : State :=
  let x := s.ofGid g
  let s1 := if x.recordHere then s.freeReserved g g.grp.toNat else s
  let s2 := if x.state = 3 then
      (match x.first with
      | some (chip, slice) =>
        if chip = s.chipId then (s1.dropDecision g).freeReserved g slice
        else s1.send chip (.freeRecord g)
      | none => s1)
    else s1
  let s3 := s2.setMem { s2.mem with groupStores := s2.mem.groupStores.filter fun e => !(e.gid == g && e.acked) }
  s3.putGroup g { x with state := 0, dests := [], recordHere := false, recordThere := none, sent := false, deferred := false, first := none }

/-- R283, R454: the abort of a group: at its first destination first when the record has been sent there, else everywhere at once. -/
def State.abortGroup (s : State) (g : GroupId) (code : BitVec 5) : State :=
  let x := { s.ofGid g with state := 4, code := code, ended := put 0 (s.ofGid g).ended g.epoch.toNat code }
  match x.dests, x.first with
  | [], _ => (s.putGroup g x).closeGroup g
  | ds, some (chip, _) =>
    if x.sent then (s.putGroup g { x with deferred := true, dests := (chip :: ds).eraseDups }).tellAbort g chip
    else ds.foldl (fun (t : State) c => t.tellAbort g c) (s.putGroup g x)
  | ds, none => ds.foldl (fun (t : State) c => t.tellAbort g c) (s.putGroup g x)

/-- R278, R450: a store of the group failed. -/
def State.doomGroup (s : State) (g : GroupId) (code : BitVec 5) : State :=
  let x := s.ofGid g
  if s.current g ∧ (x.state = 1 ∨ x.state = 2) then s.putGroup g (x.doom code) else s

/-! ### GOPEN, GABRT, GSTAT -/

/-- R399 Table 2: a group fault. -/
def State.groupFault (s : State) (k : Nat) (n : BitVec 6) : State := s.seqFault k 0x0F (n.setWidth 64)

/-- GOPEN (R277). -/
def execGopen (n : BitVec 6) (s : State) : Host.Outcome State Fault Refusal :=
  word (.gopen n) always
    (fun k s =>
      let q := s.seq k
      let g := s.group q.asid n
      if g.state = 0 then
        (s.setGroup q.asid n { state := 1, epoch := g.epoch + 1, opened := s.mgmt.periods, ended := g.ended }).seqNext k q
      else if g.state = 1 ∨ g.state = 2 then s.groupFault k n
      else s.begin k)
    noBody noBody s

/-- GABRT (R283). -/
def execGabrt (n : BitVec 6) (s : State) : Host.Outcome State Fault Refusal :=
  word (.gabrt n) always
    (fun k s =>
      let q := s.seq k
      let g := s.group q.asid n
      (if g.state = 1 then s.abortGroup (s.gid q.asid n) 0 else s).seqNext k q)
    noBody noBody s

/-- R284: the state that GSTAT reads. -/
def Group.bits (g : Group) : W64 :=
  g.state ++ (g.code ++ (BitVec.ofNat 24 g.stores ++ (BitVec.ofNat 24 g.acks ++ g.epoch)))

/-- GSTAT (R284). -/
def execGstat (d : BitVec 4) (n : BitVec 6) (s : State) : Host.Outcome State Fault Refusal :=
  word (.gstat d n) always
    (fun k s => s.seqNext k ((s.seq k).set d (s.group (s.seq k).asid n).bits)) noBody noBody s

/-! ### GST (R278) -/

/-- Registers a group store: the state after it, and what it answers when it goes no further. A partition fault of a home on this chip is
raised at once; one of another chip's home comes with the acknowledgement (log 49). -/
def State.registerGst (s : State) (iss : Issuer) (ea : W64) (n : BitVec 6) (w : Nat) (data : BitVec 512) (entry : Option Nat)
    (status : Bool) : State × Option Answer :=
  let g := s.gid iss.asid n
  let x := s.group iss.asid n
  let fault (kind : BitVec 8) : State × Option Answer := (s.doomGroup g 17, some { fault := some (kind, ea) })
  if x.state ≠ 1 then (s, some { code := 14 })
  else match s.resolve iss.cluster iss ea w { wr := true } with
  | .error kind => fault kind
  | .ok t =>
    if !inHbm t.la then fault 0x06
    else if t.chip ≠ s.chipId ∧ !s.routed t.chip then fault 0x06
    else if t.chip = s.chipId ∧ !s.keyCheck t.key iss.part then fault 0x0B
    else if 2 ^ 24 ≤ x.stores + 1 then (s.doomGroup g 3, some { code := 3 })
    else
      let id := s.links.nextId
      let first := x.first.getD (t.chip, sliceOf t.la)
      let e : GroupStore := { gid := g, id := id, req := { iss := iss, ea := ea, op := .group n w data, entry := entry, status := status, target := some t },
                              home := t.chip, la := t.la, ver := t.ver, key := t.key, first := first }
      let s1 := s.putGroup g { x with stores := x.stores + 1, first := some first, dests := (x.dests ++ [t.chip]).eraseDups }
      let s2 := s1.setMem { s1.mem with groupStores := s1.mem.groupStores ++ [e] }
      let s3 := { s2 with links := { s2.links with nextId := id + 1 } }
      (if t.chip = s.chipId then s3
       else s3.send t.chip (.groupStore id g t.la w data t.ver iss.part (t.key.getD 0) first), none)

/-- R278: the outcome of a group store on a sequencer. -/
def State.gstOutcome (s : State) (k : Nat) (n : BitVec 6) (st : Bool) (sp : BitVec 3) (a : Answer) : State :=
  match a.fault with
  | some (kind, v) => (s.endWait k).seqFault k kind v
  | none =>
    if st then
      let q := s.seq k
      s.seqNext k { q with preds := predSet q.preds sp (decide (a.code.toNat < 3)), wait := none }
    else if a.code = 14 then s.groupFault k n
    else s.seqNext k (s.seq k)

/-- R307, R317: whether a store of the sequencer to the bytes of a group store has still to be applied. -/
def State.gstBehind (s : State) (k : Nat) (ea : W64) (w : Nat) : Bool :=
  match s.resolve (s.seqIssuer k).cluster (s.seqIssuer k) ea w { wr := true } with
  | .ok t => s.overlaps (s.seqIssuer k) (some t) ea w
  | .error _ => false

/-- GST on a sequencer: without status it completes at registration, with status it waits for the acknowledgement. -/
def State.gstSeq (s : State) (k : Nat) (i : Instr) (a b d : BitVec 4) (o : BitVec 2) (sc : BitVec 3) (w : Nat) (st : Bool) (sp : BitVec 3) :
    State :=
  let q := s.seq k
  let n : BitVec 6 := (q.get b).setWidth 6
  if (q.get b).extractLsb' 6 58 ≠ 0 then s.seqFault k 0x05 ((wordOf i).setWidth 64)
  else match q.wait with
  | some x => (match x.answer with
    | some r => s.gstOutcome k n st sp r
    | none => s)
  | none =>
    if s.copyHolds k || s.gstBehind k (q.get a) w then s.begin k
    else s.seqRelease k o sc fun s =>
      let entry := if st then some s.links.nextId else none
      match s.registerGst (s.seqIssuer k) (q.get a) n w (seqData (q.get d)) entry st with
      | (s1, some r) => s1.gstOutcome k n st sp r
      | (s1, none) =>
        if st then s1.setSeq k { s1.seq k with wait := some { id := entry } } else s1.seqNext k (s1.seq k)

/-- GST on a vector element. -/
def State.gstVe (s : State) (c : Nat) (a b d : BitVec 4) (o : BitVec 2) (sc : BitVec 3) (w : Nat) (st : Bool) (sp : BitVec 3) : State :=
  let reads := [s.readSel c a, s.readSel c b, s.readData c d]
  let s := if allMarkers reads then s else s.veRelease c o sc
  let waits := if allMarkers reads then st && decide (8 ≤ (s.ve c).replies.length) else s.veMustWait c true o sc
  if waits then s.addStall 0
  else s.veFireReads c reads 0
    (fun m _ s' => (if st then s'.veMarkerEntry c m else s').passMarker c m)
    (fun ops s' =>
      let g := lane0 (opnd ops 1)
      if g.extractLsb' 6 26 ≠ 0 then s.addFault c false 0x05 ((s.veRow c).word.setWidth 64)
      else
        let num := (s'.ve c).nextEntry
        let ea := lanePair (opnd ops 0) 0
        let s1 := s'.veIssue c o sc st (resultRound (s.ve c) ops) { accs := [], pred := statusPred st sp, status := st }
        let s2 := s1.setVe c { s1.ve c with replies := (s1.ve c).replies.map fun e => if e.num = num then { e with left := 1 } else e }
        match s2.registerGst (s2.veIssuer c) ea (g.setWidth 6) w (opnd ops 2).data (some num) st with
        | (s3, some r) =>
          let r1 := if r.code = 14 ∧ !st then { r with fault := some (0x0F, (g.setWidth 6 : BitVec 6).setWidth 64) } else r
          s3.veAnswer c num 0 (.group (g.setWidth 6) w 0) st ea r1
        | (s3, none) => s3)

/-- GST (R278). -/
def execGst (a b d : BitVec 4) (o : BitVec 2) (sc w : BitVec 3) (t : Bool) (p : BitVec 3) (s : State) :
    Host.Outcome State Fault Refusal :=
  let i := Instr.gst a b d o sc w t p
  word i always
    (fun k s => s.gstSeq k i a b d o sc (widthBytes w) t p)
    (fun c s => s.gstVe c a b d o sc (widthBytes w) t p)
    noBody s

/-! ### GCMT (R281) -/

/-- R281: ends a GCMT with its outcome. -/
def State.gcmtEnd (s : State) (k : Nat) (d : BitVec 4) (code : BitVec 5) : State :=
  let q := s.seq k
  s.seqNext k { q.set d (code.setWidth 64) with wait := none }

/-- R281 Table 8: the lines that a group's stores have staged. -/
def State.nline (s : State) (g : GroupId) : BitVec 32 :=
  let l := s.mem.groupStores.filter fun e => e.gid == g && e.acked && e.code == 0 && e.fault.isNone
  BitVec.ofNat 32 (l.map fun e => (e.home, lineOf e.la)).eraseDups.length

/-- R281: what a GCMT in progress does next: it waits for the acknowledgements, writes the record at the initiator, sends it to the
first destination, and ends with the answer. -/
def State.gcmtGo (s : State) (k : Nat) (d : BitVec 4) (g : GroupId) : State :=
  let x := s.ofGid g
  if !s.current g then s.gcmtEnd k d (look 0 x.ended g.epoch.toNat)
  else if x.state ≠ 2 then s.gcmtEnd k d x.code
  else if x.acks < x.stores then s
  else if x.code ≠ 0 then (s.abortGroup g x.code).gcmtEnd k d x.code
  else match x.first with
  | none => (s.closeGroup g).gcmtEnd k d 0
  | some (chip, slice) =>
    if !x.sent then
      if s.reservedRoom g.grp.toNat then
        let s1 := s.setMem { s.mem with reserved := s.mem.reserved ++ [(g.grp.toNat, g)] }
        let s2 := s1.putGroup g { x with recordHere := true, sent := true, nline := s.nline g }
        if chip = s.chipId then s2.setMem { s2.mem with records := s2.mem.records ++ [(g, slice, s.nline g)] }
        else s2.send chip (.record g slice (s.nline g))
      else s
    else match x.recordThere with
    | none => s
    | some true =>
      (x.dests.foldl (fun (t : State) c => t.tellCommit g c) (s.putGroup g { x with state := 3 })).gcmtEnd k d 0
    | some false =>
      let y := { x with recordHere := false, sent := false }
      (((s.freeReserved g g.grp.toNat).putGroup g y).abortGroup g 16).gcmtEnd k d 16

/-- GCMT (R281). -/
def execGcmt (d : BitVec 4) (n : BitVec 6) (s : State) : Host.Outcome State Fault Refusal :=
  word (.gcmt d n) always
    (fun k s =>
      let q := s.seq k
      let g := s.gid q.asid n
      match q.wait with
      | some w => s.gcmtGo k d { g with epoch := ((w.got.headD {}).ver).setWidth 8 }
      | none =>
        if (s.ofGid g).state ≠ 1 then s.gcmtEnd k d 14
        else
          (s.putGroup g { s.ofGid g with state := 2 }).setSeq k
            { q with wait := some { got := [{ ver := g.epoch.setWidth 16 }] } })
    noBody noBody s

/-! ### Homes (R279, R280, R282, R283, R443) -/

/-- R439: whether a slice's staging way has a line free for a partition. -/
def State.wayRoom (s : State) (la : Nat) (part : BitVec 7) : Bool :=
  let here := s.mem.held.filter fun e => sliceOf (64 * e.1) == sliceOf la
  decide (here.length < 4032) && decide ((here.filter fun e => match e.2 with
    | some h => h.part == part
    | none => false).length < 1024)

/-- R279: the bytes of a store merged into a line's copy. -/
def mergeStore (copy : BitVec 512) (la w : Nat) (data : BitVec 512) : BitVec 512 :=
  setBytes copy (la % 64) w (data.toNat % 2 ^ (8 * w))

/-- R279, R280, R443: a group store at its home: the outcome, or the kind of a fault. -/
def State.stageGst (s : State) (e : GroupStore) (w : Nat) (data : BitVec 512) : State × BitVec 5 × Option (BitVec 8) :=
  let line := lineOf e.la
  let t : Target := { chip := s.chipId, la := e.la, ver := e.ver, key := e.key }
  if e.gid.chip = s.chipId ∧ !(s.current e.gid && ((s.ofGid e.gid).state == 1 || (s.ofGid e.gid).state == 2)) then (s, 0, none)
  else match look none s.mem.held line with
  | some h =>
    if h.gid = e.gid then
      (s.setMem { s.mem with held := put none s.mem.held line (some { h with copy := mergeStore h.copy e.la w data }) }, 0, none)
    else (s, 13, none)
  | none =>
    match s.homeRefusal t e.req.iss.part (.load 64) with
    | some kind => (s, 0, some kind)
    | none =>
      if !s.wayRoom e.la e.req.iss.part then (s, 3, none)
      else
        let s1 := s.setMem (s.mem.settleChain line)
        let h : Held := { gid := e.gid, copy := mergeStore (s1.mem.read (64 * line) 64) e.la w data, part := e.req.iss.part,
                          since := s.mgmt.podTime.toNat, ver := e.ver, first := e.first }
        (s1.setMem { s1.mem with held := put none s1.mem.held line (some h) }, 0, none)

/-- GROUP_STORE_STAGING (R279, R280): a group store reaches its home slice. -/
def execGroupStoreStaging (k : Nat) (s : State) : Host.Outcome State Fault Refusal :=
  .next <| match s.mem.groupStores[k]? with
  | none => s
  | some e =>
    if e.staged ∨ e.home ≠ s.chipId then s
    else match e.req.op with
    | .group _ w data =>
      let (s1, code, fault) := s.stageGst e w data
      s1.setMem { s1.mem with groupStores := s1.mem.groupStores.set k { e with staged := true, code := code, fault := fault } }
    | _ => s

/-- GST_ACK (R278): the acknowledgement of a store reaches its initiator, which counts it, notes a doom and answers the issuer. A store of
another chip is answered by a packet. -/
def execGstAck (k : Nat) (s : State) : Host.Outcome State Fault Refusal :=
  .next <| match s.mem.groupStores[k]? with
  | none => s
  | some e =>
    if !e.staged ∨ e.acked then s
    else if e.gid.chip ≠ s.chipId then
      (s.setMem { s.mem with groupStores := s.mem.groupStores.eraseIdx k }).send e.gid.chip (.groupAck e.id e.code e.fault)
    else
      let ended := !(s.current e.gid && (s.ofGid e.gid).state != 0)
      let s1 := s.setMem { s.mem with groupStores :=
        if ended then s.mem.groupStores.eraseIdx k else s.mem.groupStores.set k { e with acked := true } }
      let s2 := if ended then s1 else s1.putGroup e.gid { s1.ofGid e.gid with acks := (s1.ofGid e.gid).acks + 1 }
      let s3 := if e.fault.isSome then s2.doomGroup e.gid 17 else if e.code ≠ 0 then s2.doomGroup e.gid e.code else s2
      s3.deliver e.req.iss e.req.entry 0 e.req.op e.req.status e.req.ea
        { code := e.code, fault := e.fault.map fun kind => (kind, e.req.ea) }

/-- DECISION_RECORD_WRITE (R453): the first destination accepts the record unless it holds an abort mark, which the record then frees. -/
def execDecisionRecordWrite (g : GroupId) (s : State) : Host.Outcome State Fault Refusal :=
  .next <| match s.mem.records.find? (·.1 == g) with
  | none => s
  | some (_, slice, nline) =>
    let answer (s : State) (ok : Bool) : State :=
      if g.chip = s.chipId then (if s.current g then s.putGroup g { s.ofGid g with recordThere := some ok } else s)
      else s.send g.chip (.recordAnswer g ok)
    let s1 := s.setMem { s.mem with records := s.mem.records.erase (g, slice, nline) }
    if s.mem.aborts.contains g then
      answer ((s1.setMem { s1.mem with aborts := s1.mem.aborts.erase g }).freeReserved g slice) false
    else if s.reservedRoom slice then
      answer (s1.setMem { s1.mem with decisions := s1.mem.decisions ++ [(g, nline)], reserved := s1.mem.reserved ++ [(slice, g)] }) true
    else s

/-- R282: publishes one line: its bytes, its version and the release of its hold are one action. -/
def State.publish (s : State) (line : Nat) (h : Held) : State :=
  let s1 := s.setMem { s.mem with held := put none s.mem.held line none }
  if h.poisoned then s1.setMem (s1.mem.poisonBlock (line / 8))
  else
    let t : Target := { chip := s.chipId, la := 64 * line, ver := h.ver }
    (s1.noteVersions t).plainAt t h.part 64 h.copy

/-- R283: releases the hold of a line and drops its copy. -/
def State.unhold (s : State) (line : Nat) : State := s.setMem { s.mem with held := put none s.mem.held line none }

/-- The lines that a group holds here. -/
def State.linesOf (s : State) (g : GroupId) : List (Nat × Held) :=
  s.mem.held.filterMap fun e => match e.2 with
    | some h => if h.gid = g then some (e.1, h) else none
    | none => none

def State.publishAll (s : State) (g : GroupId) : State := (s.linesOf g).foldl (fun (t : State) e => t.publish e.1 e.2) s

def State.releaseAll (s : State) (g : GroupId) : State := (s.linesOf g).foldl (fun (t : State) e => t.unhold e.1) s

/-- R451: a destination's acknowledgement to the initiator. -/
def State.acknowledge (s : State) (g : GroupId) : State :=
  if g.chip = s.chipId then s.setMem { s.mem with acksIn := s.mem.acksIn ++ [(g, s.chipId)] } else s.send g.chip (.released g)

/-- COMMIT_PACKET (R282): a destination publishes a group's lines. -/
def execCommitPacket (g : GroupId) (s : State) : Host.Outcome State Fault Refusal :=
  .next (if s.mem.commitsIn.contains g then
      ((s.setMem { s.mem with commitsIn := s.mem.commitsIn.erase g }).publishAll g).acknowledge g
    else s)

/-- ABORT_PACKET (R283, R454): a destination releases a group's lines; the first destination erases the record. -/
def execAbortPacket (g : GroupId) (s : State) : Host.Outcome State Fault Refusal :=
  .next (if s.mem.abortsIn.contains g then
      let s1 := (s.setMem { s.mem with abortsIn := s.mem.abortsIn.erase g }).releaseAll g
      let s2 := if s1.decided g then
          s1.setMem { s1.mem with decisions := s1.mem.decisions.filter (·.1 != g),
                                  reserved := s1.mem.reserved.filter fun r => !(r.2 == g && !(g.chip == s.chipId && r.1 == g.grp.toNat)) }
        else s1
      (s2.setMem { s2.mem with records := s2.mem.records.filter (·.1 != g) }).acknowledge g
    else s)

/-- GROUP_DESTINATION_ACK (R451, R454): frees the records once every destination has answered, or sends the abort packets that waited. -/
def execGroupDestinationAck (g : GroupId) (chip : Nat) (s : State) : Host.Outcome State Fault Refusal :=
  .next (if s.mem.acksIn.contains (g, chip) then
      let s1 := s.setMem { s.mem with acksIn := s.mem.acksIn.erase (g, chip) }
      if !s1.current g then s1
      else
        let x := s1.ofGid g
        let y := { x with dests := x.dests.erase chip, deferred := false }
        if y.dests = [] then (s1.putGroup g y).closeGroup g
        else if x.deferred then y.dests.foldl (fun (t : State) c => t.tellAbort g c) (s1.putGroup g y)
        else s1.putGroup g y
    else s)

/-- GROUP_LIFETIME_EXPIRY (R283): 1 200 000 clock periods after GOPEN, skipped ones included (R394). -/
def execGroupLifetimeExpiry (asid : BitVec 16) (n : BitVec 6) (s : State) : Host.Outcome State Fault Refusal :=
  let x := s.group asid n
  .next (if (x.state = 1 ∨ x.state = 2) ∧ x.opened + 1200000 ≤ s.mgmt.periods then
      s.abortGroup (s.gid asid n) (x.doom 16).code
    else s)

/-! ### Resolution (R455, R456) -/

/-- R455: the first destination's answer; without a record it leaves an abort mark. -/
def State.firstVerdict (s : State) (g : GroupId) (slice : Nat) : State × Verdict :=
  if s.decided g then (s, .commit)
  else if s.mem.aborts.contains g then (s, .abort)
  else (s.setMem { s.mem with aborts := s.mem.aborts ++ [g], reserved := s.mem.reserved ++ [(slice, g)] }, .abort)

/-- R455: the initiator's answer. -/
def State.initiatorVerdict (s : State) (g : GroupId) : Verdict :=
  let x := s.ofGid g
  if x.epoch = g.epoch ∧ x.state = 3 then .commit else if x.epoch = g.epoch ∧ x.state = 2 then .wait else .abort

/-- R456: a line is released poisoned. -/
def State.releasePoisoned (s : State) (line : Nat) : State :=
  let s1 := s.unhold line
  s1.setMem (s1.mem.poisonBlock (line / 8))

/-- R455, R456: what a verdict does to the lines of a group here; when the first destination is lost, an initiator that still closes
leaves them poisoned. -/
def State.applyVerdict (s : State) (g : GroupId) (v : Verdict) : State :=
  match v with
  | .commit => s.publishAll g
  | .abort => s.releaseAll g
  | .wait => (s.linesOf g).foldl (fun (t : State) e => if s.mem.gone.contains e.2.first.1 then t.releasePoisoned e.1 else t) s

/-- HOLD_TIMEOUT_RESOLVE (R455): a line held for 2 ms asks after its group, and again 100 µs later: the first destination, or the
initiator where the first destination has been found unreachable and still is. -/
def execHoldTimeoutResolve (line : Nat) (initiator : Bool) (s : State) : Host.Outcome State Fault Refusal :=
  .next <| match look none s.mem.held line with
  | none => s
  | some h =>
    let now := s.mgmt.podTime.toNat
    let due := decide (h.since + 2000000 ≤ now) && (match h.asked with
      | some t => decide (t + 100000 ≤ now)
      | none => true)
    if !due then s
    else
      let s1 := s.setMem { s.mem with held := put none s.mem.held line (some { h with asked := some now }) }
      let far := initiator && s.cutOff h.first.1
      let ask := if far then h.gid.chip else h.first.1
      if ask = s.chipId then
        if far then s1.applyVerdict h.gid (s1.initiatorVerdict h.gid)
        else let (s2, v) := s1.firstVerdict h.gid h.first.2; s2.applyVerdict h.gid v
      else s1.send ask (.resolve h.gid (!far) h.first.2)

/-- GROUP_RESOLVE_QUERY (R455): a query that has come is answered. -/
def execGroupResolveQuery (g : GroupId) (chip : Nat) (s : State) : Host.Outcome State Fault Refusal :=
  .next <| match s.mem.queries.find? fun q => q.1 == g && q.2.1 == chip with
  | none => s
  | some q =>
    let s1 := s.setMem { s.mem with queries := s.mem.queries.erase q }
    if q.2.2.1 then let (s2, v) := s1.firstVerdict g q.2.2.2; s2.send chip (.resolved g v)
    else s1.send chip (.resolved g (s1.initiatorVerdict g))

/-- R456: a held line of a lost chip's group: what is resolved here at once. -/
def State.resolveLost (s : State) (line : Nat) (h : Held) : State :=
  if s.mem.gone.contains h.first.1 then
    if s.mem.gone.contains h.gid.chip then s.releasePoisoned line
    else if h.gid.chip = s.chipId then s.applyVerdict h.gid (s.initiatorVerdict h.gid)
    else s.send h.gid.chip (.resolve h.gid false h.first.2)
  else s

/-- CHIP_LOST (R453, R456): a chip seen to have reset. -/
def execChipLost (chip : Nat) (s : State) : Host.Outcome State Fault Refusal :=
  let s1 := s.setMem { s.mem with
    gone := (s.mem.gone ++ [chip]).eraseDups
    reserved := s.mem.reserved.filter fun r => !(r.2.chip == chip && s.mem.aborts.contains r.2)
    aborts := s.mem.aborts.filter (·.chip != chip)
    groupStores := s.mem.groupStores.filter (·.gid.chip != chip)
    records := s.mem.records.filter (·.1.chip != chip)
    commitsIn := s.mem.commitsIn.filter (·.chip != chip)
    abortsIn := s.mem.abortsIn.filter (·.chip != chip)
    queries := s.mem.queries.filter (·.2.1 != chip) }
  let s2 := s1.mem.held.foldl (fun (t : State) e => match e.2 with
    | some h => t.resolveLost e.1 h
    | none => t) s1
  -- the group unit counts no acknowledgement of a lost destination
  .next (s2.mem.groups.foldl (fun (t : State) e =>
    if e.2.dests.contains chip then
      let g : GroupId := { chip := t.chipId, asid := BitVec.ofNat 16 (e.1 / 64), grp := BitVec.ofNat 6 (e.1 % 64), epoch := e.2.epoch }
      let y : Group := { e.2 with dests := e.2.dests.erase chip }
      if (y.state = 3 ∨ y.state = 4) ∧ y.dests = [] then (t.putGroup g y).closeGroup g else t.putGroup g y
    else t) s2)

end Sys2Proof.Machine
end

