-- ==== Sys2Proof/Machine/Streams.lean ====
section
/-! DEFINITION. Patterns, layouts and the work of stream bindings: visiting, packing, cipher units, ports and writes (R57, R192,
R261 to R269, R349 to R351, R446, R447). -/

namespace Sys2Proof.Machine

/-! ### Pattern and layout records (R261 Tables 2 and 3) -/

def patCount (p : BitVec 256) (k : Nat) : Nat := (p.extractLsb' (36 * k) 12).toNat + 1

def patStep (p : BitVec 256) (k : Nat) : Int := (p.extractLsb' (36 * k + 12) 8).toInt

def patOrigin (p : BitVec 256) (k : Nat) : Int := (p.extractLsb' (36 * k + 20) 16).toInt

def patLay (p : BitVec 256) : Nat := (p.extractLsb' 148 4).toNat

def patXf (p : BitVec 256) : Nat := (p.extractLsb' 152 3).toNat

def patXfmt (p : BitVec 256) : BitVec 3 := p.extractLsb' 155 3

def patEdge (p : BitVec 256) : Nat := (p.extractLsb' 158 2).toNat

def patDrn (p : BitVec 256) : Bool := p.getLsbD 160

def patRlv (p : BitVec 256) : Nat := (p.extractLsb' 161 3).toNat

def patKh (p : BitVec 256) : BitVec 16 := p.extractLsb' 164 16

def patIvlo (p : BitVec 256) : BitVec 32 := p.extractLsb' 180 32

def patScale (p : BitVec 256) : BitVec 32 := p.extractLsb' 212 32

/-- Whether a pattern record's reserved bits are zero. -/
def patClean (p : BitVec 256) : Bool := p.extractLsb' 244 12 == 0 && p.extractLsb' 144 4 == 0

def layTag (l : BitVec 384) : BitVec 3 := l.setWidth 3

def layWref (l : BitVec 384) : Bool := l.getLsbD 6

def layMrep (l : BitVec 384) : Bool := l.getLsbD 7

def layDim (l : BitVec 384) (k : Nat) : Nat := (l.extractLsb' (16 * k + 96) 16).toNat

def layStride (l : BitVec 384) (k : Nat) : Int := (l.extractLsb' (40 * k + 160) 40).toInt

def layBase (l : BitVec 384) : W64 := l.extractLsb' 320 64

/-- Whether a layout record's reserved bits are zero. -/
def layClean (l : BitVec 384) : Bool := l.extractLsb' 8 88 == 0 && l.extractLsb' 3 3 == 0

/-- R261: the element size: the lane size of the tag, one byte for the tag of two values a byte. -/
def elementSize (l : BitVec 384) : Nat :=
  match fmtOfTag (layTag l) with
  | some f => if f.bits < 8 then 1 else f.bits / 8
  | none => 1

/-! ### Visiting (R262) -/

/-- Elements of a pattern. -/
def patTotal (p : BitVec 256) : Nat := patCount p 0 * patCount p 1 * patCount p 2 * patCount p 3

/-- The loops of a pattern from the innermost visited one out: transform 1 exchanges the first two. -/
def patOrder (p : BitVec 256) : List Nat := if patXf p = 1 then [1, 0, 2, 3] else [0, 1, 2, 3]

/-- Elements of an inner run. -/
def innerRun (p : BitVec 256) : Nat := patCount p (if patXf p = 1 then 1 else 0)

/-- R264: elements visited in one iteration of the loop that RLV selects. -/
def roundSize (p : BitVec 256) : Nat :=
  (((patOrder p).takeWhile (· != patRlv p - 1)).map (patCount p)).foldl (· * ·) 1

/-- Index of loop `k` at position `pos`. -/
def loopIndex (p : BitVec 256) (pos k : Nat) : Nat :=
  let below := (((patOrder p).takeWhile (· != k)).map (patCount p)).foldl (· * ·) 1
  pos / below % patCount p k

/-- R262: coordinate `k` before the edge rule. -/
def coordinate (p : BitVec 256) (pos k : Nat) : Int := patOrigin p k + loopIndex p pos k * patStep p k

/-- R262 `mirror`. -/
def mirrorCoord (c : Int) (d : Nat) (rep : Bool) : Int :=
  let period : Int := if rep then 2 * d else 2 * d - 2
  if period = 0 then 0
  else
    let m := c % period
    if m < d then m else if rep then period - 1 - m else period - m

/-- What visiting an element gives: an address, a zero or unwritten element, or a fault at an address with its sub-cause. -/
inductive Visit where
  | at (va : W64)
  | none
  | fault (va : W64) (sub : BitVec 8)
  deriving DecidableEq, Repr

/-- R262: the address of given coordinates. -/
def elementAddr (l : BitVec 384) (off : W64) (c : Nat → Int) : W64 :=
  layBase l + off + BitVec.ofInt 64 (c 0 * layStride l 0 + c 1 * layStride l 1 + c 2 * layStride l 2 + c 3 * layStride l 3)

/-- R262: visits the element at a position. The address of an edge fault is that of the coordinates out of range. -/
def visit (p : BitVec 256) (l : BitVec 384) (off : W64) (pos : Nat) : Visit :=
  let c (k : Nat) : Int := coordinate p pos k
  let outside (k : Nat) : Bool := decide (c k < 0) || decide ((layDim l k : Int) ≤ c k)
  let bad := (List.range 4).any outside
  if bad && patEdge p == 0 then .fault (elementAddr l off c) 1
  else if bad && patEdge p == 2 then .none
  else
    let va := elementAddr l off fun k => if outside k then mirrorCoord (c k) (layDim l k) (layMrep l) else c k
    if va.toNat % elementSize l = 0 then .at va else .fault va 2

/-! ### Transforms (R263, R265 Table 4, R269) -/

/-- The tag of a binding's tokens. -/
def outTag (p : BitVec 256) (l : BitVec 384) : BitVec 3 := if 2 ≤ patXf p ∧ patXf p ≤ 4 then patXfmt p else layTag l

/-- Bits that one visited element gives. -/
def outBits (p : BitVec 256) (l : BitVec 384) : Nat :=
  if 2 ≤ patXf p ∧ patXf p ≤ 4 then
    (match fmtOfTag (patXfmt p) with
    | some g => g.bits
    | none => 8) * (if layTag l = 5 then 2 else 1)
  else 8 * elementSize l

/-- Elements of a full token. -/
def tokenElements (p : BitVec 256) (l : BitVec 384) : Nat := 512 / outBits p l

/-- One source value under the transform. -/
def transformValue (p : BitVec 256) (f g : Fmt) (x : Nat) : Nat :=
  let v := valOf f x
  cvt (if patXf p = 4 then v else v.mul (valOf .fp32 (patScale p).toNat)) g .rne false

/-- An element's bits as they leave. -/
def transform (p : BitVec 256) (l : BitVec 384) (x : Nat) : Nat :=
  if 2 ≤ patXf p ∧ patXf p ≤ 4 then
    match fmtOfTag (layTag l), fmtOfTag (patXfmt p) with
    | some f, some g =>
      if layTag l = 5 then transformValue p f g (x % 16) + 2 ^ g.bits * transformValue p f g (x / 16)
      else transformValue p f g x
    | _, _ => x
  else x

/-- R269: whether a binding reads through the aperture. -/
def usesAperture (p : BitVec 256) : Bool := decide (1 ≤ patXf p) && decide (patXf p ≤ 3)

/-! ### Ports (R266) -/

/-- The core and input port that a fabric or vector port feeds, or whose routes it takes. -/
def portCore (k : Nat) : Nat × Nat :=
  if k < 1000 then
    let si := k % 24 / 2
    let j := k % 2
    if si < 6 then (coreAt (k / 24) 0 (2 * si + j), 0) else (coreAt (k / 24) 7 (2 * (si - 6) + j), 2)
  else ((k - 1000) / 4, (k - 1000) % 4)

/-- Whether a port is an operand slot, and which. -/
def portSlot (k : Nat) : Option (Nat × Nat) := if 10000 ≤ k ∧ k < 100000 then some ((k - 10000) / 32, (k - 10000) % 32) else none

/-- The issuer of a binding's accesses: its sequencer, under the ASID and partition of the binding. -/
def Binding.issuer (x : Binding) : Issuer := { who := .seq x.seq, cluster := x.si / 12, asid := x.asid, part := x.part }

/-! ### Reads (R263, R267 to R269, R349) -/

/-- What a read of a line comes to. -/
inductive Got where
  | data (d : BitVec 512)
  | wait
  | bad (kind : BitVec 8) (val : W64)
  deriving DecidableEq, Repr

/-- R96, R267, R429: whether a binding may read operand-only pages. -/
def State.operandOnly (s : State) (x : Binding) : Bool :=
  (portSlot x.port).isSome && patKh x.pat != 0 && (patXf x.pat == 0 || patXf x.pat == 5) &&
  match s.handle (patKh x.pat) with
  | some h => h.type == 1
  | none => false

/-- R304, R308: whether an access of a binding waits: for a store that its sequencer made before the binding and that reaches bytes of it, or
behind a write that has passed an egress point on its way to the same home. -/
def State.bindWaits (s : State) (x : Binding) (va : W64) (w : Nat) (t : Target) : Bool :=
  let meet (a n b m : Nat) : Bool := decide (a < b + m) && decide (b < a + n)
  (s.mem.flight.any fun r => r.iss.is (.seq x.seq) && decide (r.made ≤ x.made) && match r.target with
    | some u => u.chip == t.chip && meet u.la (opWidth r.op) t.la w
    | none => r.iss.asid == x.asid && meet r.ea.toNat (opWidth r.op) va.toNat w) ||
  ((s.replayOf (.seq x.seq)).any fun p => decide (p.made ≤ x.made) && p.asid == x.asid && meet p.va.toNat p.width va.toNat w) ||
  s.egressWaits x.issuer t s.mem.flight

/-- Reads `w` bytes for a binding: translated, checked and performed at its home, which may be at another chip. -/
def State.bindRead (s : State) (x : Binding) (va : W64) (w : Nat) (data : Bool) : State × Binding × Got :=
  match x.ask, x.reply with
  | some _, none => (s, x, .wait)
  | some _, some (d, f) =>
    (s, { x with ask := none, reply := none }, match f with
      | some kind => .bad kind va
      | none => .data d)
  | none, _ =>
    match s.resolve (siUnit x.si) x.issuer va w { rd := true } (s.operandOnly x) with
    | .error kind => (s, x, .bad kind va)
    | .ok t =>
      let x1 := if data then { x with allOo := x.allOo && t.oo } else x
      if s.bindWaits x va w t then (s, x, .wait)
      else if t.chip ≠ s.chipId then
        if s.routed t.chip then
          let (s1, id) := s.sendRequest t.chip fun id => accessBody t x.part (.load w) va id
          (s1, { x1 with ask := some id, askAt := some t }, .wait)
        else (s, x, .bad 0x06 va)
      else match s.atHome t x.issuer none va false (.load w) with
      | .answered s' a => (s', x1, match a.fault with
        | some (kind, _) => .bad kind va
        | none => .data a.data)
      | .staged s' => (s', x1, .wait)
      | _ => (s, x1, .wait)

/-- R74: the global physical address of the first byte a fill fetches: that of the first element it visits, also under a key handle
or a weight reference (log 140). -/
def State.noteGpa (s : State) (x : Binding) (va : W64) : Binding :=
  match x.gpa, s.resolve (siUnit x.si) x.issuer va 1 { rd := true } (s.operandOnly x) with
  | none, .ok t => { x with gpa := some (BitVec.ofNat 12 t.chip ++ BitVec.ofNat 46 t.la) }
  | _, _ => x

/-- The number of a line of virtual addresses, and the line itself. -/
def vline (va : W64) : Nat := va.toNat / 64

def lineStart (va : W64) : W64 := va &&& ~~~(63#64)

/-- Keeps a line in the clear: with an aperture beside the others, else alone. -/
def Binding.keep (x : Binding) (n : Nat) (d : BitVec 512) : Binding :=
  { x with plain := put none (if usesAperture x.pat then x.plain else []) n (some d) }

/-- R349: gathers the next line of a cipher unit, its tag last; a whole unit whose tag checks is kept in the clear. -/
def State.gatherUnit (s : State) (x : Binding) (h : KeyRec) (u : Nat) (data : Bool) : State × Binding × Got :=
  let x0 := if x.unitNo = some u then x else { x with unitNo := some u, unit := [] }
  let base := h.rbase + BitVec.ofNat 64 (4096 * u)
  match (List.range 65).find? fun k => (look none x0.unit k).isNone with
  | some k =>
    let (s1, x1, r) := if k = 64 then s.bindRead x0 (h.rtag + BitVec.ofNat 64 (16 * u)) 16 false
      else s.bindRead x0 (base + BitVec.ofNat 64 (64 * k)) 64 data
    (match r with
    | .data d => (s1, { x1 with unit := put none x1.unit k (some d) }, .wait)
    | other => (s1, x1, other))
  | none =>
    let line (k : Nat) : BitVec 512 := (look none x0.unit k).getD 0
    let cipher := (List.range 64).flatMap fun k => bytesOf (line k) 64
    let iv := unitIv h (patIvlo x.pat) u
    if Config.sm4Tag h.key iv cipher [] = (line 64).setWidth 128 then
      let clear := Config.sm4Gcm h.key iv cipher
      let old := if usesAperture x.pat then x0.plain else []
      let plain := (List.range 64).foldl (fun (t : Tab (Option (BitVec 512))) k =>
        put none t (vline base + k) (some (ofBytes 512 ((clear.drop (64 * k)).take 64)))) old
      (s, { x0 with plain := plain, unit := [], unitNo := none }, .wait)
    else (s, x0, .bad 0x1A base)

/-- R268, R349: the clear line that holds an address. Data of a handle lies in its read range. -/
def State.bindLine (s : State) (x : Binding) (va : W64) (data : Bool) : State × Binding × Got :=
  match look none x.plain (vline va) with
  | some d => (s, x, .data d)
  | none =>
    let kh := patKh x.pat
    if kh = 0 then
      (match s.bindRead x (lineStart va) 64 data with
      | (s1, x1, .data d) => (s1, x1.keep (vline va) d, .data d)
      | other => other)
    else match s.handle kh with
    | none => (s, x, .bad 0x1B (kh.setWidth 64))
    | some h =>
      if h.rbase.toNat ≤ va.toNat ∧ va.toNat < h.rbase.toNat + h.rlen.toNat then
        s.gatherUnit x h ((va.toNat - h.rbase.toNat) / 4096) data
      else if data then (s, x, .bad 0x1B (kh.setWidth 64))
      else s.bindRead x (lineStart va) 64 false

/-- The position up to which a read binding has read. -/
def Binding.reached (x : Binding) : Nat := (match x.out.getLast? with
  | some t => t.pos
  | none => x.pos) + x.packed

/-- R263, R264: one element enters the token being packed; a full token, an inner run or a round's end, and the last element send it,
with the markers that follow. -/
def Binding.push (x : Binding) (bits bytes : Nat) : Binding :=
  let p := x.reached + 1
  let n := outBits x.pat x.lay
  let data := x.pack ||| BitVec.ofNat 512 (bits % 2 ^ n * 2 ^ (n * x.packed))
  let total := patTotal x.pat
  let round := patRlv x.pat ≠ 0 ∧ (p - x.start) % roundSize x.pat = 0
  if x.packed + 1 = tokenElements x.pat x.lay ∨ p % innerRun x.pat = 0 ∨ round ∨ p = total then
    let t : TokenOut := { tok := { data := data, tag := outTag x.pat x.lay, rnd := 0 }, pos := p, bytes := x.got + bytes }
    let marks := (if round then [({ tok := marker 1 0, pos := p, bytes := 0 } : TokenOut)] else []) ++
      (if p = total ∧ patDrn x.pat then [({ tok := marker 2 0, pos := p, bytes := 0 } : TokenOut)] else [])
    { x with out := x.out ++ t :: marks, pack := 0, packed := 0, got := 0 }
  else { x with pack := data, packed := x.packed + 1, got := x.got + bytes }

/-- R75: bits appended to a fill; more than a slot holds is a fault of the port (R266). -/
def Binding.append (x : Binding) (bits n : Nat) : Option Binding :=
  if 65536 < x.filled + n then none
  else some { x with fill := x.fill ||| BitVec.ofNat 65536 (bits % 2 ^ n * 2 ^ x.filled), filled := x.filled + n }

/-- What a binding's turn leads to. -/
inductive Turned where
  | on (s : State) (x : Binding)
  | stop (s : State) (x : Binding) (kind : BitVec 8) (val : W64) (sub : BitVec 8) (pos : Nat)
  deriving DecidableEq, Repr

/-- One element of a read binding: what it gives goes to the token or the slot. -/
def Binding.element (x : Binding) (s : State) (va : W64) (bits bytes : Nat) : Turned :=
  match portSlot x.port with
  | none => .on s (x.push bits bytes)
  | some _ => match x.append bits (outBits x.pat x.lay) with
    | some y => .on s { y with pos := y.pos + 1, got := y.got + bytes }
    | none => .stop s x 0x1D va 4 x.pos

/-- The element's bytes inside its line. -/
def pickElement (d : BitVec 512) (va : W64) (es : Nat) : Nat := (d.extractLsb' (8 * (va.toNat % 64)) (8 * es)).toNat

/-- R262, R263: reads elements until a line has been read and another is needed, or a token is complete; `fresh` says that a line may
still be read. -/
def State.readElements (s : State) (x : Binding) (fresh : Bool) : Nat → Turned
  | 0 => .on s x
  | fuel + 1 =>
    let p := x.reached
    if patTotal x.pat ≤ p ∨ 32 ≤ x.out.length then .on s x
    else match visit x.pat x.lay x.off p with
    | .fault va sub => .stop s x 0x1D va sub p
    | .none =>
      let x1 := if usesAperture x.pat ∨ patKh x.pat ≠ 0 then x else { x with plain := [] }
      (match x1.element s 0 0 0 with
      | .on s1 x2 => if x2.out.length = x.out.length then s1.readElements x2 fresh fuel else .on s1 x2
      | other => other)
    | .at va =>
      let known := (look none x.plain (vline va)).isSome
      if !known && !fresh then .on s x
      else
        let first := (portSlot x.port).isSome && x.gpa.isNone
        let x0 := if first then s.noteGpa x va else x
        (match s.bindLine x0 va true with
        | (s1, x1, .data d) =>
          (match x1.element s1 va (transform x.pat x.lay (pickElement d va (elementSize x.lay)))
              (if patKh x.pat = 0 then 0 else elementSize x.lay) with
          | .on s2 x2 => if x2.out.length = x.out.length then s2.readElements x2 (fresh && known) fuel else .on s2 x2
          | other => other)
        | (s1, x1, .wait) => .on s1 x1
        | (s1, x1, .bad kind val) => .stop s1 x1 kind (if kind = 0x1A ∨ kind = 0x1B then val else va) 0 p)

/-- R192: the next line of an indexed tile, or its index entry. -/
def State.readTile (s : State) (x : Binding) : Turned :=
  if patTotal x.pat ≤ x.pos then .on s x
  else match x.tile with
  | none =>
    let kt := coordinate x.pat x.pos 1
    let nt := coordinate x.pat x.pos 0
    let va := x.weight.index + BitVec.ofInt 64 (8 * (kt * x.weight.across + nt))
    (match s.bindLine x va false with
    | (s1, x1, .data d) =>
      let e : W64 := d.extractLsb' (8 * (va.toNat % 64)) 64
      let len := (e.extractLsb' 32 9).toNat
      if e.extractLsb' 44 20 ≠ 0 ∨ len < 2 ∨ 256 < len then .stop s1 x1 0x1D va 5 x.pos
      else .on s1 { x1 with tile := some (x.weight.tiles + 32 * (e.setWidth 32 : BitVec 32).setWidth 64, 32 * len) }
    | (s1, x1, .wait) => .on s1 x1
    | (s1, x1, .bad kind val) => .stop s1 x1 kind val 0 x.pos)
  | some (va, left) =>
    let x0 := if x.gpa.isNone then s.noteGpa x va else x
    (match s.bindLine x0 va true with
    | (s1, x1, .data d) =>
      let n := Nat.min left (64 - va.toNat % 64)
      (match x1.append (pickElement d va n) (8 * n) with
      | none => .stop s1 x1 0x1D va 4 x.pos
      | some y =>
        let y1 := { y with got := y.got + if patKh x.pat = 0 then 0 else n }
        if left = n then .on s1 { y1 with tile := none, pos := y.pos + 1 }
        else .on s1 { y1 with tile := some (va + BitVec.ofNat 64 n, left - n) })
    | (s1, x1, .wait) => .on s1 x1
    | (s1, x1, .bad kind val) => .stop s1 x1 kind val 0 x.pos)

/-! ### Tokens into a port (R263 to R266) -/

/-- R56: whether a row of a core's active bank is a restart point. -/
def State.hasRestartPoint (s : State) (c : Nat) : Bool :=
  (List.range 32).any fun n =>
    let row := 32 * (if (s.core c).bank then 1 else 0) + n
    (look {} (s.ve c).rows row : Row).rstpt || (look {} (s.mn c).rows row : Row).rstpt

/-- R265: whether an end-of-round marker of a port's round is held back by the island the port feeds. -/
def State.roundHeld (s : State) (x : Binding) (core : Nat) : Bool :=
  patRlv x.pat != 0 &&
  match s.islandOf core with
  | none => false
  | some k =>
    let i := s.island k
    let r := if i.rval then i.rstRnd else 255
    let ahead := ((s.port x.port).rnd + 1 - (r + 2)).toNat
    (islandCores k i).any s.hasRestartPoint && decide (0 < ahead) && decide (ahead < 128)

/-- R264: an end-of-round marker records a restart position and advances the round. -/
def Port.closeRound (p : Port) (pos : Nat) : Port :=
  { p with rnd := p.rnd + 1, older := p.newest, newest := some (pos, p.rnd) }

/-- Sends what a read binding has packed while the port's FIFO has room and no marker is held. -/
def State.feed (s : State) (x : Binding) : Nat → State × Binding
  | 0 => (s, x)
  | fuel + 1 =>
    match x.out with
    | [] => (s, x)
    | t :: rest =>
      let (core, dir) := portCore x.port
      let k := 4 * core + dir
      let last := isMarker t.tok && markerKind t.tok == 1
      if last && s.roundHeld x core then (s, x)
      else
        -- R361: a token towards another partition's core is dropped at the fence
        let mine := s.coreOwner core == x.part
        if mine && decide (32 ≤ (s.fifo k).length + (look [] s.transit k).length) then (s, x)
        else
          let p := s.port x.port
          let s1 := if mine then s.setFifo k (s.fifo k ++ [{ t.tok with rnd := p.rnd }]) else s
          let s2 := s1.setPort x.port (if last then p.closeRound t.pos else p)
          (s2.meter (patKh x.pat) t.bytes 0 0).feed { x with out := rest, pos := t.pos } fuel

/-! ### Writes (R263, R268, R350) -/

/-- The run in progress joins the line writes. -/
def Binding.flushRun (x : Binding) : Binding :=
  match x.run with
  | some r => { x with run := none, writes := x.writes ++ [r] }
  | none => x

/-- R350: encrypts the unit in progress whole, with zeros in what the binding has not visited; its lines are written, then its tag. -/
def State.flushUnit (s : State) (x : Binding) : Binding :=
  match x.unitNo, s.handle (patKh x.pat) with
  | some u, some h =>
    let clear := (List.range 64).flatMap fun k => bytesOf ((look none x.clear (64 * u + k)).getD 0) 64
    let iv := unitIv h (patIvlo x.pat) u
    let cipher := Config.sm4Gcm h.key iv clear
    let base := h.wbase + BitVec.ofNat 64 (4096 * u)
    let lines := (List.range 64).map fun k =>
      ({ va := base + BitVec.ofNat 64 (64 * k), data := ofBytes 512 ((cipher.drop (64 * k)).take 64), mask := BitVec.allOnes 64,
         pos := x.pos, sealed := true } : LineOut)
    let tva := h.wtag + BitVec.ofNat 64 (16 * u)
    let off := tva.toNat % 64
    let tag : LineOut := { va := lineStart tva, data := (Config.sm4Tag h.key iv cipher []).setWidth 512 <<< (8 * off),
                           mask := 0xFFFF#64 <<< off, pos := x.pos }
    { x with unitNo := none, writes := x.writes ++ lines ++ [tag] }
  | _, _ => x

/-- R263, R350: what a write binding has gathered leaves: its run, or its cipher unit. -/
def State.flushAll (s : State) (x : Binding) : Binding := s.flushUnit x.flushRun

/-- R263, R300, R482: a write binding has its last element; a unit whose handle has been deleted stops it. -/
def State.endWrite (s : State) (x : Binding) : Turned :=
  if x.unitNo.isSome && (s.handle (patKh x.pat)).isNone then .stop s x 0x1B ((patKh x.pat).setWidth 64) 0 x.pos
  else .on s { s.flushAll x with ended := true }

/-- The line of the element after `p`, when it is visited and has one. -/
def Binding.lineAfter (x : Binding) (p : Nat) : Option Nat :=
  if p + 1 < patTotal x.pat then
    match visit x.pat x.lay x.off (p + 1) with
    | .at va => some (vline va)
    | _ => none
  else none

/-- Adds the bytes of an element to a line's. -/
def addBytes (d : BitVec 512) (off n v : Nat) : BitVec 512 := setBytes d off n v

/-- R263: an element of `es` bytes joins the run of its line, or begins one; the run ends with the last consecutive element of it. -/
def Binding.putRun (x : Binding) (va : W64) (es v p : Nat) : Binding :=
  let here := match x.run with
    | some r => if r.va = lineStart va then x else x.flushRun
    | none => x
  let r : LineOut := here.run.getD { va := lineStart va, data := 0, mask := 0, pos := p }
  let off := va.toNat % 64
  let r1 := { r with data := addBytes r.data off es v, mask := r.mask ||| (BitVec.ofNat 64 (2 ^ es - 1) <<< off) }
  let y := { here with run := some r1 }
  if x.lineAfter p = some (vline va) then y else y.flushRun

/-- R350: an element joins its cipher unit; another unit in progress is encrypted first. -/
def State.putUnit (s : State) (x : Binding) (h : KeyRec) (va : W64) (es v : Nat) : Binding :=
  let o := va.toNat - h.wbase.toNat
  let x1 := if x.unitNo = some (o / 4096) then x else s.flushUnit x
  { x1 with unitNo := some (o / 4096), clear := put none x1.clear (o / 64) (some (addBytes ((look none x1.clear (o / 64)).getD 0) (o % 64) es v)) }

/-- R263: unpacks `n` elements of a token from lane `j` on. -/
def State.unpack (s : State) (x : Binding) (data : BitVec 512) (j : Nat) : Nat → Turned
  | 0 => .on s x
  | n + 1 =>
    let es := elementSize x.lay
    let p := x.pos
    let v := (data.extractLsb' (8 * es * j) (8 * es)).toNat
    match visit x.pat x.lay x.off p with
    | .fault va sub => .stop s (s.flushAll x) 0x1D va sub p
    | .none => s.unpack { x.flushRun with pos := p + 1 } data (j + 1) n
    | .at va =>
      let kh := patKh x.pat
      if kh = 0 then s.unpack { x.putRun va es v p with pos := p + 1 } data (j + 1) n
      else match s.handle kh with
      | none => .stop s x 0x1B (kh.setWidth 64) 0 p
      | some h =>
        if h.wbase.toNat ≤ va.toNat ∧ va.toNat < h.wbase.toNat + h.wlen.toNat then
          s.unpack { s.putUnit x h va es v with pos := p + 1 } data (j + 1) n
        else .stop s (s.flushAll x) 0x1B (kh.setWidth 64) 0 p

/-- Elements that the token at a position holds: up to a full token, the end of the inner run, or the last element. -/
def Binding.tokenSpan (x : Binding) : Nat :=
  Nat.min (Nat.min (512 / (8 * elementSize x.lay)) (innerRun x.pat - x.pos % innerRun x.pat)) (patTotal x.pat - x.pos)

/-- The element address at a position, whatever the edge rule makes of it. -/
def Binding.rawAddr (x : Binding) (p : Nat) : W64 := elementAddr x.lay x.off (coordinate x.pat p)

/-- R263, R264, R266: a write binding takes the next token of its port. -/
def State.takeToken (s : State) (x : Binding) : Turned :=
  let p := s.port x.port
  match p.toks with
  | [] => .on s x
  | t :: rest =>
    if isMarker t then
      let p1 := { p with toks := rest }
      if markerKind t = 1 then .on (s.setPort x.port (p1.closeRound x.pos)) x
      else if markerKind t = 2 then (s.setPort x.port p1).endWrite x
      else .on (s.setPort x.port p1) x
    else
      let s1 := s.setPort x.port { p with toks := rest }
      if t.tag ≠ layTag x.lay then .stop s1 (s1.flushAll x) 0x1D (x.rawAddr x.pos) 3 x.pos
      else match s1.unpack x t.data 0 x.tokenSpan with
      | .on s2 y => if patTotal y.pat ≤ y.pos then s2.endWrite y else .on s2 y
      | other => other

/-- Performs the first line write of a binding. -/
def State.writeLine (s : State) (x : Binding) : Turned :=
  match x.writes with
  | [] => .on s x
  | w :: rest =>
    let done (s : State) (y : Binding) : Turned :=
      let y1 := match y.kind with
        | .copy _ _ _ _ => { y with pos := y.pos + 1 }
        | _ => y
      .on (if w.sealed then s.meter (patKh x.pat) 0 64 0 else s) { y1 with writes := rest }
    match x.ask, x.reply with
    | some _, none => .on s x
    | some _, some (_, f) =>
      let y := { x with ask := none, reply := none }
      (match f with
      | some kind => .stop s { y with writes := [] } kind w.va 0 w.pos
      | none => done s y)
    | none, _ =>
      match s.resolve (siUnit x.si) x.issuer w.va 64 { wr := true } with
      | .error kind => .stop s { x with writes := [] } kind w.va 0 w.pos
      | .ok t =>
        if s.bindWaits x w.va 64 t then .on s x
        else if t.chip ≠ s.chipId then
          if s.routed t.chip then
            let (s1, id) := s.sendRequest t.chip fun id => accessBody t x.part (.lineWrite w.mask w.data) w.va id
            .on s1 { x with ask := some id, askAt := some t }
          else .stop s { x with writes := [] } 0x06 w.va 0 w.pos
        else match s.atHome t x.issuer none w.va false (.lineWrite w.mask w.data) with
        | .answered s' a => (match a.fault with
          | some (kind, _) => .stop s' { x with writes := [] } kind w.va 0 w.pos
          | none => done s' x)
        | .staged s' => .on s' x
        | _ => .on s x

/-! ### A binding's turn -/

/-- R274: the next line of a copy is read, then written. -/
def State.copyTurn (s : State) (x : Binding) (dst src : W64) (lines : Nat) : Turned :=
  if lines ≤ x.pos ∨ x.cancelled then .on s x
  else
    let va := src + BitVec.ofNat 64 (64 * x.pos)
    match s.bindRead x va 64 true with
    | (s1, x1, .data d) =>
      .on s1 { x1 with writes := [{ va := dst + BitVec.ofNat 64 (64 * x.pos), data := d, mask := BitVec.allOnes 64, pos := x.pos }] }
    | (s1, x1, .wait) => .on s1 x1
    | (s1, x1, .bad kind val) => .stop s1 x1 kind val 0 x.pos

/-- A running stream binding does its next piece of work: a line write, a token from its port, or a line read. -/
def State.streamTurn (s : State) (x : Binding) : Turned :=
  if !x.writes.isEmpty then s.writeLine x
  else match x.broken with
  | some (kind, val, sub, pos) => .stop s { x with broken := none } kind val sub pos
  | none =>
    if x.write then (if x.ended then .on s x else s.takeToken x)
    else if patXf x.pat = 5 then s.readTile x
    else match s.readElements x true 130 with
    | .on s1 y => if (portSlot y.port).isSome then .on s1 y else .on (s1.feed y 64).1 (s1.feed y 64).2
    | .stop s1 y kind val sub pos => .stop (s1.feed y 64).1 (s1.feed y 64).2 kind val sub pos

/-- Stores what a turn left of a binding. Tokens before a fault are delivered first, and line writes before it are performed first
(R416, R446). -/
def State.finishTurn (b : Nat) (t : Turned) : State :=
  match t with
  | .on s x => s.setBinding b (some x)
  | .stop s x kind val sub pos =>
    if !x.out.isEmpty then s.setBinding b (some x)
    else if !x.writes.isEmpty then s.setBinding b (some { x with broken := some (kind, val, sub, pos), ended := true })
    else (s.setBinding b (some x)).stopBinding b kind val sub pos

end Sys2Proof.Machine
end

