-- ==== Sys2Proof/Machine/Collectives.lean ====
section
/-! DEFINITION. Collectives: the chain of link adders, of which a port has two, and the participants' streams (R275, R315, R383). -/

namespace Sys2Proof.Machine

def State.coll (s : State) (cid : BitVec 32) : Option Collective := look none s.streams.colls cid.toNat

def State.setColl (s : State) (cid : BitVec 32) (c : Option Collective) : State :=
  { s with streams := { s.streams with colls := put none s.streams.colls cid.toNat c } }

/-- R275 Table 6: the chip of a rank, and the chips of all ranks. -/
def orderChip (order : BitVec 224) (r : Nat) : Nat := (order.extractLsb' (14 * r + 2) 12).toNat

def orderDie (order : BitVec 224) (r : Nat) : Nat := (order.extractLsb' (14 * r) 2).toNat

def orderChips (order : BitVec 224) (nm1 : Nat) : List Nat := ((List.range (nm1 + 1)).map (orderChip order)).eraseDups

/-- R383: the port at which the stream of a collective enters the chip and die of a rank of this chip: that by which the chip before it is
reached (log 153), or an edge between dies, counted from 100; none for the first rank and where it changes neither. -/
def State.entryPort (s : State) (order : BitVec 224) (r : Nat) : Option Nat :=
  if r = 0 then none
  else if orderChip order (r - 1) ≠ orderChip order r then s.portTo (orderChip order (r - 1))
  else if orderDie order (r - 1) ≠ orderDie order r then some (100 + 4 * orderDie order (r - 1) + orderDie order r)
  else none

/-- The entry port of a collective's participant here. -/
def State.adderOf (s : State) (x : Binding) : Option Nat := match x.kind with
  | .collective _ rank order _ _ => s.entryPort order rank
  | _ => none

/-- R383: whether both link adders of the port where a participant's stream enters are taken by collectives that run. -/
def State.addersTaken (s : State) (x : Binding) : Bool := match s.adderOf x with
  | none => false
  | some p => decide (2 ≤ (s.streams.bindings.filter fun e => match e.2 with
    | some y => y.state == 2 && s.adderOf y == some p
    | none => false).length)

/-- Sends a packet to every other chip of a collective. -/
def State.tellChips (s : State) (order : BitVec 224) (nm1 : Nat) (b : Body) : State :=
  (orderChips order nm1).foldl (fun (t : State) c => if c = t.chipId then t else t.send c b) s

/-- R275: one step of a link adder. -/
def linkAdd (op : Nat) (x y : BitVec 32) : BitVec 32 :=
  BitVec.ofNat 32 (if op = 1 then minMaxCode .fp32 true x.toNat y.toNat else addCode .fp32 .rne x.toNat y.toNat)

/-- R275: combines element `e` along the chain as far as its inputs have come. -/
def State.combine (s : State) (cid : BitVec 32) (order : BitVec 224) (e : Nat) : State :=
  match s.coll cid with
  | none => s
  | some c0 => (List.range (c0.nm1 + 1)).foldl (fun (t : State) r =>
    match t.coll cid with
    | none => t
    | some c =>
      let input := look none c.inputs (16 * e + r)
      let before := if r = 0 then none else look none c.sums (16 * e + (r - 1))
      let sum : Option (BitVec 32) := match input, before with
        | some x, some y => some (linkAdd c.op y x)
        | some x, none => if r = 0 then some x else none
        | none, _ => none
      match look none c.sums (16 * e + r), sum with
      | none, some v =>
        let c1 := { c with sums := put none c.sums (16 * e + r) (some v) }
        if r = c.nm1 then
          (t.setColl cid (some { c1 with totals := put none c1.totals e (some v) })).tellChips order c.nm1 (.total cid e v)
        else
          let t1 := t.setColl cid (some c1)
          let next := orderChip order (r + 1)
          if next = t1.chipId then t1 else t1.send next (.partSum cid r c.nm1 c.op c.elems e v)
      | _, _ => t) s

/-- The ORDER that a local participant's descriptor gives. -/
def State.collOrder (s : State) (c : Collective) : Option (BitVec 224) :=
  c.joined.findSome? fun j => match s.binding j.2 with
    | some x => (match x.kind with
      | .collective _ _ order _ _ => some order
      | _ => none)
    | none => none

/-- R275: a disagreement stops every local participant. -/
def State.stopColl (s : State) (cid : BitVec 32) : State :=
  match s.coll cid with
  | none => s
  | some c => c.joined.foldl (fun (t : State) j =>
      let pos := match t.binding j.2 with
        | some x => x.pos
        | none => 0
      t.stopBinding j.2 0x1C (cid.setWidth 64) 0 pos) (s.setColl cid (some { c with mismatch := true }))

/-- R275: a disagreement found here or told by another chip: it stops the participants here, and those of every chip that a local descriptor
names are told once. -/
def State.breakColl (s : State) (cid : BitVec 32) : State :=
  match s.coll cid with
  | none => s
  | some c =>
    if c.mismatch then s
    else match s.collOrder c with
      | some order => (s.tellChips order c.nm1 (.mismatch cid)).stopColl cid
      | none => s.stopColl cid

/-- R275: a participant, or a partial sum from another chip, meets the collective's agreement: the collective as it stands, or none
when they differ. -/
def State.agree (s : State) (cid : BitVec 32) (nm1 op elems : Nat) : Option Collective :=
  match s.coll cid with
  | none => some { nm1 := nm1, op := op, elems := elems }
  | some c => if c.nm1 = nm1 ∧ c.op = op ∧ c.elems = elems ∧ !c.mismatch then some c else none

/-- The binding as its output stream has it. -/
def Binding.outward (x : Binding) (pat : BitVec 256) (lay : BitVec 384) : Binding := { x with pat := pat, lay := lay }

/-- R275: the next piece of a participant's work: a line write, an input element, or an output element. -/
def State.collTurn (s : State) (x : Binding) (cid : BitVec 32) (rank : Nat) (order : BitVec 224) (outPat : BitVec 256)
    (outLay : BitVec 384) : Turned :=
  if !x.writes.isEmpty then
    match s.writeLine (x.outward outPat outLay) with
    | .on s1 y => .on s1 (y.outward x.pat x.lay)
    | .stop s1 y kind val sub pos => .stop s1 (y.outward x.pat x.lay) kind val sub pos
  else match x.broken, s.coll cid with
  | some (kind, val, sub, pos), _ => .stop s { x with broken := none } kind val sub pos
  | none, none => .on s x
  | none, some c =>
    if x.filled < c.elems then
      let enter (s : State) (y : Binding) (v : Nat) : Turned :=
        match s.coll cid with
        | some d =>
          let s1 := s.setColl cid (some { d with inputs := put none d.inputs (16 * y.filled + rank) (some (BitVec.ofNat 32 v)) })
          .on (s1.combine cid order y.filled) { y with filled := y.filled + 1 }
        | none => .on s y
      match visit x.pat x.lay 0 x.filled with
      | .fault va sub => .stop s x 0x1D va sub x.filled
      | .none => enter s x 0
      | .at va => match s.bindLine x va true with
        | (s1, y, .data d) => enter (s1.meter (patKh x.pat) (elementSize x.lay) 0 0) y (transform x.pat x.lay (pickElement d va (elementSize x.lay)))
        | (s1, y, .wait) => .on s1 y
        | (s1, y, .bad kind val) => .stop s1 y kind (if kind = 0x1A ∨ kind = 0x1B then val else va) 0 x.filled
    else if x.ended then .on s x
    else match look none c.totals x.pos with
    | none => .on s x
    | some v =>
      let y := x.outward outPat outLay
      match s.unpack y (v.setWidth 512) 0 1 with
      | .on s1 z =>
        (match if c.elems ≤ z.pos then s1.endWrite z else .on s1 z with
        | .on s2 w => .on s2 (w.outward x.pat x.lay)
        | .stop s2 w kind val sub pos => .stop s2 (w.outward x.pat x.lay) kind val sub pos)
      | .stop s1 z kind val sub pos => .stop s1 (z.outward x.pat x.lay) kind val sub pos

/-- Notes a participant whose output writes have been performed. -/
def State.noteFinished (s : State) (b : Nat) : State :=
  match s.binding b with
  | some x => (match x.kind with
    | .collective cid rank order _ _ =>
      (match s.coll cid with
      | some c =>
        if x.ended && x.writes.isEmpty && x.broken.isNone && x.state == 2 && !c.finished.contains rank then
          (s.setColl cid (some { c with finished := c.finished ++ [rank] })).tellChips order c.nm1 (.finished cid rank)
        else s
      | none => s)
    | _ => s)
  | none => s

end Sys2Proof.Machine
end

