-- ==== Sys2Proof/Machine/StreamForms.lean ====
section
/-! DEFINITION. Stream instructions, opcodes 0xD0 to 0xD7, and the events of stream islands and slot fills (R75, R201, R260 to R275). -/

namespace Sys2Proof.Machine

/-- An operand fault of a sequencer's word (R259, R399 Table 2). -/
def State.badOperand (s : State) (n : Nat) (i : Instr) : State := s.seqFault n 0x05 ((wordOf i).setWidth 64)

/-! ### Records -/

/-- R259: the 16-byte pieces of a record as plain accesses; the first carries the alignment of the whole. -/
def readPieces (ea : W64) (align count : Nat) (got : List Answer) : Option Access :=
  if got.length < count then
    some { ea := ea + BitVec.ofNat 64 (16 * got.length), op := .load 16, align := if got.isEmpty then align else 16 }
  else none

/-- The record that the pieces make. -/
def joinPieces (w : Nat) (got : List Answer) : BitVec w :=
  got.foldr (fun a (x : BitVec w) => (x <<< 128) ||| (a.data.setWidth 128).setWidth w) 0

/-- Reads a record of `count` pieces and goes on with it. -/
def State.seqRecord (s : State) (n : Nat) (ea : W64) (align count w : Nat) (fin : BitVec w → State → State) : State :=
  s.seqScript n fun got => match readPieces ea align count got with
    | some x => .inl x
    | none => .inr (fin (joinPieces w got))

/-- PATW (R270). -/
def execPatw (a : BitVec 4) (n : BitVec 5) (s : State) : Host.Outcome State Fault Refusal :=
  word (.patw a n) always
    (fun k s => s.seqRecord k ((s.seq k).get a) 32 2 256 fun r s =>
      if patClean r then s.seqNext k { s.seq k with patterns := put 0 (s.seq k).patterns n.toNat r }
      else s.badOperand k (.patw a n))
    noBody noBody s

/-- PATR (R270). -/
def execPatr (a : BitVec 4) (n : BitVec 5) (s : State) : Host.Outcome State Fault Refusal :=
  word (.patr a n) always
    (fun k s =>
      let ea := (s.seq k).get a
      let r := look 0 (s.seq k).patterns n.toNat
      s.seqScript k fun got => match got.length with
        | 0 => .inl { ea := ea, op := .store 16 ((r.setWidth 128).setWidth 512), align := 32, noPark := true }
        | 1 => .inl { ea := ea + 16, op := .store 16 ((r.extractLsb' 128 128).setWidth 512), align := 16, noPark := true }
        | _ => .inr fun s => s.seqNext k (s.seq k))
    noBody noBody s

/-- LAYW (R270). -/
def execLayw (a n : BitVec 4) (s : State) : Host.Outcome State Fault Refusal :=
  word (.layw a n) always
    (fun k s => s.seqRecord k ((s.seq k).get a) 16 3 384 fun r s =>
      if layClean r then s.seqNext k { s.seq k with layouts := put 0 (s.seq k).layouts n.toNat r }
      else s.badOperand k (.layw a n))
    noBody noBody s

/-! ### SGO (R266, R271) -/

/-- R266 Table 5: the port that a descriptor names, when it is well formed. -/
def portOf (cluster : Nat) (g : W64) : Option Nat :=
  let kind := (g.extractLsb' 20 4).toNat
  let si := (g.extractLsb' 16 4).toNat
  let core := (g.extractLsb' 8 7).toNat
  let port := (g.setWidth 5 : BitVec 5).toNat
  if g.extractLsb' 24 40 ≠ 0 ∨ g.getLsbD 15 ∨ g.extractLsb' 5 3 ≠ 0 ∨ 12 ≤ si ∨ 16 ≤ cluster then none
  else match kind with
  | 0 => if core = 0 ∧ port < 2 then some (fabricPort cluster si port) else none
  | 1 => if core < 96 ∧ port < 4 then some (vectorPort (96 * cluster + core) port) else none
  | 2 => if core < 96 then some (slotPort (96 * cluster + core) port) else none
  | _ => none

/-- R265 Table 4: whether a transform suits a direction, a port, a source tag and an output tag. -/
def transformOk (p : BitVec 256) (l : BitVec 384) (write slot : Bool) : Bool :=
  let tag := (layTag l).toNat
  let fmt := (patXfmt p).toNat
  match patXf p with
  | 0 => fmt == 0 && patScale p == 0
  | 1 => !write && fmt == 0 && patScale p == 0
  | 2 => !write && (tag == 3 || tag == 4 || tag == 5 || tag == 6) && (fmt == 1 || fmt == 2)
  | 3 => !write && (tag == 3 || tag == 4 || tag == 6) && (fmt == 3 || fmt == 4 || fmt == 6)
  | 4 => !write && decide (fmt ≤ 6) && patScale p == 0
  | 5 => !write && slot && fmt == 0 && patScale p == 0
  | _ => false

/-- The values of a pattern and a layout that a stream takes (R7, R261). -/
def recordsOk (p : BitVec 256) (l : BitVec 384) : Bool :=
  decide (patRlv p ≤ 4) && decide (patEdge p ≤ 2) && layTag l != 7 &&
  (if layWref l then (List.range 4).all (fun k => layStride l k == 0 && layDim l k == 0) && (layBase l).extractLsb' 4 60 == 0
   else (List.range 4).all fun k => layDim l k != 0)

/-- R266: a slot takes whole 32-byte units, 8192 bytes at most; a weight reference shows its length only as it is read. -/
def slotSizeOk (p : BitVec 256) (l : BitVec 384) : Bool :=
  patXf p == 5 || (decide (patTotal p * outBits p l % 256 = 0) && decide (patTotal p * outBits p l ≤ 65536))

/-- R271: the static checks of a stream binding. -/
def State.sgoOk (s : State) (n : Nat) (p : BitVec 256) (l : BitVec 384) (port : Option Nat) (si : Nat) (write res : Bool) (pos : Nat) : Bool :=
  let q := s.seq n
  match port with
  | none => false
  | some k =>
    let slot := (portSlot k).isSome
    let refs := match q.region with
      | some r => (s.region r).weights.length
      | none => 0
    look 0 s.brass.siOf si == q.part && recordsOk p l && transformOk p l write slot && (patXf p == 5) == layWref l &&
    !(slot && write) && (!slot || slotSizeOk p l) && !(patKh p != 0 && patIvlo p == 0xFFFFFFFF) &&
    (patXf p != 5 || decide ((layBase l).toNat < refs)) &&
    (!res || (decide (pos < patTotal p) && decide (pos % innerRun p = 0)))

/-- Binds a token of a sequencer to a new binding, and drops the finished ones made under it before. -/
def State.bind (s : State) (x : Binding) : State :=
  let b := s.streams.next
  let q := s.seq x.seq
  let old := s.streams.bindings.filter fun e => match e.2 with
    | some y => !(y.seq == x.seq && y.tok == x.tok && !y.refetch && !y.loose)
    | none => true
  let s1 := { s with streams := { s.streams with bindings := put none old b (some { x with made := b }), next := b + 1 } }
  s1.setSeq x.seq { q with tokens := q.tokens ||| (1#8 <<< x.tok.toNat) }

/-- R260: whether a token is busy. -/
def Seq.busy (q : Seq) (t : BitVec 3) : Bool := q.tokens.getLsbD t.toNat

/-- Queues a new binding at its port. -/
def State.bindAt (s : State) (x : Binding) : State :=
  let b := s.streams.next
  let s1 := s.bind x
  let p := s1.port x.port
  s1.setPort x.port { p with queue := p.queue ++ [b], used := p.used || (!x.write && (portSlot x.port).isNone && decide (x.port < 100000)) }

/-- SGO (R271): checks statically (without RES, d must be 0), then waits for its token and for room at the port. -/
def execSgo (a b d : BitVec 4) (n : BitVec 5) (r i : Bool) (t : BitVec 3) (s : State) : Host.Outcome State Fault Refusal :=
  word (.sgo a b d n r i t) always
    (fun k s =>
      let q := s.seq k
      let p := look 0 q.patterns n.toNat
      let l := look 0 q.layouts (patLay p)
      let g := q.get a
      let port := portOf (k / 2) g
      let si := 12 * (k / 2) + (g.extractLsb' 16 4).toNat
      let pos := if r then (q.get d).toNat else 0
      if !((r || d == 0) && s.sgoOk k p l port si i r pos) then s.badOperand k (.sgo a b d n r i t)
      else match port with
      | none => s
      | some key =>
        if q.busy t || decide (4 ≤ (s.port key).queue.length) then s.begin k
        else
          let w := match q.region with
            | some rg => ((s.region rg).weights[(layBase l).toNat]?).getD { index := 0, tiles := 0, across := 0 }
            | none => { index := 0, tiles := 0, across := 0 }
          let x : Binding := { kind := .stream, seq := k, tok := t, port := key, write := i, pat := p, lay := l, off := q.get b,
                               asid := q.asid, part := q.part, si := si, region := q.region, user := !q.super, weight := w,
                               start := pos, pos := pos }
          let s1 := s.bindAt x
          s1.seqNext k (s1.seq k))
    noBody noBody s

/-! ### SCNL, SPOS -/

/-- The binding last made under a token. -/
def State.bindingOf (s : State) (n : Nat) (t : BitVec 3) : Option (Nat × Binding) :=
  s.streams.bindings.findSome? fun e => match e.2 with
    | some x => if x.seq = n ∧ x.tok = t ∧ !x.refetch ∧ !x.loose then some (e.1, x) else none
    | none => none

/-- R75: a fill that its binding gives up is no longer pending. -/
def State.dropFill (s : State) (b port : Nat) : State :=
  match portSlot port with
  | none => s
  | some (c, n) =>
    let x := (s.mn c).slot n
    if x.fill = some b then s.setMn c ((s.mn c).setSlot n { x with fill := none, pend := false })
    else if x.refill = some b then s.setMn c ((s.mn c).setSlot n { x with refill := none })
    else s

/-- R272, R275: a participant leaves a collective that a disagreement has stopped; the last one takes it away. -/
def State.leaveColl (s : State) (b : Nat) (k : BindKind) : State :=
  match k with
  | .collective cid _ _ _ _ => (match s.coll cid with
    | some c =>
      let l := c.joined.filter (·.2 != b)
      if c.mismatch then s.setColl cid (if l.isEmpty then none else some { c with joined := l }) else s
    | none => s)
  | _ => s

/-- R272: one binding stops: a queued one is removed, a read ends at once, a write once its line writes are done. -/
def State.cancelBinding (s : State) (b : Nat) (x : Binding) : State :=
  let y := match x.kind with
    | .stream => if x.write then s.flushAll x else x
    | _ => x.flushRun
  if x.state = 2 ∧ !y.writes.isEmpty then s.setBinding b (some { y with cancelled := true, ended := true, out := [], tile := none })
  else (((s.setBinding b (some { x with state := 4, out := [], writes := [], run := none, ask := none, reply := none })).leavePort b
      x.port).dropFill b x.port).leaveColl b x.kind |>.freeToken x.seq x.tok

/-- R289: SCNL of a DRAIN's token cancels the arming and releases the islands already held. -/
def State.cancelDrain (s : State) (n : Nat) (t : BitVec 3) : State :=
  s.regions.foldl (fun (u : State) e => match e.2.drain with
    | some a =>
      if a.seq = n ∧ a.tok = t then
        let u1 := a.isls.foldl (fun (v : State) k =>
          let i := v.island k
          v.setIsland k { i with armed := false, drainSeen := [], hold := if i.hold = some .drain then none else i.hold }) u
        (u1.setRegion e.1 { u1.region e.1 with drain := none }).freeToken n t
      else u
    | none => u) s

/-- R272: cancels the work of one token. -/
def State.cancelToken (s : State) (n : Nat) (t : BitVec 3) : State :=
  if (s.seq n).busy t then
    match s.bindingOf n t with
    | some (b, x) => if x.state = 1 ∨ x.state = 2 ∨ x.state = 3 then s.cancelBinding b x else s.cancelDrain n t
    | none => s.cancelDrain n t
  else s

/-- SCNL (R272). -/
def execScnl (m : BitVec 8) (s : State) : Host.Outcome State Fault Refusal :=
  word (.scnl m) always
    (fun n s =>
      let s1 := (List.range 8).foldl (fun (u : State) t => if m.getLsbD t then u.cancelToken n (BitVec.ofNat 3 t) else u) s
      s1.seqNext n (s1.seq n))
    noBody noBody s

/-- R273: what SPOS reports. -/
def State.sposValue (s : State) (n : Nat) (sel : BitVec 2) (t : BitVec 3) : W64 :=
  match s.bindingOf n t with
  | none => 0
  | some (_, x) =>
    let p := match x.kind with
      | .stream => s.port x.port
      | _ => {}
    let (pos, rnd) : Nat × BitVec 8 := match sel.toNat with
      | 0 => (x.pos, p.rnd)
      | 1 => p.newest.getD (0, 0)
      | _ => p.older.getD (0, 0)
    x.state ++ (0#5 ++ (rnd ++ BitVec.ofNat 48 pos))

/-- SPOS (R273). -/
def execSpos (d : BitVec 4) (sel : BitVec 2) (t : BitVec 3) (s : State) : Host.Outcome State Fault Refusal :=
  word (.spos d sel t) always (fun n s => s.seqNext n ((s.seq n).set d (s.sposValue n sel t))) noBody noBody s

/-! ### COLL, RCPY -/

/-- R275: the checks of a collective descriptor; `die` and `chip` are the participant's own. -/
def State.collOk (s : State) (n : Nat) (x : BitVec 512) : Bool :=
  let q := s.seq n
  let nm1 := (x.extractLsb' 24 4).toNat
  let rank := (x.extractLsb' 28 4).toNat
  let elems := (x.extractLsb' 32 32).toNat
  let order : BitVec 224 := x.extractLsb' 256 224
  let inp := look 0 q.patterns (x.extractLsb' 16 5).toNat
  let outp := look 0 q.patterns (x.extractLsb' 8 5).toNat
  let inl := look 0 q.layouts (patLay inp)
  let outl := look 0 q.layouts (patLay outp)
  let si := (x.extractLsb' 0 4).toNat
  x.extractLsb' 64 192 == 0 && !x.getLsbD 21 && x.extractLsb' 13 3 == 0 && x.extractLsb' 4 4 == 0 &&
  decide ((x.extractLsb' 22 2).toNat ≤ 1) && decide (1 ≤ nm1) && decide (rank ≤ nm1) && decide (elems ≠ 0) &&
  (List.range 16).all (fun r => decide (r ≤ nm1) || order.extractLsb' (14 * r) 14 == 0) &&
  orderChip order rank == s.chipId && orderDie order rank == n / 8 && layTag inl == 1 && layTag outl == 1 &&
  recordsOk inp inl && recordsOk outp outl && transformOk inp inl false false && transformOk outp outl true false &&
  !layWref inl && !layWref outl && decide (patTotal inp = elems) && decide (patTotal outp = elems) &&
  decide (si < 12) && decide (n < 32) && look 0 s.brass.siOf (12 * (n / 2) + si) == q.part

/-- R275: a participant joins; one that disagrees stops all of them. -/
def State.joinColl (s : State) (n : Nat) (t : BitVec 3) (x : BitVec 512) : State :=
  let q := s.seq n
  let cid : BitVec 32 := x.extractLsb' 480 32
  let nm1 := (x.extractLsb' 24 4).toNat
  let op := (x.extractLsb' 22 2).toNat
  let elems := (x.extractLsb' 32 32).toNat
  let rank := (x.extractLsb' 28 4).toNat
  let order : BitVec 224 := x.extractLsb' 256 224
  let inp := look 0 q.patterns (x.extractLsb' 16 5).toNat
  let outp := look 0 q.patterns (x.extractLsb' 8 5).toNat
  let si := 12 * (n / 2) + (x.extractLsb' 0 4).toNat
  let b := s.streams.next
  let y : Binding := { kind := .collective cid rank order outp (look 0 q.layouts (patLay outp)), seq := n, tok := t,
                       port := islandPort (n / 2) (si % 12), write := false, pat := inp, lay := look 0 q.layouts (patLay inp), off := 0,
                       asid := q.asid, part := q.part, si := si, region := q.region, user := !q.super }
  let s1 := s.bindAt y
  match s1.agree cid nm1 op elems with
  | some c => s1.setColl cid (some { c with joined := c.joined ++ [(rank, b)] })
  | none =>
    match s1.coll cid with
    | some c => ((s1.setColl cid (some { c with joined := c.joined ++ [(rank, b)] })).tellChips order nm1 (.mismatch cid)).stopColl cid
    | none => s1

/-- COLL (R275): reads its descriptor, one aligned line, and joins. -/
def execColl (a : BitVec 4) (t : BitVec 3) (s : State) : Host.Outcome State Fault Refusal :=
  word (.coll a t) always
    (fun n s => s.seqRecord n ((s.seq n).get a) 64 4 512 fun x s =>
      if !s.collOk n x then s.badOperand n (.coll a t)
      else if (s.seq n).busy t ∨ 4 ≤ (s.port (islandPort (n / 2) (x.extractLsb' 0 4).toNat)).queue.length then s.begin n
      else let s1 := s.joinColl n t x; s1.seqNext n (s1.seq n))
    noBody noBody s

/-- R274: a stream island of the sequencer's cluster and partition. -/
def State.copyIsland (s : State) (n : Nat) : Option Nat :=
  if n < 32 then ((List.range 12).map fun k => 12 * (n / 2) + k).find? fun si => look 0 s.brass.siOf si == (s.seq n).part else none

/-- RCPY (R274): with .rel it waits for the earlier accesses of the sequencer, and binds its token. -/
def execRcpy (a b d : BitVec 4) (o : BitVec 2) (sc t : BitVec 3) (s : State) : Host.Outcome State Fault Refusal :=
  word (.rcpy a b d o sc t) always
    (fun n s =>
      let q := s.seq n
      let dst := q.get a
      let src := q.get b
      let len := (q.get d).toNat
      let meets := decide (dst.toNat < src.toNat + len) && decide (src.toNat < dst.toNat + len)
      if len % 64 ≠ 0 ∨ len < 64 ∨ 2 ^ 40 < len ∨ meets then s.badOperand n (.rcpy a b d o sc t)
      else if dst.toNat % 64 ≠ 0 then s.seqFault n 0x07 dst
      else if src.toNat % 64 ≠ 0 then s.seqFault n 0x07 src
      else match s.copyIsland n with
      | none => s.badOperand n (.rcpy a b d o sc t)
      | some si =>
        if q.busy t then s.begin n
        else s.seqRelease n o sc fun s =>
          let x : Binding := { kind := .copy dst src (len / 64) (o.getLsbD 0), seq := n, tok := t, port := islandPort (si / 12) (si % 12),
                               write := false, pat := 0, lay := 0, off := 0, asid := q.asid, part := q.part, si := si, region := q.region,
                               user := !q.super, state := 2, began := true }
          let s1 := s.bind x
          s1.seqNext n (s1.seq n))
    noBody noBody s

/-! ### Events of stream islands -/

/-- R408: whether Brass has stopped the bindings of a binding's stage, which is to be restarted; a refetch goes on (R76). -/
def State.stageStopped (s : State) (x : Binding) : Bool :=
  !x.refetch && ((x.region.bind fun k => (s.region k).owner).bind fun o => (look none s.brass.tasks o.1).bind fun t => t.stages[o.2]?).any (·.moving)

/-- HOME_ACCESS (R230, R263, R274, R275): a request in flight reaches its home, or a binding does its next access. -/
def execHomeAccess (pick : Pick) (s : State) : Host.Outcome State Fault Refusal :=
  .next <| match pick with
  | .request k => s.homeRequest k
  | .binding b =>
    (match s.binding b with
    | some x =>
      if x.state ≠ 2 ∨ (s.stageStopped x ∧ x.writes.isEmpty) then s
      else match x.kind with
      | .stream => State.finishTurn b (s.streamTurn x)
      | .collective cid rank order p l => (State.finishTurn b (s.collTurn x cid rank order p l)).noteFinished b
      | .copy _ _ _ _ => s
    | none => s)
  | .copy b =>
    (match s.binding b with
    | some x => (match x.kind with
      | .copy dst src lines _ =>
        if x.state ≠ 2 ∨ (s.stageStopped x ∧ x.writes.isEmpty) then s
        else State.finishTurn b (if x.writes.isEmpty then s.copyTurn x dst src lines else s.writeLine x)
      | _ => s)
    | none => s)

/-- R262: the offsets that loop `k` adds to the address, over its iterations that visit an element. -/
def loopOffsets (p : BitVec 256) (l : BitVec 384) (k : Nat) : List Int :=
  (List.range (patCount p k)).filterMap fun (j : Nat) =>
    let c := patOrigin p k + (j : Int) * patStep p k
    if 0 ≤ c ∧ c < layDim l k then some (c * layStride l k)
    else if 3 ≤ patEdge p ∨ patEdge p = 1 then some (mirrorCoord c (layDim l k) (layMrep l) * layStride l k)
    else none

/-- R351: whether every byte that a pattern visits lies in a range. -/
def visitsWithin (p : BitVec 256) (l : BitVec 384) (off base len : W64) : Bool :=
  let offs := (List.range 4).map (loopOffsets p l)
  let least := (offs.map fun o => o.foldl min (o.headD 0)).foldl (· + ·) (0 : Int)
  let most := (offs.map fun o => o.foldl max (o.headD 0)).foldl (· + ·) (0 : Int)
  let a : Int := (layBase l + off).toNat
  offs.any (·.isEmpty) || (decide ((base.toNat : Int) ≤ a + least) && decide (a + most + elementSize l ≤ base.toNat + len.toNat))

/-- R350, R351: whether a binding's handle lets it start. -/
def State.handleLets (s : State) (x : Binding) (p : BitVec 256) (l : BitVec 384) (write : Bool) : Bool :=
  if patKh p = 0 then true
  else match s.handle (patKh p) with
  | none => false
  | some h =>
    h.part == x.part && h.asid == x.asid && (h.expire == 0 || decide (s.mgmt.podTime.toNat < h.expire.toNat)) &&
    (write || h.rdlim == 0 || decide (h.rdb.toNat < h.rdlim.toNat)) &&
    (!write || decide (h.lastIv.toNat < (patIvlo p).toNat)) &&
    (h.type != 1 || (!write && x.user && (match portSlot x.port, x.region with
      | some (c, _), some r => s.listed h (s.region r).meas && s.regionOf c == some r
      | _, _ => false))) &&
    (h.type != 2 || patXf p == 5 || (if write then visitsWithin p l x.off h.wbase h.wlen else visitsWithin p l x.off h.rbase h.rlen))

/-- R350: a write binding that starts sets LASTIV. -/
def State.useIv (s : State) (p : BitVec 256) : State :=
  match s.handle (patKh p) with
  | some h => s.setHandle (patKh p) (some { h with lastIv := patIvlo p })
  | none => s

/-- R266: whether a vector port lies where its stream needs it: on its island's boundary. What goes to a core of another partition is dropped
at the fence (R361, log 115). -/
def State.vectorFault (s : State) (x : Binding) : Option (BitVec 8 × BitVec 8) :=
  if 1000 ≤ x.port ∧ x.port < 10000 then
    let (c, d) := portCore x.port
    if s.coreOwner c ≠ x.part then none
    else if (s.islandOf c).isNone then some (0x1D, 4)
    else match neighbour c d with
    | some m => if s.islandOf m = s.islandOf c then some (0x1D, 4) else none
    | none => none
  else none

/-- The pattern and layout that a binding writes under, if it writes. -/
def Binding.writesUnder (x : Binding) : Option (BitVec 256 × BitVec 384) :=
  match x.kind with
  | .stream => if x.write then some (x.pat, x.lay) else none
  | .copy _ _ _ _ => none
  | .collective _ _ _ p l => some (p, l)

/-- BINDING_START (R271, R350, R351, R383): the oldest queued binding starts when its port, and for a collective a link adder, is free; a
handle or a port that refuses it stops it. -/
def execBindingStart (port : Nat) (s : State) : Host.Outcome State Fault Refusal :=
  .next <| match (s.port port).queue with
  | [] => s
  | b :: _ => match s.binding b with
    | none => s.leavePort b port
    | some x =>
      if x.state ≠ 1 ∨ s.stageStopped x ∨ s.addersTaken x then s
      else
        let ok := x.began || ((x.write || s.handleLets x x.pat x.lay false) && (match x.writesUnder with
          | some (p, l) => s.handleLets x p l true
          | none => true))
        if !ok then s.stopBinding b 0x1B ((patKh ((x.writesUnder.map (·.1)).getD x.pat)).setWidth 64) 0 x.pos
        else match s.vectorFault x with
        | some (kind, sub) => s.stopBinding b kind (x.rawAddr x.pos) sub x.pos
        | none =>
          let s1 := match x.writesUnder with
            | some (p, _) => if x.began ∨ patKh p = 0 then s else s.useIv p
            | none => s
          s1.setBinding b (some { x with state := 2, began := true })

/-- R267, R272: whether a running binding has done all its work. -/
def State.bindingDone (s : State) (x : Binding) : Bool :=
  x.state == 2 && x.writes.isEmpty && x.run.isNone && x.broken.isNone && x.ask.isNone &&
  (x.cancelled || match x.kind with
    | .copy _ _ lines _ => decide (lines ≤ x.pos)
    | .collective _ _ _ _ _ => false
    | .stream =>
      if x.write then x.ended && x.unitNo.isNone
      else match portSlot x.port with
      | some _ => x.ended
      | none => x.out.isEmpty && decide (patTotal x.pat ≤ x.pos))

/-- Ends a binding and frees its token. -/
def State.endBinding (s : State) (b : Nat) (x : Binding) (state : BitVec 3) : State :=
  let s1 := ((s.setBinding b (some { x with state := state, plain := [], unit := [], clear := [], fill := 0 })).leavePort b x.port).dropFill b x.port
  if x.refetch || x.loose then s1 else s1.freeToken x.seq x.tok

/-- BINDING_COMPLETE (R267, R274). -/
def execBindingComplete (bind : Nat) (s : State) : Host.Outcome State Fault Refusal :=
  .next <| match s.binding bind with
  | some x => if s.bindingDone x then s.endBinding bind x (if x.cancelled then 4 else 0) else s
  | none => s

/-- STREAM_ROUND_HOLD_RELEASE (R265): a held marker, and the tokens behind it, leave once the fed island's RSTRND has advanced. -/
def execStreamRoundHoldRelease (bind : Nat) (s : State) : Host.Outcome State Fault Refusal :=
  .next <| match s.binding bind with
  | some x =>
    if x.state = 2 ∧ !x.write ∧ (portSlot x.port).isNone ∧ x.kind = .stream ∧ !s.stageStopped x then (s.feed x 64).1.setBinding bind (some (s.feed x 64).2)
    else s
  | none => s

/-- COLLECTIVE_COMPLETE (R275): every participant's output writes have been performed. -/
def execCollectiveComplete (cid : BitVec 32) (s : State) : Host.Outcome State Fault Refusal :=
  .next <| match s.coll cid with
  | none => s
  | some c =>
    if !c.mismatch ∧ (List.range (c.nm1 + 1)).all c.finished.contains then
      (c.joined.foldl (fun (t : State) j => match t.binding j.2 with
        | some x => if x.state = 2 then t.endBinding j.2 x 0 else t
        | none => t) s).setColl cid none
    else s

/-! ### Slot fills (R75, R76, R201) -/

/-- SLOT_FILL (R75, R201): a fill reaches its slot: it begins, or sets PEND while the slot is claimed or held. The bytes of one for another
partition's core are dropped at the fence (log 115). -/
def execSlotFill (bind : Nat) (s : State) : Host.Outcome State Fault Refusal :=
  .next <| match s.binding bind with
  | none => s
  | some x => match portSlot x.port with
    | none => s
    | some (c, n) =>
      let y := (s.mn c).slot n
      if x.state ≠ 2 ∨ (s.coreOwner c = x.part ∧ (y.fill.isSome ∨ y.pend ∨ y.refill.isSome)) then s
      else if s.coreOwner c ≠ x.part then
        (if x.tile.isNone ∧ patTotal x.pat ≤ x.pos then s.setBinding bind (some { x with ended := true }) else s)
      else if y.claims = 0 ∧ y.holds = 0 then
        s.setMn c ((s.mn c).setSlot n { y with state := 1, fill := some bind })
      else s.setMn c ((s.mn c).setSlot n { y with pend := true, fill := some bind })

/-- PENDING_FILL_START (R75, R201). -/
def execPendingFillStart (core slot : Nat) (s : State) : Host.Outcome State Fault Refusal :=
  let y := (s.mn core).slot slot
  .next (if y.pend ∧ y.claims = 0 ∧ y.holds = 0 ∧ y.refill.isNone then
      s.setMn core ((s.mn core).setSlot slot { y with state := 1, pend := false })
    else s)

/-- FILL_COMPLETE (R75, R76, R363): the last byte has come: the slot is ready. A fill that is pending beside a refetch stays pending. -/
def execFillComplete (core slot : Nat) (s : State) : Host.Outcome State Fault Refusal :=
  let y := (s.mn core).slot slot
  .next <| match y.refill.or y.fill with
  | none => s
  | some b => match s.binding b with
    | none => s
    | some x =>
      if x.state ≠ 2 ∨ y.state ≠ 1 ∨ x.tile.isSome ∨ x.pos < patTotal x.pat ∨ x.ended then s
      else if x.filled % 256 ≠ 0 then s.stopBinding b 0x1D (x.rawAddr x.pos) 4 x.pos
      else
        let mask : BitVec 65536 := BitVec.allOnes 65536 <<< x.filled
        let z : Slot := { y with state := 2, data := (y.data &&& mask) ||| (x.fill &&& ~~~mask), len := BitVec.ofNat 9 (x.filled / 256),
                                 gpa := x.gpa.getD 0, kh := patKh x.pat, mirror := x.allOo, refill := none,
                                 fill := if y.refill.isSome then y.fill else none, claiming := y.claiming && y.refill.isSome,
                                 fillRec := if x.allOo then some (x.pat, x.lay, x.off, x.weight) else none }
        ((s.setMn core ((s.mn core).setSlot slot z)).meter (patKh x.pat) x.got 0 1).setBinding b (some { x with ended := true })

end Sys2Proof.Machine
end

