-- ==== Sys2Proof/Machine/Image.lean ====
section
/-! DEFINITION. Configuration images: their records, the checks of a configuration load, and what it writes (R36, R138 to R144, R292). -/

namespace Sys2Proof.Machine

/-- R138: one record. The body is its content, without the padding. -/
structure ImgRec where
  type : Nat
  tgt : Nat
  alt : Nat
  body : List Byte
  deriving DecidableEq, Repr

/-- R139: an image as its records give it, and every byte of it (R144). -/
structure Image where
  rows : Nat
  cols : Nat
  count : Nat
  mask : BitVec 8
  cluster : Nat
  entry : Nat
  codeLen : Nat
  recs : List ImgRec := []
  bytes : List Byte := []
  deriving DecidableEq, Repr

/-- Byte `k` of a list, and the number that `n` bytes from `k` make. -/
def listByte (l : List Byte) (k : Nat) : Byte := (l[k]?).getD 0

def listNat (l : List Byte) (k n : Nat) : Nat := (ofBytes 512 ((l.drop k).take n)).toNat

/-- R139 Table 13: the body length of the types that have one fixed length. -/
def fixedLen (type : Nat) : Option Nat :=
  match type with
  | 0x01 => some 32
  | 0x02 => some 8
  | 0x03 => some 256
  | 0x04 => some 256
  | 0x05 => some 144
  | 0x08 => some 32
  | 0x09 => some 48
  | 0x0A => some 16
  | 0x0F => some 0
  | _ => none

/-- R138, R139, R141: whether a record's header suits its place: `codeLen` is the stage header's, none before it. -/
def headerOk (h : BitVec 128) (codeLen : Option Nat) : Bool :=
  let type := (h.setWidth 8 : BitVec 8).toNat
  let alt := (h.extractLsb' 24 8).toNat
  let len := (h.extractLsb' 32 32).toNat
  let pad := (h.extractLsb' 64 3).toNat
  h.extractLsb' 67 61 == 0 && decide (len % 8 = 0) && decide (alt = 0 ∨ alt = 1 ∨ alt = 2 ∨ alt = 4) &&
  (codeLen.isNone == (type == 1)) &&
  match fixedLen type with
  | some n => decide (len = n) && pad == 0
  | none => (type == 6 && decide (len = codeLen.getD 0 + pad)) || (type == 7 && decide (8 + pad ≤ len))

/-- R140: whether the reserved bits of a bank record's row contexts are clear. Every TAGS byte is accepted: bit 7 is ignored (R27 Table 1). -/
def bankOk : List Byte → Bool
  | _ :: _ :: _ :: _ :: _ :: rst :: z :: y :: l => rst.ult 2 && z == 0 && y == 0 && bankOk l
  | _ => true

/-- R139, R140: whether a body's reserved places are clear and its fields in range. -/
def bodyOk (type tgt : Nat) (b : List Byte) (rows cols : Nat) : Bool :=
  let zero (k n : Nat) : Bool := ((b.drop k).take n).all (· == 0)
  let place := decide (tgt / 256 < rows) && decide (tgt % 256 < cols)
  match type with
  | 0x01 =>
    decide (2 ≤ (listByte b 0).toNat) && decide ((listByte b 0).toNat ≤ 8) && decide (2 ≤ (listByte b 1).toNat) &&
    decide ((listByte b 1).toNat ≤ 12) && (listByte b 3).ult 8 && ((listByte b 4).ult 16 || listByte b 4 == 0xFF) && zero 5 3 &&
    decide (listNat b 12 4 % 4 = 0) && zero 16 16
  | 0x03 => place && bankOk b
  | 0x04 => place && bankOk b
  | 0x05 => place && (listByte b 64).ult 8 && (listByte b 136).ult 8 && zero 65 7 && zero 137 7
  | 0x08 => decide (tgt < 32) && patClean (ofBytes 256 b)
  | 0x09 => decide (tgt < 16) && layClean (ofBytes 384 b)
  | 0x0A => decide (tgt < 16) && (listByte b 0).ult 8 && zero 1 3 && zero 12 4
  | _ => true

/-- What the bytes read so far make. -/
inductive Parsed where
  /-- So many bytes are needed. -/
  | more (n : Nat)
  | bad
  | done (i : Image)
  deriving DecidableEq, Repr

/-- R138 to R141: reads records until the end record; `rest` begins at byte `pos`. -/
def parseFrom (all : List Byte) : Nat → Nat → List Byte → Option Image → Parsed
  | 0, pos, _, _ => .more (pos + 16)
  | fuel + 1, pos, rest, im =>
    if rest.length < 16 then .more (pos + 16)
    else
      let h : BitVec 128 := ofBytes 128 (rest.take 16)
      let type := (h.setWidth 8 : BitVec 8).toNat
      let tgt := (h.extractLsb' 8 16).toNat
      let alt := (h.extractLsb' 24 8).toNat
      let len := (h.extractLsb' 32 32).toNat
      let pad := (h.extractLsb' 64 3).toNat
      if !headerOk h (im.map (·.codeLen)) then .bad
      else if rest.length < 16 + len then .more (pos + 16 + len)
      else
        let body := (rest.drop 16).take (len - pad)
        let padding := (rest.drop (16 + len - pad)).take pad
        let i := im.getD { rows := (listByte body 0).toNat, cols := (listByte body 1).toNat, count := (listByte body 2).toNat,
                           mask := listByte body 3, cluster := (listByte body 4).toNat, entry := listNat body 8 4,
                           codeLen := listNat body 12 4 }
        if padding.any (· != 0) || !bodyOk type tgt body i.rows i.cols || i.recs.any (fun r => r.type == type && r.alt == alt && r.tgt == tgt) then .bad
        else if type = 0x0F then .done { i with bytes := all.take (pos + 16) }
        else
          let r : ImgRec := { type := type, tgt := tgt, alt := alt, body := body }
          parseFrom all fuel (pos + 16 + len) (rest.drop (16 + len)) (some { i with recs := i.recs ++ [r] })

def parseImage (bytes : List Byte) : Parsed := parseFrom bytes (bytes.length / 16 + 1) 0 bytes none

/-! ### What an alternative holds -/

/-- The record of a type and target for an alternative: its own, else the one for all of them. -/
def Image.pick (i : Image) (type alt tgt : Nat) : Option ImgRec :=
  (i.recs.find? fun r => r.type == type && r.alt == alt && r.tgt == tgt).or
    (i.recs.find? fun r => r.type == type && r.alt == 0 && r.tgt == tgt)

/-- R136: whether the header names an alternative, ×1, ×2 or ×4. -/
def Image.has (i : Image) (alt : Nat) : Bool := (alt == 1 && i.mask.getLsbD 0) || (alt == 2 && i.mask.getLsbD 1) || (alt == 4 && i.mask.getLsbD 2)

/-- R294: the shape that an alternative takes: ×2 the west half of the columns, ×4 also the north half of the rows. -/
def foldRows (rows alt : Nat) : Nat := if alt = 4 then (rows + 1) / 2 else rows

def foldCols (cols alt : Nat) : Nat := if 2 ≤ alt then (cols + 1) / 2 else cols

/-- The island descriptors of an alternative, by number. -/
def Image.descs (i : Image) (alt : Nat) : List (BitVec 64) :=
  (List.range 24).filterMap fun n => (i.pick 0x02 alt n).map fun r => ofBytes 64 r.body

/-- R141: every alternative of the header has its descriptors, and the code its record. -/
def Image.whole (i : Image) : Bool :=
  [1, 2, 4].all (fun a => !i.has a || (!(i.descs a).isEmpty && (a != 1 || decide ((i.descs 1).length = i.count)))) &&
  i.recs.all (fun r => r.type != 2 || decide (r.tgt < 24)) &&
  (i.codeLen == 0 || i.recs.any fun r => r.type == 6)

/-- R141 Table 11: every core of every alternative has its bank records; the cores of a folded alternative are those it keeps (log
134). -/
def Image.banked (i : Image) : Bool :=
  [1, 2, 4].all fun a => !i.has a || (List.range (foldRows i.rows a)).all fun y => (List.range (foldCols i.cols a)).all fun x =>
    (i.pick 0x03 a (256 * y + x)).isSome && (i.pick 0x04 a (256 * y + x)).isSome

/-- R36, R141, R142: a descriptor relocated to the region's corner; none where it is refused. -/
def relocate (d : BitVec 64) (row0 col0 rows cols : Nat) : Option (BitVec 64) :=
  let r := descRow d
  let c := descCol d
  let conv := descConv d
  let y := row0 + conv / 12
  let x := col0 + conv % 12
  if d.extractLsb' 34 30 ≠ 0 ∨ d.getLsbD 19 ∨ d.extractLsb' 5 3 ≠ 0 ∨ descRows d < 2 ∨ descCols d < 2 ∨ rows < r + descRows d ∨
     cols < c + descCols d ∨ 8 < row0 + r + descRows d ∨ 12 < col0 + c + descCols d then none
  else if conv ≠ 0x7F ∧ (96 ≤ conv ∨ y < row0 + r ∨ row0 + r + descRows d ≤ y ∨ x < col0 + c ∨ col0 + c + descCols d ≤ x) then none
  else
    let conv' : BitVec 64 := BitVec.ofNat 64 (if conv = 0x7F then 0x7F else 12 * y + x)
    some ((d &&& 0x00000003F8000FFF) ||| (conv' <<< 12) ||| (BitVec.ofNat 64 (row0 + r) <<< 20) ||| (BitVec.ofNat 64 (col0 + c) <<< 23))

/-- R33: descriptors in row-major order of their corners. -/
def insertDesc (d : BitVec 64) : List (BitVec 64) → List (BitVec 64)
  | [] => [d]
  | e :: l => if 12 * descRow d + descCol d ≤ 12 * descRow e + descCol e then d :: e :: l else e :: insertDesc d l

/-- R140: the 32 row contexts of a bank record. -/
def bankRows (b : List Byte) : List Row :=
  (List.range 32).map fun k =>
    { word := ofBytes 32 ((b.drop (8 * k)).take 4), tags := listByte b (8 * k + 4), rstpt := (listByte b (8 * k + 5)).getLsbD 0 }

/-- Writes 32 row contexts into a bank. -/
def putRows (t : Tab Row) (bank : Nat) (l : List Row) : Tab Row :=
  (l.zip (List.range l.length)).foldl (fun (u : Tab Row) e => put {} u (32 * bank + e.2) e.1) t

/-- R139: the constants of a record, and zero tokens without one. -/
def constTokens (r : Option ImgRec) : Token × Token :=
  match r with
  | some x => (⟨ofBytes 512 (x.body.take 64), (listByte x.body 64).setWidth 3, 0⟩,
               ⟨ofBytes 512 ((x.body.drop 72).take 64), (listByte x.body 136).setWidth 3, 0⟩)
  | none => (⟨0, 0, 0⟩, ⟨0, 0, 0⟩)

/-- R143: loads the shadow banks and constants of one core. -/
def State.loadCore (s : State) (i : Image) (alt core y x : Nat) : State :=
  let k := s.core core
  let b := if k.bank then 0 else 1
  let rows (type : Nat) : List Row := match i.pick type alt (256 * y + x) with
    | some r => bankRows r.body
    | none => []
  let (c0, c1) := constTokens (i.pick 0x05 alt (256 * y + x))
  let consts := put ⟨0, 0, 0⟩ (put ⟨0, 0, 0⟩ k.ve.consts (2 * b) c0) (2 * b + 1) c1
  s.setCore core { k with ve := { k.ve with rows := putRows k.ve.rows b (rows 3), consts := consts },
                          mn := { k.mn with rows := putRows k.mn.rows b (rows 4) } }

/-- The words of a byte string. -/
def wordsOf (b : List Byte) : List Word := (List.range (b.length / 4)).map fun k => ofBytes 32 ((b.drop (4 * k)).take 4)

/-! ### CFGLD (R291, R292) -/

/-- R291 Table 10: fields of a region selector. -/
def selClu (g : W64) : Nat := (g.setWidth 4 : BitVec 4).toNat
def selRow (g : W64) : Nat := (g.extractLsb' 5 3).toNat
def selCol (g : W64) : Nat := (g.extractLsb' 8 4).toNat
def selAlt (g : W64) : Nat := match (g.extractLsb' 12 2).toNat with
  | 0 => 0
  | 1 => 1
  | 2 => 2
  | _ => 4
def selMask (g : W64) : BitVec 24 := g.extractLsb' 16 24
def selSeq (g : W64) : Nat := (g.extractLsb' 40 5).toNat
def selNoSeq (g : W64) : Bool := g.getLsbD 45

/-- Reserved bits of a selector. -/
def selClean (g : W64) : Bool := g.extractLsb' 46 18 == 0 && g.extractLsb' 14 2 == 0 && !g.getLsbD 4

/-- The key of the region that a selector names. -/
def selKey (g : W64) : Nat := coreAt (selClu g) (selRow g) (selCol g)

/-- Where an image is to be loaded. -/
structure Fit where
  clu : Nat
  row : Nat
  col : Nat
  alt : Nat
  seq : Option Nat
  part : BitVec 7
  asid : BitVec 16
  deriving DecidableEq, Repr

def Fit.key (f : Fit) : Nat := coreAt f.clu f.row f.col

/-- R292 Table 11: the status of loading an image on a fit, with the relocated descriptors. No status refuses islands that overlap or
leave a core of the region uncovered (log 135). -/
def State.imageStatus (s : State) (i : Image) (f : Fit) : Nat × List (BitVec 64) :=
  let rows := foldRows i.rows f.alt
  let cols := foldCols i.cols f.alt
  let outside := (rectCores f.clu f.row f.col rows cols).any fun c => look 0 s.brass.coreOf c != f.part
  let ds := (i.descs f.alt).map fun d => relocate d f.row f.col rows cols
  let seqBad := match f.seq with
    | none => false
    | some n => look 0 s.brass.seqOf n != f.part || decide (65536 < i.codeLen) || (i.codeLen != 0 && decide (i.codeLen ≤ i.entry))
  if !i.whole then (1, [])
  else if !i.banked then (4, [])
  else if 8 < f.row + rows ∨ 12 < f.col + cols ∨ outside ∨ !i.has f.alt ∨ (i.cluster ≠ 0xFF ∧ i.cluster ≠ f.clu) then (3, [])
  else if ds.any (·.isNone) then (2, [])
  else if seqBad then (5, [])
  else (0, ds.filterMap id)

/-- R292: what a load that is not refused writes: the shadow banks, descriptors and measurement of the region, and the code, pattern and
layout records of its sequencer; the code waits for SEQUENCER_CODE_LOAD (R143). -/
def State.loadImage (s : State) (i : Image) (f : Fit) (ds : List (BitVec 64)) : State :=
  let rows := foldRows i.rows f.alt
  let cols := foldCols i.cols f.alt
  let s1 := (List.range rows).foldl (fun (t : State) y => (List.range cols).foldl (fun (u : State) x =>
    u.loadCore i f.alt (coreAt f.clu (f.row + y) (f.col + x)) y x) t) s
  let r := s1.region f.key
  let fresh := r.rows = 0
  let r1 : Region := { r with
    rows := if fresh then rows else r.rows
    cols := if fresh then cols else r.cols
    part := f.part
    asid := if fresh then f.asid else r.asid
    shadow := ds.foldr insertDesc []
    shadowAlt := f.alt
    shadowRows := rows
    shadowCols := cols
    shadowSeq := f.seq
    shadowMeas := Config.sm3 i.bytes
    swapped := []
    folded := r.folded.map fun _ => true
    entry := i.entry }
  let s2 := s1.setRegion f.key r1
  match f.seq with
  | none => s2
  | some n =>
    let q := s2.seq n
    let records (t : Nat) : List ImgRec := i.recs.filter fun x => x.type == t && (x.alt == 0 || x.alt == f.alt)
    let code := match i.recs.find? fun x => x.type == 6 && (x.alt == 0 || x.alt == f.alt) with
      | some x => some (i.entry, wordsOf x.body)
      | none => q.code
    s2.setSeq n { q with
      code := code
      patterns := (records 8).foldl (fun (t : Tab (BitVec 256)) x => put 0 t x.tgt (ofBytes 256 x.body)) q.patterns
      layouts := (records 9).foldl (fun (t : Tab (BitVec 384)) x => put 0 t x.tgt (ofBytes 384 x.body)) q.layouts }

end Sys2Proof.Machine
end

