-- ==== Sys2Proof/Machine/BrassOps.lean ====
section
/-! DEFINITION. What Brass does to memory, queues and tasks: accesses, appended records, the stages of a task and their sequencers (R318 to
R325, R405, R406). -/

namespace Sys2Proof.Machine

/-! ### Tables of Brass -/

def State.setBrass (s : State) (b : Brass) : State := { s with brass := b }

def State.queue (s : State) (q : Nat) : Queue := look {} s.brass.queues q

def State.setQueue (s : State) (q : Nat) (x : Queue) : State := s.setBrass { s.brass with queues := put {} s.brass.queues q x }

def State.task (s : State) (t : Nat) : Option Task := look none s.brass.tasks t

def State.setTask (s : State) (t : Nat) (x : Option Task) : State := s.setBrass { s.brass with tasks := put none s.brass.tasks t x }

def State.part (s : State) (p : BitVec 7) : Part := look {} s.brass.parts p.toNat

def State.setPart (s : State) (p : BitVec 7) (x : Part) : State := s.setBrass { s.brass with parts := put {} s.brass.parts p.toNat x }

/-! ### Queue configuration (R318 Table 1) -/

def Queue.en (q : Queue) : Bool := q.cfg.getLsbD 63
def Queue.devl (q : Queue) : Bool := q.cfg.getLsbD 62
def Queue.size (q : Queue) : Nat := 2 ^ ((q.cfg.extractLsb' 58 4).toNat + 4)
def Queue.lvl (q : Queue) : Nat := (q.cfg.extractLsb' 55 3).toNat
def Queue.part (q : Queue) : BitVec 7 := q.cfg.extractLsb' 48 7
def Queue.ten (q : Queue) : Nat := (q.cfg.extractLsb' 38 10).toNat
def Queue.asid (q : Queue) : BitVec 16 := q.cfg.extractLsb' 22 16
def Queue.slice (q : Queue) : Nat := (q.cfg.extractLsb' 0 16).toNat

/-- R319: the address of the ring slot of a position. -/
def Queue.slotAt (q : Queue) (p : W64) : W64 := q.ring + BitVec.ofNat 64 (64 * (p.toNat % q.size))

/-! ### Accesses of Brass -/

/-- Brass as an issuer, under the ASID and partition of a queue. It stands beside the 33 sequencers. -/
def brassIssuer (asid : BitVec 16) (part : BitVec 7) : Issuer := { who := .seq 33, cluster := 0, asid := asid, part := part }

/-- The translation cache of Brass's die. -/
def brassUnit : Nat := 300

/-- What an access of Brass comes to: an answer, or a wait for another chip or behind a held line. -/
inductive Fetched where
  | got (a : Answer) (s : State)
  | wait (s : State)
  deriving DecidableEq, Repr

/-- One access of a unit's work to a virtual address. One to another chip is sent once and answered later; its answer stays until the
work ends. -/
def State.workAccess (s : State) (work unit : Nat) (iss : Issuer) (va : W64) (op : MemOp) (oo : Bool) : Fetched :=
  match s.brass.asks.find? fun k => k.work == work && k.va == va && k.op == op with
  | some k => (match k.answer with
    | some a => .got a s
    | none => .wait s)
  | none =>
    if va.extractLsb' 51 13 ≠ 0 then .got { fault := some (0x06, va) } s
    else match s.resolve unit iss va (opWidth op) (opNeed op) oo with
    | .error k => .got { fault := some (k, va) } s
    | .ok t =>
      if t.chip = s.chipId then
        match s.atHome t iss none va false op with
        | .answered s1 a => .got a s1
        | .staged s1 => .wait s1
        | _ => .wait s
      else if !s.routed t.chip then .got { fault := some (0x06, va) } s
      else
        let (s1, id) := s.sendRequest t.chip fun id => accessBody t iss.part op va id
        .wait (s1.setBrass { s1.brass with asks := s1.brass.asks ++ [{ work := work, va := va, op := op, id := id, asid := iss.asid, askAt := some t }] })

/-- One access of Brass. -/
def State.brassAccess (s : State) (work : Nat) (asid : BitVec 16) (part : BitVec 7) (va : W64) (op : MemOp) : Fetched :=
  s.workAccess work brassUnit (brassIssuer asid part) va op false

/-- Ends a work: the answers that came for it are dropped. -/
def State.endWork (s : State) (work : Nat) : State :=
  s.setBrass { s.brass with asks := s.brass.asks.filter fun k => k.work != work }

/-- Gives an answer of another chip to the work that waits for it. -/
def State.answerWork (s : State) (id : Nat) (a : Answer) : State :=
  s.setBrass { s.brass with asks := s.brass.asks.map fun k => if k.id = id then { k with answer := some a } else k }

/-- What a read of several accesses comes to. -/
inductive Gathered where
  | bytes (l : List Byte) (s : State)
  | fault (s : State)
  | wait (s : State)
  deriving DecidableEq, Repr

/-- Widest aligned access from an address, at most 64 and at most `n` bytes wide. -/
def pieceWidth (va : W64) (n cap : Nat) : Nat :=
  ([64, 32, 16, 8, 4, 2].find? fun w => decide (w ≤ cap ∧ w ≤ n ∧ va.toNat % w = 0)).getD 1

/-- Reads `n` bytes at a virtual address, after `have_`. -/
def State.brassBytes (s : State) (work : Nat) (asid : BitVec 16) (part : BitVec 7) (va : W64) (n : Nat) : Nat → List Byte → Gathered
  | 0, l => .bytes l s
  | fuel + 1, l =>
    if n ≤ l.length then .bytes l s
    else
      let at_ := va + BitVec.ofNat 64 l.length
      let w := pieceWidth at_ (n - l.length) 64
      match s.brassAccess work asid part at_ (.load w) with
      | .wait s1 => .wait s1
      | .got a s1 => if a.fault.isSome then .fault s1 else s1.brassBytes work asid part va n fuel (l ++ bytesOf a.data w)

/-- A write that Brass makes and does not wait for; one that faults changes nothing, and one that meets a held line waits at its home
(R279). -/
def State.brassStore (s : State) (asid : BitVec 16) (part : BitVec 7) (va : W64) (op : MemOp) : Option State :=
  match s.resolve brassUnit (brassIssuer asid part) va (opWidth op) (opNeed op) with
  | .error _ => none
  | .ok t =>
    if t.chip = s.chipId then
      match s.atHome t (brassIssuer asid part) none va false op with
      | .answered s1 a => if a.fault.isSome then none else some s1
      | .held => some (s.setMem { s.mem with flight := s.mem.flight ++
          [({ iss := brassIssuer asid part, ea := va, op := op, target := some t, arrived := true } : Req)] })
      | _ => none
    else if !s.routed t.chip then none
    else
      let (s1, id) := s.sendRequest t.chip fun id => accessBody t part op va id
      let r : Req := { iss := brassIssuer asid part, ea := va, op := op, target := some t }
      some (s1.setMem { s1.mem with away := put none s1.mem.away id (some r) })

/-! ### Launches (R286) -/

/-- R286: appends a record to a queue: the ring entry at the tail is reserved, written and published, and the tail word is advanced. A queue
whose ring or doorbell cannot be written refuses. -/
def State.append (s : State) (q : Nat) (rec_ : BitVec 512) : State × BitVec 5 × W64 :=
  let x := s.queue q
  let p := x.tail
  if (p - x.head).toNat ≥ x.size then (s, 8, -1)
  else
    let full : BitVec 512 := (rec_.setWidth 448).setWidth 512 ||| ((p + 1).setWidth 512 <<< 448)
    match (s.brassStore x.asid x.part (x.slotAt p) (.store 64 full)).bind fun s1 => s1.brassStore x.asid x.part x.db (.atom .maxu 8 (p + 1) 0) with
    | none => (s, 15, -1)
    | some s2 => (s2.setQueue q { s2.queue q with tail := p + 1 }, 0, BitVec.ofNat 64 (p.toNat % x.size))

/-- The tenant of an issuer's task. -/
def State.tenantOf (s : State) (region : Option Nat) : Option Nat :=
  match region.bind fun k => (s.region k).owner with
  | some o => (s.task o.1).map (·.tenant)
  | none => none

/-- R337: whether a tenant's launch table lets a chip and ASID launch. The table lies in HBM; entries that Brass cannot read admit no
one. -/
def State.admits (s : State) (tenant chip : Nat) (asid : BitVec 16) : Bool :=
  (List.range (Nat.min (look 0 s.brass.ltCnt tenant).toNat 64)).any fun k =>
    let a := (look 0 s.brass.ltBase tenant).toNat + 8 * k
    let e : W64 := (s.mem.read a 8).setWidth 64
    inHbm a && !s.unreadable a && e.getLsbD 63 && (e.extractLsb' 51 12).toNat == chip && e.extractLsb' 35 16 == asid

/-! ### Stages and sequencers -/

/-- R151: a launch posted to a sequencer, or a signal, on its way. -/
def State.post (s : State) (n : Nat) (part : BitVec 7) : State := s.setBrass { s.brass with signals := s.brass.signals ++ [(n, part)] }

/-- R323 Table 3: fields of a stage entry. -/
def stageImage (x : Stage) : W64 := x.entry.extractLsb' 448 64
def stageDbase (x : Stage) : W64 := x.entry.extractLsb' 384 64
def stageWtab (x : Stage) : W64 := x.entry.extractLsb' 320 64
def stageStk (x : Stage) : W64 := x.entry.extractLsb' 256 64
def stageChip (x : Stage) : Nat := (x.entry.extractLsb' 244 12).toNat
def stageQueue (x : Stage) : Nat := (x.entry.extractLsb' 232 12).toNat
def stageNw (x : Stage) : Nat := (x.entry.extractLsb' 227 5).toNat

/-- Changes stage `k` of a task. -/
def State.onTaskStage (s : State) (t k : Nat) (f : Stage → Stage) : State :=
  match s.task t with
  | some x => s.setTask t (some { x with stages := x.stages.modify k f })
  | none => s

/-- The sequencers here that run a control program of a task and have not executed DONE. -/
def State.programs (s : State) (x : Task) : List (Nat × Nat) :=
  (x.stages.zip (List.range x.stages.length)).filterMap fun e => match e.1.seq with
    | some n => if e.1.done.isNone then some (e.2, n) else none
    | none => none

/-- R260: makes a token of a sequencer busy; the finished bindings made under it are gone. -/
def State.busyToken (s : State) (n : Nat) (t : BitVec 3) : State :=
  let old := s.streams.bindings.filter fun e => match e.2 with
    | some y => !(y.seq == n && y.tok == t && !y.refetch && !y.loose)
    | none => true
  let s1 := { s with streams := { s.streams with bindings := old } }
  s1.setSeq n { s1.seq n with tokens := (s1.seq n).tokens ||| (1#8 <<< t.toNat) }

end Sys2Proof.Machine
end

