-- ==== Sys2Proof/Machine/LaunchForms.lean ====
section
/-! DEFINITION. Launch, signals and gangs, opcodes 0xDD to 0xE1, and the events of signals and barriers (R286 to R290). -/

namespace Sys2Proof.Machine

/-! ### LNCH (R286) -/

/-- R286: ends a LNCH with its outcome: the index, and the predicate or the fault of a refused launch. -/
def State.lnchEnd (s : State) (n : Nat) (d : BitVec 4) (ea : W64) (st : Bool) (sp : BitVec 3) (code : BitVec 5) (index : W64) : State :=
  let q := (s.seq n).set d (if code = 0 then index else -1)
  if st then s.seqNext n { q with preds := predSet q.preds sp (decide (code.toNat < 3)) }
  else if code = 15 then s.seqFault n 0x0B ea
  else s.seqNext n q

/-- R286: the launch itself, once the record has been read: here at once, on another chip by a request. -/
def State.lnchGo (s : State) (n : Nat) (d : BitVec 4) (ea g : W64) (st : Bool) (sp : BitVec 3) (got : List Answer) : State :=
  let rec_ : BitVec 512 := joinPieces 512 got
  let queue := (g.setWidth 12 : BitVec 12).toNat
  let chip := (g.extractLsb' 32 12).toNat
  if chip = s.chipId then
    let x := s.queue queue
    if !x.devl || s.tenantOf (s.seq n).region != some x.ten then s.lnchEnd n d ea st sp 15 0
    else let (s1, code, index) := s.append queue rec_; s1.lnchEnd n d ea st sp code index
  else if !s.routed chip then s.seqFault n 0x06 ea
  else
    let (s1, id) := s.sendRequest chip fun id => .launch id (s.seq n).asid queue rec_
    s1.setSeq n { s1.seq n with wait := some { got := got, id := some id } }

/-- LNCH (R286): waits for the sequencer's earlier accesses, reads the record and appends it. -/
def execLnch (a b d : BitVec 4) (t : Bool) (p : BitVec 3) (s : State) : Host.Outcome State Fault Refusal :=
  word (.lnch a b d t p) always
    (fun n s =>
      let g := (s.seq n).get b
      let ea := (s.seq n).get a
      if g.extractLsb' 12 20 ≠ 0 ∨ g.extractLsb' 44 20 ≠ 0 then s.badOperand n (.lnch a b d t p)
      else s.seqRelease n 2 5 fun s => s.seqScript n fun got => match readPieces ea 64 4 got with
        | some x => .inl x
        | none => .inr (match got[4]? with
          | some r => fun s => s.lnchEnd n d ea t p r.code (r.data.setWidth 64)
          | none => fun s => s.lnchGo n d ea g t p got))
    noBody noBody s

/-! ### SIG (R287) -/

/-- SIG (R287). -/
def execSig (a : BitVec 4) (s : State) : Host.Outcome State Fault Refusal :=
  word (.sig a) always
    (fun n s =>
      let q := s.seq n
      let g := q.get a
      let chip := (g.extractLsb' 16 12).toNat
      let target := (g.setWidth 5 : BitVec 5).toNat
      if g.extractLsb' 5 11 ≠ 0 ∨ g.extractLsb' 28 36 ≠ 0 then s.badOperand n (.sig a)
      else s.seqRelease n 2 5 fun s =>
        if chip = s.chipId then let s1 := s.post target q.part; s1.seqNext n (s1.seq n)
        else if !s.routed chip then s.seqFault n 0x06 g
        else let s1 := s.send chip (.signal target q.part); s1.seqNext n (s1.seq n))
    noBody noBody s

/-- EVENT_FLAG_SET (R151, R287): a signal or launch that has reached a sequencer sets its event flag; one from another partition is
dropped. -/
def execEventFlagSet (n : Nat) (s : State) : Host.Outcome State Fault Refusal :=
  .next <| match s.brass.signals.find? (·.1 == n) with
  | none => s
  | some x =>
    let s1 := s.setBrass { s.brass with signals := s.brass.signals.erase x }
    if (s1.seq n).part = x.2 then s1.setSeq n { s1.seq n with event := true } else s1

/-! ### GBAR (R288) -/

/-- GBAR (R288): with its earlier accesses performed, a sequencer arrives and waits for the release; the only program of a gang goes on
at once. -/
def execGbar (b : BitVec 4) (s : State) : Host.Outcome State Fault Refusal :=
  word (.gbar b) always
    (fun n s =>
      let q := s.seq n
      if q.barrier.isSome then s
      else s.seqRelease n 2 5 fun s => match s.stageOf n with
      | none => s.seqNext n q
      | some (t, _) =>
        let s1 := s.setSeq n { q with barrier := some b, begun := false }
        match (s.task t).bind (·.origin) with
        | some (chip, gang, m) => s1.send chip (.barrierAt gang m b true)
        | none => s1)
    noBody noBody s

/-- Whether every program of a gang has arrived at a barrier: those here, and those of the stages that run elsewhere. A stage that has
started without a control program counts for none. -/
def State.allArrived (s : State) (x : Task) (b : BitVec 4) : Bool :=
  ((x.stages.zip (List.range x.stages.length)).all fun e =>
    match e.1.seq with
    | some n => e.1.done.isSome || (s.seq n).barrier == some b
    | none => e.1.done.isSome || x.arrived.contains (e.2, b) || (e.1.started && !e.1.hasCode))

/-- R288: the programs of a task that wait at a barrier go on. -/
def State.passBarrier (s : State) (x : Task) (b : BitVec 4) : State :=
  (s.programs x).foldl (fun (t : State) e =>
    if (t.seq e.2).barrier = some b then t.seqNext e.2 { t.seq e.2 with barrier := none } else t) s

/-- GANG_BARRIER_RELEASE (R288): the last arrival advances the generation and releases every program of the gang. -/
def execGangBarrierRelease (task : Nat) (b : BitVec 4) (s : State) : Host.Outcome State Fault Refusal :=
  .next <| match s.task task with
  | none => s
  | some x =>
    if x.origin.isSome ∨ !s.allArrived x b ∨ ((s.programs x).isEmpty ∧ x.arrived.isEmpty) then s
    else
      let far := ((x.stages.map stageChip).eraseDups).filter (· != s.chipId)
      let x1 : Task := { x with barriers := put 0 x.barriers b.toNat (look 0 x.barriers b.toNat + 1), arrived := x.arrived.filter (·.2 != b) }
      let s1 := ((s.setTask task (some x1)).passBarrier x1 b)
      far.foldl (fun (t : State) c => t.send c (.barrierGo task b)) s1

/-! ### DRAIN, DONE -/

/-- R289: arms every island of a region. -/
def State.armRegion (s : State) (region n : Nat) (t : BitVec 3) : State :=
  let r := s.region region
  let s1 := r.islands.foldl (fun (u : State) k => if (u.island k).hold.isSome then u else u.setIsland k { u.island k with armed := true, drainSeen := [] }) s
  (s1.setRegion region { s1.region region with drain := some { seq := n, tok := t, isls := r.islands } }).settleAsk region

/-- DRAIN (R289). -/
def execDrain (t : BitVec 3) (s : State) : Host.Outcome State Fault Refusal :=
  word (.drain t) always
    (fun n s =>
      let q := s.seq n
      match q.region with
      | none => if q.busy t then s.begin n else s.seqNext n q
      | some k =>
        if q.busy t ∨ (s.region k).drain.isSome then s.begin n
        else
          let s1 := (s.busyToken n t).armRegion k n t
          s1.seqNext n (s1.seq n))
    noBody noBody s

/-- DONE (R290): with every earlier access performed, the stage reports its value and fetch stops. -/
def execDone (a : BitVec 4) (s : State) : Host.Outcome State Fault Refusal :=
  word (.done a) always
    (fun n s =>
      let q := s.seq n
      let g := q.get a
      if g.extractLsb' 32 32 ≠ 0 then s.badOperand n (.done a)
      else s.seqRelease n 2 5 fun s =>
        let v : BitVec 32 := g.setWidth 32
        let s1 := s.seqNext n { s.seq n with run := .stopped }
        match s.stageOf n with
        | none => s1
        | some (t, k) =>
          let s2 := s1.onTaskStage t k fun x => { x with done := some v }
          match (s.task t).bind (·.origin) with
          | some (chip, gang, m) => s2.send chip (.done gang m v)
          | none => s2)
    noBody noBody s

end Sys2Proof.Machine
end

