-- ==== Sys2Proof/Machine/PrivForms.lean ====
section
/-! DEFINITION. Privileged forms, opcodes 0xF0 to 0xF7 (R291 to R299), and SEQUENCER_CODE_LOAD (R143). -/

namespace Sys2Proof.Machine

/-- A partition fault of a word whose access has no effective address: TVAL is a value that Table 2 of R399 does not name. -/
def State.fenceFault (s : State) (n : Nat) : State :=
  ({ s with free := s.free + 1 } : State).seqFault n 0x0B (Config.freeWord s.free)

/-! ### CFGLD (R291, R292) -/

/-- Reads bytes by accesses of at most 16, as far as the parse of what has come asks. -/
def gatherImage (ea : W64) (have_ : List Byte) : List Answer → Access ⊕ Parsed
  | [] => match parseImage have_ with
    | .more n =>
      let va := ea + BitVec.ofNat 64 have_.length
      let w := pieceWidth va (n - have_.length) 16
      .inl { ea := va, op := .load w, align := w }
    | p => .inr p
  | a :: l => match parseImage have_ with
    | .more n =>
      let va := ea + BitVec.ofNat 64 have_.length
      gatherImage ea (have_ ++ bytesOf a.data (pieceWidth va (n - have_.length) 16)) l
    | p => .inr p

/-- The fit that a sequencer's selector names. -/
def State.selFit (s : State) (n : Nat) (g : W64) : Fit :=
  let r := s.region (selKey g)
  { clu := selClu g, row := selRow g, col := selCol g, alt := if selAlt g = 0 then r.alt else selAlt g,
    seq := if selNoSeq g then none else some (selSeq g), part := (s.seq n).part, asid := (s.seq n).asid }

/-- R292: loads an image that has been read, and gives its status. -/
def State.loadParsed (s : State) (p : Parsed) (f : Fit) : Nat × State :=
  match p with
  | .done i =>
    let (st, ds) := s.imageStatus i f
    if st = 0 then (0, s.loadImage i f ds) else (st, s)
  | _ => (1, s)

/-- CFGLD (R292). -/
def execCfgld (a b d : BitVec 4) (s : State) : Host.Outcome State Fault Refusal :=
  word (.cfgld a b d) always
    (fun n s =>
      let q := s.seq n
      let g := q.get b
      if !selClean g then s.badOperand n (.cfgld a b d)
      else if 12 ≤ selCol g ∨ look 0 s.brass.coreOf (selKey g) ≠ q.part then s.fenceFault n
      else s.seqScript n fun got => match gatherImage (q.get a) [] got with
        | .inl x => .inl x
        | .inr p => .inr fun s =>
          let (st, s1) := s.loadParsed p (s.selFit n g)
          s1.seqNext n ((s1.seq n).set d (BitVec.ofNat 64 st)))
    noBody noBody s

/-- R143: whether a sequencer waits in an IDLE, or does not fetch. -/
def Seq.codeMayLoad (q : Seq) : Bool :=
  q.run != .running || (q.wait.isSome && match decode false (look 0 q.imem (q.pc.toNat / 4)) with
    | .ok (.idle _) => true
    | _ => false)

/-- Replaces the instruction memory. -/
def loadWords (l : List Word) : Tab Word :=
  (l.zip (List.range l.length)).foldl (fun (t : Tab Word) e => put 0 t e.2 e.1) []

/-- SEQUENCER_CODE_LOAD (R143). A sequencer that waits in an IDLE starts at the entry address of its new code (log 136); one that does
not fetch is started by what launches its stage. -/
def execSequencerCodeLoad (n : Nat) (s : State) : Host.Outcome State Fault Refusal :=
  let q := s.seq n
  .next <| match q.code with
  | some (entry, l) =>
    if q.run = .running then
      if q.codeMayLoad then s.setSeq n { q with imem := loadWords l, code := none, pc := BitVec.ofNat 64 entry, wait := none } else s
    else s.setSeq n { q with imem := loadWords l, code := none }
  | none => s

/-! ### BSWAP, FOLD, RQSC (R293 to R295) -/

/-- R291: the region that a selector names for BSWAP, FOLD and RQSC; none where no region of the sequencer's partition stands there,
which is a partition fault. -/
def State.selectRegion (s : State) (n : Nat) (g : W64) : Option Nat :=
  let r := s.region (selKey g)
  if 12 ≤ selCol g ∨ r.rows = 0 ∨ r.part ≠ (s.seq n).part then none else some (selKey g)

/-- The islands that a mask selects: bit i is island i of the region; 0 means every island. -/
def Region.selected (r : Region) (mask : BitVec 24) : List Nat :=
  if mask = 0 then r.islands
  else ((r.islands.zip (List.range r.islands.length)).filter fun e => mask.getLsbD e.2).map (·.1)

/-- R293, R431: whether an island may swap: never enabled, or held and not by a fault whose disposition Brass has still to apply. -/
def Island.maySwap (i : Island) : Bool := !i.enabled || (i.hold.isSome && i.fault.isNone && i.delivered.isNone && !i.trapped)

/-- R293: the rectangle of a descriptor. -/
def descRect (d : BitVec 64) : Nat × Nat × Nat × Nat := (descRow d, descCol d, descRows d, descCols d)

/-- R293: whether the shadow descriptors give the same rectangles as the active ones. -/
def State.sameRects (s : State) (r : Region) : Bool :=
  r.shadow.isEmpty || (r.shadow.map descRect == r.islands.map fun k => descRect (s.island k).desc)

/-- BSWAP (R293): swaps at once, or when the requests of the held islands have completed. -/
def execBswap (t : BitVec 3) (a : BitVec 4) (s : State) : Host.Outcome State Fault Refusal :=
  word (.bswap t a) always
    (fun n s =>
      let q := s.seq n
      let g := q.get a
      if !selClean g then s.badOperand n (.bswap t a)
      else match s.selectRegion n g with
      | none => s.fenceFault n
      | some k =>
        let r := s.region k
        let isls := r.selected (selMask g)
        if q.busy t ∨ r.swap.isSome then s.begin n
        else if !(isls.all fun i => (s.island i).maySwap) || (!r.islands.all isls.contains && !s.sameRects r) then s.seqFault n 0x10 g
        else
          let s1 := s.busyToken n t
          let s2 := if isls.all s1.settled then (s1.swapRegion k isls).freeToken n t
            else s1.setRegion k { s1.region k with swap := some { seq := n, tok := t, isls := isls } }
          s2.seqNext n (s2.seq n))
    noBody noBody s

/-- R294: the part of an island that lies in the kept rectangle; zero where nothing does. -/
def clipDesc (d : BitVec 64) (row col rows cols : Nat) : BitVec 64 :=
  if row + rows ≤ descRow d ∨ col + cols ≤ descCol d then 0
  else
    let h := Nat.min (descRows d) (row + rows - descRow d)
    let w := Nat.min (descCols d) (col + cols - descCol d)
    (d &&& 0x07FFFFFF) ||| (BitVec.ofNat 64 (h - 1) <<< 27) ||| (BitVec.ofNat 64 (w - 1) <<< 30)

/-- R294: sets a region's alternative and returns the cores that it leaves. The islands end at the kept rectangle (log 24), and wait for a
CFGLD and a BSWAP. -/
def State.foldRegion (s : State) (k alt : Nat) : State :=
  let r := s.region k
  let cols := if r.alt = 1 ∧ 2 ≤ alt then (r.cols + 1) / 2 else r.cols
  let rows := if r.alt < 4 ∧ alt = 4 then (r.rows + 1) / 2 else r.rows
  let kept := rectCores (clusterOf k) (rowOf k) (colOf k) rows cols
  let gone := (rectCores (clusterOf k) (rowOf k) (colOf k) r.rows r.cols).filter fun c => !kept.contains c
  let s1 := r.islands.foldl (fun (t : State) i =>
    let d := clipDesc (t.island i).desc (rowOf k) (colOf k) rows cols
    t.setIsland i (if d = 0 then {} else { t.island i with desc := d })) s
  let s2 := gone.foldl (fun (t : State) c => (t.setCore c { failed := (t.core c).failed }).clearFifos c []) s1
  s2.setRegion k { s2.region k with folded := some false, alt := alt, rows := rows, cols := cols,
                                    islands := r.islands.filter fun i => (s2.island i).desc != 0 }

/-- FOLD (R294). -/
def execFold (a : BitVec 4) (s : State) : Host.Outcome State Fault Refusal :=
  word (.fold a) always
    (fun n s =>
      let g := (s.seq n).get a
      if !selClean g then s.badOperand n (.fold a)
      else match s.selectRegion n g with
      | none => s.fenceFault n
      | some k =>
        let r := s.region k
        if !(r.islands.all fun i => (s.island i).hold == some .rqsc) then s.seqFault n 0x10 g
        else
          let s1 := if selAlt g = 0 then s else s.foldRegion k (selAlt g)
          s1.seqNext n (s1.seq n))
    noBody noBody s

/-- R295: gives the islands that are not held their stopping cycle. -/
def State.stopIslands (s : State) (isls : List Nat) : State :=
  isls.foldl (fun (t : State) k =>
    let i := t.island k
    if i.hold.isSome ∨ i.stopAt.isSome then t else t.setIsland k { i with stopAt := some (t.now + 16) }) s

/-- R295: releases islands that RQSC holds, but for those that a fold holds (R294). -/
def State.releaseIslands (s : State) (isls : List Nat) : State :=
  isls.foldl (fun (t : State) k =>
    let i := t.island k
    if i.hold = some .rqsc ∧ (t.region i.region).folded.isNone then t.setIsland k { i with hold := none } else t) s

/-- RQSC (R295). -/
def execRqsc (t : BitVec 3) (a : BitVec 4) (r : Bool) (s : State) : Host.Outcome State Fault Refusal :=
  word (.rqsc t a r) always
    (fun n s =>
      let q := s.seq n
      let g := q.get a
      if !selClean g then s.badOperand n (.rqsc t a r)
      else match s.selectRegion n g with
      | none => s.fenceFault n
      | some k =>
        let isls := (s.region k).selected (selMask g)
        if q.busy t ∨ (s.region k).stop.isSome then s.begin n
        else
          let s1 := s.busyToken n t
          let s2 := if r then (s1.releaseIslands isls).freeToken n t
            else
              let s2 := s1.stopIslands isls
              (s2.setRegion k { s2.region k with stop := some { seq := n, tok := t, isls := isls } }).settleAsk k
          s2.seqNext n (s2.seq n))
    noBody noBody s

/-! ### ASIDS, XINV, L2MD (R296 to R298) -/

/-- R296: whether an ASID's table entry is valid and names a partition; the kind of a read that fails. -/
def State.asidOf (s : State) (asid : BitVec 16) (part : BitVec 7) : Except (BitVec 8) Bool :=
  match s.asidEntry asid with
  | .error k => .error k
  | .ok e => .ok (pteV e && e.extractLsb' 56 7 == part)

/-- ASIDS (R296). -/
def execAsids (a : BitVec 4) (s : State) : Host.Outcome State Fault Refusal :=
  word (.asids a) always
    (fun n s =>
      let q := s.seq n
      let g := q.get a
      if g.extractLsb' 16 48 ≠ 0 then s.badOperand n (.asids a)
      else match s.asidOf (g.setWidth 16) q.part with
      | .ok true => s.seqNext n { q with asid := g.setWidth 16 }
      | .ok false => s.fenceFault n
      | .error k => s.seqFault n k (BitVec.ofNat 64 ((s.host.asidBase.toNat + 8 * (g.setWidth 16 : BitVec 16).toNat) % 2 ^ 46)))
    noBody noBody s

/-- R297: whether an invalidate covers an address under an ASID: `level` is that of the page that holds it. -/
def State.invCovers (s : State) (scope : BitVec 2) (va : W64) (asid : BitVec 16) (part : BitVec 7) (a : BitVec 16) (v level : Nat) : Bool :=
  match scope.toNat with
  | 0 => a == asid && v / pageBytes level == va.toNat / pageBytes level
  | 1 => a == asid
  | _ => match s.asidEntry a with
    | .ok e => e.extractLsb' 56 7 == part
    | .error _ => false

/-- R297: the level of the page that an address now lies in; 3 where nothing maps it. -/
def State.pageLevel (s : State) (asid : BitVec 16) (va : Nat) : Nat :=
  match s.walk asid va with
  | .ok (_, l) => l
  | .error _ => 3

/-- XINV (R297): with no access under way that has used a covered translation, the covered entries go, and parked stores that they cover
may retry (R434). -/
def execXinv (a b : BitVec 4) (sc : BitVec 2) (s : State) : Host.Outcome State Fault Refusal :=
  word (.xinv a b sc) always
    (fun n s =>
      let q := s.seq n
      let va := q.get a
      let asid : BitVec 16 := (q.get b).setWidth 16
      let covers (x : BitVec 16) (v level : Nat) : Bool := s.invCovers sc va asid q.part x v level
      -- R98: accesses under way that have used a translation of this chip
      let used (a : BitVec 16) (t : Option Target) : Bool := match t with
        | some t => t.size != 0 && (match sc.toNat with
          | 0 => a == asid && t.page == va.toNat / t.size * t.size
          | _ => covers a t.page 3)
        | none => false
      let hit (r : Req) : Bool := r.iss.chip.isNone && used r.iss.asid r.target
      let busy := (s.mem.flight.any hit) ||
        (s.mem.groupStores.any fun g => !g.staged && g.gid.chip == s.chipId && used g.req.iss.asid g.req.target) ||
        (s.mem.away.any fun e => match e.2 with
          | some r => hit r
          | none => false) ||
        (s.streams.bindings.any fun e => match e.2 with
          | some x => x.ask.isSome && x.reply.isNone && used x.asid x.askAt
          | none => false) ||
        (s.brass.asks.any fun k => k.answer.isNone && used k.asid k.askAt)
      if busy then s.begin n
      else
        let wake (l : List Parked) : List Parked := l.map fun p =>
          if covers p.asid p.va.toNat (s.pageLevel p.asid p.va.toNat) then { p with retry := true } else p
        let s1 := s.setMem { s.mem with tlb := s.mem.tlb.filter fun e => !covers e.asid (e.vpn * 32768) e.level }
        let s2 := s1.seqs.foldl (fun (t : State) e => if e.2.replay.isEmpty then t else t.setReplay (.seq e.1) (wake e.2.replay)) s1
        let s3 := s2.cores.foldl (fun (t : State) e => if e.2.ve.replay.isEmpty then t else t.setReplay (.ve e.1) (wake e.2.ve.replay)) s2
        s3.seqNext n (s3.seq n))
    noBody noBody s

/-- R91, R298: whether any partition runs: a task of it is resident or about to start. -/
def State.anyRunning (s : State) : Bool :=
  s.brass.tasks.any fun e => match e.2 with
    | some x => x.state == .resident || x.state == .starting
    | none => false

/-- R298: writes back and invalidates ways 0 to 14 and sets the mode. -/
def State.setL2Mode (s : State) (m : Bool) : State :=
  let s1 := s.writeBack (s.mem.l2.map (·.1))
  s1.setMem { s1.mem with l2mode := m }

/-- L2MD (R298). -/
def execL2md (d a : BitVec 4) (s : State) : Host.Outcome State Fault Refusal :=
  word (.l2md d a) always
    (fun n s =>
      let q := s.seq n
      let g := q.get a
      if g.extractLsb' 1 63 ≠ 0 then s.badOperand n (.l2md d a)
      else if s.anyRunning then s.seqNext n (q.set d 1)
      else let s1 := s.setL2Mode (g.getLsbD 0); s1.seqNext n ((s1.seq n).set d 0))
    noBody noBody s

/-! ### SCRB (R299, R457, R459) -/

/-- R299: one line of zeros, version 0, and its poison cleared. -/
def Mem.scrubLine (m : Mem) (line : Nat) : Mem :=
  let m1 := m.write (64 * line) 64 0
  ({ m1 with bad := put false m1.bad line false, badL2 := put false m1.badL2 line false, l2 := put {} m1.l2 line {} }.setVer line 0).afterWrite line

/-- R457, R459: the lines of one 512-byte block that a scrub covers; `whole` says that it covers the block. Gives how many it leaves. A
block scrubbed in part keeps its poison (log 25). -/
def State.scrubBlock (s : State) (block : Nat) (lines : List Nat) (mark stamp : Nat) : State × Nat :=
  let a := 512 * block
  if s.mem.retired.contains (frameOf a) then (s, lines.length)
  else if Config.readBackFails stamp block then
    (((s.setMem (s.mem.poisonBlock block)).logError 1 0 a).countError a, lines.length)
  else if lines.length < 8 ∧ !look false s.mem.clean block then (s, lines.length)
  else
    let m := lines.foldl (fun (m : Mem) l => m.scrubLine l) s.mem
    (s.setMem { m with clean := put false m.clean block true, keyOf := put 0 m.keyOf block mark }, 0)

/-- A line of a memory tile or a scratchpad; that of a failed core stays poisoned (R412). -/
def State.scrubSram (s : State) (line : Nat) : State × Nat :=
  if s.lostScratch (64 * line) then (s, 1) else (s.setMem (s.mem.scrubLine line), 0)

/-- R299: scrubs the lines from `line` on; gives the blocks, or lines on the die, of which some are left, and how many. -/
def State.scrubFrom (s : State) (mark stamp line count : Nat) : Nat → State × List (Nat × Nat)
  | 0 => (s, [])
  | fuel + 1 =>
    if count = 0 then (s, [])
    else if inHbm (64 * line) then
      let n := Nat.min count (8 - line % 8)
      let (s1, l) := s.scrubBlock (line / 8) ((List.range n).map (line + ·)) mark stamp
      let (s2, m) := s1.scrubFrom mark stamp (line + n) (count - n) fuel
      (s2, (64 * line, l) :: m)
    else
      let (s1, l) := s.scrubSram line
      let (s2, m) := s1.scrubFrom mark stamp (line + 1) (count - 1) fuel
      (s2, (64 * line, l) :: m)

/-- R459: frames retired since. -/
def State.newlyRetired (s old : State) : List Nat := s.mem.retired.filter fun f => !old.mem.retired.contains f

/-- The lines of a range that lie in a frame. -/
def linesIn (frame line count : Nat) : Nat := Nat.min (line + count) (512 * frame + 512) - Nat.max line (512 * frame)

/-- R299, R459: scrubs a range under a memory key, and counts the lines left: those of a frame that is retired during the scrub are all
left. -/
def State.scrub (s : State) (la count : Nat) (key : BitVec 12) : State × Nat :=
  let (s1, l) := ({ s with free := s.free + 1 } : State).scrubFrom (s.keyMark (some key)) s.free (la / 64) (count / 64) (count / 64)
  let gone := s1.newlyRetired s
  (s1, ((l.filter fun e => !(inHbm e.1 && gone.contains (frameOf e.1))).map (·.2)).sum +
    (gone.map fun f => linesIn f (la / 64) (count / 64)).sum)

/-- R70: the ranges of the local physical address space that a scrub may not leave. -/
def window (la : Nat) : Option Nat := match homeOf la with
  | .hbm _ => some 0
  | .scratch _ => some 1
  | .tile _ => some 2
  | .unpopulated => none

/-- SCRB (R299): waits while a group holds a line of the range (R457). It begins at the line that holds the address (log 108). -/
def execScrb (a b d : BitVec 4) (s : State) : Host.Outcome State Fault Refusal :=
  word (.scrb a b d) always
    (fun n s =>
      let q := s.seq n
      let g := q.get a
      let h := q.get b
      let la := (g.setWidth 46 : BitVec 46).toNat / 64 * 64
      let count := (h.setWidth 40 : BitVec 40).toNat
      if g.extractLsb' 46 18 ≠ 0 ∨ h.extractLsb' 52 12 ≠ 0 ∨ count % 64 ≠ 0 then s.badOperand n (.scrb a b d)
      else if count ≠ 0 ∧ (window la = none ∨ window la ≠ window (la + (count - 64))) then s.seqFault n 0x06 g
      else if s.mem.held.any fun e => decide (la ≤ 64 * e.1) && decide (64 * e.1 < la + count) then s.begin n
      else let (s1, left) := s.scrub la count (h.extractLsb' 40 12); s1.seqNext n ((s1.seq n).set d (BitVec.ofNat 64 left)))
    noBody noBody s

end Sys2Proof.Machine
end

