-- ==== Sys2Proof/Machine/CobaltForms.lean ====
section
/-! DEFINITION. Cobalt forms, opcodes 0xF8 to 0xFB (R300, R301, R342, R348), and the delivery of asynchronous and context faults (R401,
R403, R405). -/

namespace Sys2Proof.Machine

/-! ### Accesses to spans of bytes -/

/-- The widths in which `n` bytes at an address are read or written, each with its offset. -/
def spanPieces (ea : W64) (n : Nat) : Nat → Nat → List (Nat × Nat)
  | 0, _ => []
  | fuel + 1, off =>
    if n ≤ off then []
    else let w := pieceWidth (ea + BitVec.ofNat 64 off) (n - off) 16; (off, w) :: spanPieces ea n fuel (off + w)

/-- The reads of `n` bytes at an address. -/
def spanReads (ea : W64) (n : Nat) : List Access :=
  (spanPieces ea n n 0).map fun p => { ea := ea + BitVec.ofNat 64 p.1, op := .load p.2, align := p.2 }

/-- The bytes that they bring. -/
def spanBytes (ea : W64) (n : Nat) (got : List Answer) : List Byte :=
  ((spanPieces ea n n 0).zip got).flatMap fun e => bytesOf e.2.data e.1.2

/-- The writes of bytes at an address. -/
def spanWrites (ea : W64) (b : List Byte) : List Access :=
  (spanPieces ea b.length b.length 0).map fun p =>
    { ea := ea + BitVec.ofNat 64 p.1, op := .store p.2 (ofBytes 512 ((b.drop p.1).take p.2)), align := p.2, noPark := true }

/-! ### KHND, KDEL (R300, R348) -/

/-- R348 Table 6: a key record from its 128 bytes. -/
def keyRecOf (b : List Byte) : KeyRec :=
  { type := listNat b 0 1, part := (listByte b 1).setWidth 7, asid := ofBytes 16 ((b.drop 2).take 2), salt := ofBytes 32 ((b.drop 4).take 4),
    key := ofBytes 128 ((b.drop 8).take 16), rbase := BitVec.ofNat 64 (listNat b 24 8), rlen := BitVec.ofNat 64 (listNat b 32 8),
    rtag := BitVec.ofNat 64 (listNat b 40 8), wbase := BitVec.ofNat 64 (listNat b 48 8), wlen := BitVec.ofNat 64 (listNat b 56 8),
    wtag := BitVec.ofNat 64 (listNat b 64 8), lastIv := BitVec.ofNat 32 (listNat b 72 4), klist := BitVec.ofNat 32 (listNat b 76 4),
    rdlim := BitVec.ofNat 64 (listNat b 80 8), expire := BitVec.ofNat 64 (listNat b 88 8) }

/-- R348: whether a range and its tag array are well placed. -/
def rangeOk (base len tag : W64) : Bool :=
  decide (base.toNat % 4096 = 0) && decide (len.toNat % 4096 = 0) && decide (tag.toNat % 16 = 0) &&
  (len == 0 || decide (base.toNat + len.toNat ≤ 2 ^ 51))

/-- R348: the records that KHND takes. -/
def KeyRec.ok (k : KeyRec) : Bool :=
  decide (1 ≤ k.type) && decide (k.type ≤ 3) && rangeOk k.rbase k.rlen k.rtag && rangeOk k.wbase k.wlen k.wtag &&
  (k.type != 1 || (k.wlen == 0 && k.klist != 0xFFFFFFFF))

/-- R348: the reserved bits of a key record. -/
def keyRecClean (b : List Byte) : Bool := !(listByte b 1).msb && (b.drop 96).all (· == 0)

/-- Whether a binding that has not ended is under a handle, with its input or its output. -/
def Binding.holdsKey (x : Binding) (h : Nat) : Bool :=
  (x.state == 1 || x.state == 2 || x.state == 3) && ((patKh x.pat).toNat == h || match x.writesUnder with
    | some (p, _) => (patKh p).toNat == h
    | none => false)

/-- R300: whether a handle number may be issued: it names no handle, and no binding, of a running or of a saved stage, holds it. -/
def State.handleFree (s : State) (h : Nat) : Bool :=
  let held (l : Tab (Option Binding)) : Bool := l.any fun e => match e.2 with
    | some x => x.holdsKey h
    | none => false
  (look none s.sec.handles h).isNone && !held s.streams.bindings && !(s.brass.tasks.any fun e => match e.2.bind (·.saved) with
    | some v => held v.bindings
    | none => false)

/-- R300: installs a key record under the lowest free number; none when the table is full. -/
def State.installKey (s : State) (k : KeyRec) : State × BitVec 16 :=
  match (List.range 65535).find? fun h => s.handleFree (h + 1) with
  | some h =>
    ({ s with sec := { s.sec with handles := put none s.sec.handles (h + 1) (some { k with serial := s.sec.nextSerial }),
                                  nextSerial := s.sec.nextSerial + 1 } }, BitVec.ofNat 16 (h + 1))
  | none => (s, 0)

/-- KHND (R300, R348): reads the record from Cobalt's private memory, by accesses at virtual addresses of Cobalt's ASID (R259, log 148). -/
def execKhnd (a d : BitVec 4) (s : State) : Host.Outcome State Fault Refusal :=
  word (.khnd a d) always
    (fun n s =>
      let q := s.seq n
      let ea := q.get a
      s.seqScript n fun got => match (spanReads ea 128)[got.length]? with
        | some x => .inl x
        | none => .inr fun s =>
          let b := spanBytes ea 128 got
          let k := keyRecOf b
          if keyRecClean b && k.ok then let (s1, h) := s.installKey k; s1.seqNext n ((s1.seq n).set d (h.setWidth 64))
          else s.seqNext n ((s.seq n).set d 0))
    noBody noBody s

/-- KDEL (R300): running bindings under the handle stop at their next unit boundary (R482). -/
def execKdel (a : BitVec 4) (s : State) : Host.Outcome State Fault Refusal :=
  word (.kdel a) always
    (fun n s =>
      let q := s.seq n
      let s1 := s.setHandle ((q.get a).setWidth 16) none
      s1.seqNext n (s1.seq n))
    noBody noBody s

/-! ### MEXT, KSIGN (R301, R342) -/

/-- Digests and signatures as byte strings, first byte lowest (R340). -/
def digestBytes (x : BitVec 256) : List Byte := bytesOf x 32

/-- R301: extends a measurement register with a digest. -/
def State.extend (s : State) (k : Nat) (d : List Byte) : State :=
  let old := look 0 s.sec.meas k
  { s with sec := { s.sec with meas := put 0 s.sec.meas k (Config.sm3 (digestBytes old ++ d)) } }

/-- MEXT (R301, R342). -/
def execMext (a b : BitVec 4) (s : State) : Host.Outcome State Fault Refusal :=
  word (.mext a b) always
    (fun n s =>
      let q := s.seq n
      let g := q.get b
      let k := (g.setWidth 5 : BitVec 5).toNat
      let ea := q.get a
      if g.extractLsb' 5 59 ≠ 0 ∨ 7 < k ∨ (s.sec.bootLock ∧ k < 4) then s.badOperand n (.mext a b)
      else s.seqScript n fun got => match (spanReads ea 32)[got.length]? with
        | some x => .inl x
        | none => .inr fun s => let s1 := s.extend k (spanBytes ea 32 got); s1.seqNext n (s1.seq n))
    noBody noBody s

/-- R301, R341: the signature of a digest under the DeviceID key (0) or the alias key (1), over one draw of the free values. -/
def State.sign (s : State) (key : Nat) (digest : BitVec 256) : State × List Byte :=
  ({ s with free := s.free + 1 }, bytesOf (Config.sm2Sign (if key = 0 then s.sec.devKey else s.sec.aliasKey) digest s.free) 64)

/-- R301: the draw of a signature is made once, when the digest has come; the signature stands among the answers while it is written. -/
def State.ksignGo (s : State) (n key : Nat) (ea : W64) (got : List Answer) : State :=
  let (s1, sig) := s.sign key (ofBytes 256 (spanBytes ea 32 got))
  s1.setSeq n { s1.seq n with wait := some { got := got ++ [{ data := ofBytes 512 sig }] } }

/-- KSIGN (R301, R342): reads the digest, signs it, and writes the signature. -/
def execKsign (a b d : BitVec 4) (s : State) : Host.Outcome State Fault Refusal :=
  word (.ksign a b d) always
    (fun n s =>
      let q := s.seq n
      let k := ((q.get b).setWidth 2 : BitVec 2).toNat
      let ea := q.get a
      let reads := spanReads ea 32
      if 2 ≤ k ∨ (s.sec.bootLock ∧ k = 0) then s.badOperand n (.ksign a b d)
      else s.seqScript n fun got => match reads[got.length]?, got[reads.length]? with
        | some x, _ => .inl x
        | none, none => .inr fun s => s.ksignGo n k ea got
        | none, some sig => match (spanWrites (q.get d) (bytesOf sig.data 64))[got.length - reads.length - 1]? with
          | some x => .inl x
          | none => .inr fun s => s.seqNext n (s.seq n))
    noBody noBody s

/-! ### Delivery (R401, R403, R405) -/

/-- A fault that waits: when it came, where, and its record. -/
inductive Waiting where
  | island (k : Nat) (f : FaultRec)
  | binding (f : FaultRec)
  deriving DecidableEq, Repr

/-- The token of a class 3 record (R400). -/
def recToken (f : FaultRec) : Nat := (f.tinfo.extractLsb' 48 3).toNat

/-- R401: the faults that wait for a sequencer, each with its place in the order of delivery: cycle, cluster, island, token. -/
def State.waiting (s : State) (n : Nat) : List ((Nat × Nat × Nat × Nat) × Waiting) :=
  (s.islands.filterMap fun e => match e.2.fault with
    | some (f, c) => if (s.region e.2.region).seq = some n then some ((c, clusterOf e.1, s.islandNumber e.1, 0), .island e.1 f) else none
    | none => none) ++
  ((s.seq n).bindFaults.map fun e => ((e.2, n / 2, 24, recToken e.1), Waiting.binding e.1))

/-- Whether one place in the order comes before another. -/
def before (a b : Nat × Nat × Nat × Nat) : Bool :=
  decide (a.1 < b.1) || (a.1 == b.1 && (decide (a.2.1 < b.2.1) || (a.2.1 == b.2.1 && (decide (a.2.2.1 < b.2.2.1) ||
    (a.2.2.1 == b.2.2.1 && decide (a.2.2.2 < b.2.2.2))))))

/-- The first in the order. -/
def firstWaiting (l : List ((Nat × Nat × Nat × Nat) × Waiting)) : Option Waiting :=
  (l.foldl (fun (m : Option ((Nat × Nat × Nat × Nat) × Waiting)) x => match m with
    | some y => if before x.1 y.1 then some x else m
    | none => some x) none).map (·.2)

/-- R403: the disposition that a class 2 record carries. -/
def recDisp (f : FaultRec) : BitVec 2 := f.tinfo.extractLsb' 62 2

/-- R403: islands whose delivered record a later trap has overwritten are handled under their default disposition. -/
def State.disposeLost (s : State) (n : Nat) : State :=
  let q := s.seq n
  q.lostIsls.foldl (fun (t : State) k => match (t.island k).delivered with
    | some f => t.dispose k (recDisp f) f
    | none => t) (s.setSeq n { q with lostIsls := [] })

/-- R401: whether a sequencer stands at an instruction boundary, an IDLE or WAITT in progress counting as one. -/
def Seq.atBoundary (q : Seq) : Bool :=
  q.run == .running && q.barrier.isNone && (match q.wait with
    | none => true
    | some _ => match decode false (look 0 q.imem (q.pc.toNat / 4)) with
      | .ok (.idle _) => true
      | .ok (.waitt _) => true
      | _ => false)

/-- R401: the trap of a waiting fault; an IDLE or WAITT in progress ends, and the pc recorded is that of the word after it. -/
def Seq.deliverFault (q : Seq) (f : FaultRec) : Seq :=
  { q with wait := none }.trapEntry f.cause (if q.wait.isSome then q.pc + 4 else q.pc) f.tval f.tinfo f.mask

/-- R401: Brass takes the faults of stages whose control program does not run, or that have none. -/
def State.brassFaults (s : State) : State :=
  s.islands.foldl (fun (t : State) e => match e.2.fault with
    | some (f, _) =>
      let r := t.region e.2.region
      let idle : Bool := r.seq.isNone || (r.owner.bind fun o => (look none t.brass.tasks o.1).bind fun x => x.stages[o.2]?).any (·.done.isSome)
      if idle then (t.setIsland e.1 { t.island e.1 with fault := none }).dispose e.1 (recDisp f) f else t
    | none => t) s

/-- FAULT_DELIVERY (R401): the first waiting class 2 or 3 fault enters the trap of its sequencer at the first boundary with UNACK = 0. For
a number beyond the sequencers, Brass takes those of stages without a running program. -/
def execFaultDelivery (n : Nat) (s : State) : Host.Outcome State Fault Refusal :=
  .next <| if 32 < n then s.brassFaults
  else
    let s := s.disposeLost n
    let q := s.seq n
    if q.unack || !q.atBoundary then s
    else match firstWaiting (s.waiting n) with
    | none => s
    | some (.island k f) =>
      let s1 := s.setIsland k { s.island k with fault := none, delivered := some f }
      s1.setSeq n { q.deliverFault f with record0Isl := some k }
    | some (.binding f) => s.setSeq n { q.deliverFault f with bindFaults := q.bindFaults.filter (·.1 != f) }

/-- R406: the causes of records 0 and 1 as the DONE value of a halted stage carries them. -/
def Seq.haltCause (q : Seq) : BitVec 32 := (q.tcause1.setWidth 16 : BitVec 16) ++ (q.tcause0.setWidth 16 : BitVec 16)

/-- CONTEXT_FAULT (R405): Brass ends the task of a halted sequencer. -/
def execContextFault (n : Nat) (s : State) : Host.Outcome State Fault Refusal :=
  .next (if (s.seq n).run = .halted then s.endFor (s.seq n).region (s.seq n).haltCause else s)

end Sys2Proof.Machine
end

