-- ==== Sys2Proof/Machine/Queues.lean ====
section
/-! DEFINITION. Queues, publication, dependences and selection (R318 to R328). -/

namespace Sys2Proof.Machine

/-! ### Records (R322, R323) -/

def recSeq (r : BitVec 512) : W64 := r.extractLsb' 448 64
def recGang (r : BitVec 512) : W64 := r.extractLsb' 384 64
def recArg (r : BitVec 512) : W64 := r.extractLsb' 320 64
def recDepa (r : BitVec 512) : W64 := r.extractLsb' 256 64
def recCmpa (r : BitVec 512) : W64 := r.extractLsb' 192 64
def recDepv (r : BitVec 512) : BitVec 16 := r.extractLsb' 176 16
def recSlice (r : BitVec 512) : Nat := (r.extractLsb' 160 16).toNat
def recSkew (r : BitVec 512) : Nat := (r.extractLsb' 144 16).toNat
def recStag (r : BitVec 512) : BitVec 32 := r.extractLsb' 96 32

/-- R322: the reserved bits of a task record, and those of its GANG address. -/
def recClean (r : BitVec 512) : Bool := r.extractLsb' 128 16 == 0 && r.setWidth 96 == (0 : BitVec 96) && recGang r &&& 63 == 0

/-- R337: the skew limit of a task in µs. -/
def skewOf (r : BitVec 512) : Nat := if recSkew r = 0 then 100 else recSkew r

/-- R323: a stage entry with its reserved bits clear. -/
def entryClean (e : BitVec 512) : Bool := e.setWidth 227 == (0 : BitVec 227) && decide ((e.extractLsb' 227 5).toNat ≤ 16)

/-- Brass's work for a queue, and for a task. -/
def queueWork (q : Nat) : Nat := q
def taskWork (t : Nat) : Nat := 10000 + 2 * t

/-- Brass's work for a member request of another chip. -/
def memberWork (chip gang stage : Nat) : Nat := 10001 + 2 * (65536 * gang + 16 * chip + stage)

/-! ### Levels (R327) -/

/-- The tasks of a queue, with their numbers. -/
def State.tasksOf (s : State) (q : Nat) : List (Nat × Task) :=
  s.brass.tasks.filterMap fun e => match e.2 with
    | some x => if x.queue = q ∧ x.origin.isNone then some (e.1, x) else none
    | none => none

/-- The entry with the lowest position. -/
def firstPos (l : List (Nat × Task)) : Option (Nat × Task) :=
  l.foldl (fun (m : Option (Nat × Task)) e => match m with
    | some y => if e.2.pos.ult y.2.pos then some e else m
    | none => some e) none

/-- R333: whether every member of a saved gang, here and on other chips, has been saved. -/
def State.allSaved (s : State) (x : Task) : Bool :=
  x.state == .saved && x.stages.all fun st => stageChip st == s.chipId || x.savedAway.contains (stageChip st)

/-- R324, R327: the head of a queue: a pre-empted task comes first, then the lowest position. -/
def State.queueHead (s : State) (q : Nat) : Option (Nat × Task) :=
  let l := (s.tasksOf q).filter fun e => !e.2.ending
  (firstPos (l.filter fun e => s.allSaved e.2)).or (firstPos (l.filter fun e => e.2.state == .waiting || e.2.state == .ready))

/-- R318, R324: whether a queue has a dispatchable head. -/
def State.dispatchable (s : State) (q : Nat) (x : Queue) : Bool :=
  x.en && !x.ovf && match s.queueHead q with
  | some (_, t) => t.state == .saved || t.state == .ready
  | none => false

/-- The dispatchable queues of a partition at a level. -/
def State.queuesAt (s : State) (p : BitVec 7) (lvl : Nat) : List (Nat × Queue) :=
  s.brass.queues.filter fun e => e.2.part == p && e.2.lvl == lvl && s.dispatchable e.1 e.2

/-- R318: whether one of them is of a tenant that is selected: one of weight 0 is not (log 149). -/
def State.selects (s : State) (qs : List (Nat × Queue)) : Bool := qs.any fun e => look 0 s.brass.weights e.2.ten != 0

/-- R327: notes since when each level has held a dispatchable task. -/
def State.refreshLevels (s : State) (p : BitVec 7) : State :=
  let x := s.part p
  let ls := (List.range 8).foldl (fun (t : Tab Level) k =>
    let l := look {} t k
    put {} t k (if (s.queuesAt p k).isEmpty then { l with since := none, starved := false } else { l with since := some (l.since.getD s.now) }))
    x.levels
  s.setPart p { x with levels := ls, gc := if ls.any (·.2.starved) then x.gc else 0 }

/-! ### Publication (R320, R321, R323) -/

/-- R318, R320: the target of a queue's doorbell, which must map HBM. -/
def State.bellAt (s : State) (x : Queue) : Option Target :=
  match s.resolve brassUnit (brassIssuer x.asid x.part) x.db 8 { rd := true } with
  | .ok t => if inHbm t.la then some t else none
  | .error _ => none

/-- R320: from now on every write to a queue's doorbell line here is noted. -/
def State.listen (s : State) (x : Queue) : State :=
  match s.bellAt x with
  | some t =>
    let line := lineOf t.la
    if t.chip = s.chipId ∧ (look none s.mem.bells line).isNone then
      s.setMem { s.mem with bells := put none s.mem.bells line (some ((s.mem.read (64 * line) 8).setWidth 64)) }
    else s
  | none => s

/-- R320: the highest tail word that a write has left in a queue's doorbell line here. -/
def State.rung (s : State) (x : Queue) : W64 :=
  match s.bellAt x with
  | some t => if t.chip = s.chipId then (look none s.mem.bells (lineOf t.la)).getD 0 else 0
  | none => 0

/-- TAIL_UPDATE (R320). Of a doorbell on another chip Brass sees the word that it reads there (log 152). -/
def execTailUpdate (q : Nat) (s : State) : Host.Outcome State Fault Refusal :=
  let x := s.queue q
  .next <| if (s.bellAt x).isNone then s
  else match (s.listen x).brassAccess (queueWork q) x.asid x.part x.db (.load 8) with
  | .wait s1 => s1
  | .got a s1 =>
    let s2 := s1.endWork (queueWork q)
    let now : W64 := a.data.setWidth 64
    let high := (s.listen x).rung x
    let w := if now.ult high then high else now
    if a.fault.isNone ∧ x.tail.ult w then s2.setQueue q { s2.queue q with tail := w } else s2

/-- BR_QTAIL_WRITE (R320): AMMAX of the value on the tail word; where the word cannot be written, TAIL takes it. -/
def execBrQtailWrite (q : Nat) (v : BitVec 64) (s : State) : Host.Outcome State Fault Refusal :=
  let x := s.queue q
  let s1 := (s.brassStore x.asid x.part x.db (.atom .maxu 8 v 0)).getD s
  .next (if !s.barOpen then s else if x.tail.ult v then s1.setQueue q { s1.queue q with tail := v } else s1)

/-- QUEUE_ENABLE (R318): a write of BR_QCFG. A queue whose ring or doorbell has not been written is not enabled (R8). -/
def execQueueEnable (q : Nat) (v : BitVec 64) (s : State) : Host.Outcome State Fault Refusal :=
  let x := s.queue q
  let ok := v.setWidth 16 != (0 : BitVec 16) && decide ((v.extractLsb' 58 4).toNat ≤ 12) && x.ringSet && x.dbSet
  let cfg := (v &&& 0x7FFFFFFFFFC0FFFF) ||| (if v.getLsbD 63 && ok then 0x8000000000000000 else 0)
  let s1 := s.setQueue q { x with cfg := cfg }
  .next (if s.barOpen then ((s1.refreshLevels x.part).refreshLevels (s1.queue q).part).listen (s1.queue q) else s)

/-- R321: moves HEAD on, and stores it into the head word. -/
def State.advanceHead (s : State) (q : Nat) : State :=
  let x := s.queue q
  let s1 := s.setQueue q { x with head := x.head + 1 }
  (s1.brassStore x.asid x.part (x.db + 8) (.store 8 ((x.head + 1).setWidth 512))).getD s1

/-- R323: a refused record. -/
def State.refuseRecord (s : State) (q : Nat) : State := (s.setQueue q { s.queue q with badr := true }).advanceHead q

/-- A task of a queue, before its stages are known. -/
def State.newTask (s : State) (q : Nat) (r : BitVec 512) : Task :=
  let x := s.queue q
  { queue := q, pos := x.head, record := r, part := x.part, tenant := x.ten, level := x.lvl, asid := x.asid }

/-- Adds a task; its number is the next one. -/
def State.addTask (s : State) (x : Task) : State :=
  let t := s.brass.nextTask
  (s.setTask t (some x)).setBrass { (s.setTask t (some x)).brass with nextTask := t + 1 }

/-- R139: what Brass takes from a stage header of an image: none where it is no header. -/
def headerStage (x : Stage) (b : List Byte) : Option Stage :=
  let h : BitVec 128 := ofBytes 128 (b.take 16)
  let body := (b.drop 16).take 32
  if headerOk h none && bodyOk 1 0 body 0 0 then
    some { x with rows := (listByte body 0).toNat, cols := (listByte body 1).toNat, mask := listByte body 3, pin := (listByte body 4).toNat,
                  hasCode := listNat body 12 4 != 0 }
  else none

/-- What reading a gang descriptor comes to. -/
inductive Stages where
  | wait (s : State)
  | bad (s : State) (nstg : Nat)
  | ok (l : List Stage) (s : State)
  deriving DecidableEq, Repr

/-- R323: reads the stage entries from the descriptor's bytes, and the headers of the images of this chip's stages. -/
def State.readStages (s : State) (q : Nat) : List (BitVec 512) → Stages
  | [] => .ok [] s
  | e :: l =>
    let x := s.queue q
    let g : Stage := { entry := e }
    if !entryClean e then .bad s 0
    else
      let one : Option (Option Stage) × State :=
        if stageChip g ≠ s.chipId then (some (some g), s)
        else match s.brassBytes (queueWork q) x.asid x.part (stageImage g) 48 48 [] with
        | .wait s1 => (none, s1)
        | .fault s1 => (some none, s1)
        | .bytes b s1 => (some (headerStage g b), s1)
      match one with
      | (none, s1) => .wait s1
      | (some none, s1) => .bad s1 0
      | (some (some g1), s1) => match s1.readStages q l with
        | .ok gs s2 => .ok (g1 :: gs) s2
        | y => y

/-- R323, R325: reads the gang descriptor; a refusal tells its NSTG where that has been read and is in range. -/
def State.readGang (s : State) (q : Nat) (r : BitVec 512) : Stages :=
  let x := s.queue q
  match s.brassBytes (queueWork q) x.asid x.part (recGang r) 64 64 [] with
  | .wait s1 => .wait s1
  | .fault s1 => .bad s1 0
  | .bytes h s1 =>
    let nstg := (listByte h 0).toNat
    if nstg < 1 ∨ 14 < nstg then .bad s1 0
    else if (h.drop 1).any (· != 0) then .bad s1 nstg
    else match s1.brassBytes (queueWork q) x.asid x.part (recGang r + 64) (64 * nstg) (64 * nstg) [] with
    | .wait s2 => .wait s2
    | .fault s2 => .bad s2 nstg
    | .bytes b s2 => match s2.readStages q ((List.range nstg).map fun k => ofBytes 512 ((b.drop (64 * k)).take 64)) with
      | .bad s3 _ => .bad s3 nstg
      | r => r

/-- R327: the cost of a task in quads; of a stage of another chip, whose image stands there, a free count of cores, 96 at most (log 26). -/
def costOf (chip : Nat) (l : List Stage) : Nat :=
  ((l.map fun x => if stageChip x = chip then x.rows * x.cols else Config.farCores x.entry % 97).sum + 3) / 4

/-- QUEUE_RECORD_READ (R321, R323). -/
def execQueueRecordRead (q : Nat) (s : State) : Host.Outcome State Fault Refusal :=
  let x := s.queue q
  .next <| if !x.en || x.ovf || !x.head.ult x.tail then s
  else match s.brassAccess (queueWork q) x.asid x.part (x.slotAt x.head) (.load 64) with
  | .wait s1 => s1
  | .got a s1 =>
    let fin (s : State) : State := (s.endWork (queueWork q)).refreshLevels x.part
    if a.fault.isSome then fin (s1.refuseRecord q)
    else
      let r := a.data
      let d := (recSeq r - (x.head + 1)).toInt
      if d < 0 then s1.endWork (queueWork q)
      else if 0 < d then
        if d % x.size = 0 then fin (s1.setQueue q { s1.queue q with ovf := true }) else fin (s1.refuseRecord q)
      else
        let t := s1.newTask q r
        if !recClean r then fin ((s1.addTask { t with state := .ended, status := 1 }).refuseRecord q)
        else match s1.readGang q r with
        | .wait s2 => s2
        | .bad s2 nstg => fin ((s2.addTask { t with state := .ended, status := 1, nstg := nstg }).refuseRecord q)
        | .ok l s2 =>
          fin ((s2.addTask { t with stages := l, nstg := l.length, cost := costOf s2.chipId l, state := if recDepa r = 0 then .ready else .waiting }).advanceHead q)

/-! ### Dependences (R324) -/

/-- DEPENDENCE_CHECK (R324): the version of the line at DEPA, read as VRD reads it. -/
def execDependenceCheck (task : Nat) (s : State) : Host.Outcome State Fault Refusal :=
  .next <| match s.task task with
  | none => s
  | some x =>
    if x.state ≠ .waiting then s
    else
      let va := recDepa x.record
      let bad (s : State) : State := ((s.setTask task (some { x with state := .ended, status := 2 })).endWork (taskWork task)).refreshLevels x.part
      let here := match s.resolve brassUnit (brassIssuer x.asid x.part) va 64 (opNeed .readVer) with
        | .ok t => t.chip != s.chipId || inHbm t.la
        | .error _ => true
      if va.toNat % 64 ≠ 0 ∨ !here then bad s
      else match s.brassAccess (taskWork task) x.asid x.part va .readVer with
      | .wait s1 => s1
      | .got a s1 =>
        if a.fault.isSome then bad s1
        else if verGe a.ver (recDepv x.record) then
          ((s1.setTask task (some { x with state := .ready })).endWork (taskWork task)).refreshLevels x.part
        else s1.endWork (taskWork task)

/-! ### Selection (R326 to R328) -/

/-- Tenants with a dispatchable queue at a level, ascending, without repeats. -/
def tenantsOf (l : List (Nat × Queue)) : List Nat :=
  (List.range 1024).filter fun t => l.any fun e => e.2.ten == t

/-- The first element at or after `c`, cyclically. -/
def nextCyclic (l : List Nat) (c : Nat) : Option Nat := (l.find? (c ≤ ·)).or l.head?

/-- Whether `x` lies from `a` on before `b`, cyclically. -/
def passedOver (a b x : Nat) : Bool := if a ≤ b then decide (a ≤ x ∧ x < b) else decide (a ≤ x ∨ x < b)

/-- R327: the cursor comes to tenant `t`: those it passes have no dispatchable queue and lose their deficit. -/
def Level.goTo (l : Level) (t : Nat) : Level :=
  if l.cursor = t then l
  else { l with cursor := t, arrived := false, deficit := l.deficit.filter fun e => !passedOver l.cursor t e.1 }

/-- R327 drr: deficit round robin over the tenants of a level; gives the queue served. A tenant of weight 0 is passed over and keeps its
deficit. -/
def drr (qs : List (Nat × Queue)) (weight cost : Nat → Nat) : Nat → Level → Level × Option Nat
  | 0, l => (l, none)
  | fuel + 1, l =>
    match nextCyclic (tenantsOf qs) l.cursor with
    | none => (l, none)
    | some t =>
      let l1 := l.goTo t
      if weight t = 0 then drr qs weight cost fuel { l1 with cursor := (t + 1) % 1024, arrived := false }
      else
      let have_ := look 0 l1.deficit t + if l1.arrived then 0 else weight t
      let mine := (qs.filter fun e => e.2.ten == t).map (·.1)
      match nextCyclic mine (look 0 l1.served t + 1) with
      | none => (l1, none)
      | some q =>
        if cost q ≤ have_ then
          ({ l1 with arrived := true, deficit := put 0 l1.deficit t (have_ - cost q), served := put 0 l1.served t q }, some q)
        else drr qs weight cost fuel { l1 with cursor := (t + 1) % 1024, arrived := false, deficit := put 0 l1.deficit t have_ }

/-- The level of a task. -/
def State.levelOf (s : State) (t : Nat) : Nat := ((s.task t).map (·.level)).getD 0

/-- R326 to R328: the level from which the next task is taken: the highest one, above every pending head. On the sixteenth dispatch it is the
highest starved one, and where a pending head holds that back, none. -/
def State.nextLevel (s : State) (p : BitVec 7) : Option Nat :=
  let x := s.part p
  let above (k : Nat) : Bool := x.pending.all fun t => decide (s.levelOf t < k)
  let ls := (List.range 8).filter fun k => s.selects (s.queuesAt p k)
  match if x.gc = 15 then (ls.filter fun k => (look {} x.levels k : Level).starved).getLast? else none with
  | some k => if above k then some k else none
  | none => (ls.filter above).getLast?

/-- TASK_SELECT (R327). -/
def execTaskSelect (part : Nat) (s : State) : Host.Outcome State Fault Refusal :=
  let p : BitVec 7 := BitVec.ofNat 7 part
  .next <| if s.brass.stopped then s
  else match s.nextLevel p with
  | none => s
  | some k =>
    let qs := s.queuesAt p k
    let cost (q : Nat) : Nat := ((s.queueHead q).map (·.2.cost)).getD 0
    let (l1, q) := drr qs (fun t => (look 0 s.brass.weights t).toNat) cost (400 * (qs.length + 1)) (look {} (s.part p).levels k)
    match q.bind s.queueHead with
    | none => s
    | some (t, x) =>
      let y := s.part p
      let l2 : Level := { l1 with since := none, starved := false }
      let y1 := { y with levels := put {} y.levels k l2, gc := if l1.starved then 0 else (y.gc + 1) % 16, pending := t :: y.pending }
      ((s.setPart p y1).setTask t (some { x with state := .pending, urgent := l1.starved })).refreshLevels p

/-- LEVEL_STARVED (R327): 1 200 000 cycles without a dispatch. -/
def execLevelStarved (part lvl : Nat) (s : State) : Host.Outcome State Fault Refusal :=
  let p : BitVec 7 := BitVec.ofNat 7 part
  let x := s.part p
  let l := look {} x.levels lvl
  .next <| match l.since with
  | some c => if c + 1200000 ≤ s.now ∧ lvl < 8 then s.setPart p { x with levels := put {} x.levels lvl { l with starved := true } } else s
  | none => s

/-- R330: the slice of a task in cycles; 1200 to the µs. -/
def State.sliceOf (s : State) (x : Task) : Nat := 1200 * (if recSlice x.record = 0 then (s.queue x.queue).slice else recSlice x.record)

/-- SLICE_EXPIRY (R330). -/
def execSliceExpiry (task : Nat) (s : State) : Host.Outcome State Fault Refusal :=
  .next <| match s.task task with
  | some x => if x.state = .resident ∧ x.dispatched + s.sliceOf x ≤ s.now then s.setTask task (some { x with expired := true }) else s
  | none => s

end Sys2Proof.Machine
end

