-- ==== Sys2Proof/Machine/Stages.lean ====
section
/-! DEFINITION. What Brass does to stages: control programs, regions, restarts, images, frames (R157, R332, R334, R408). -/

namespace Sys2Proof.Machine

/-! ### Control programs (R157, R332) -/

/-- R332: the registers with which a control program starts. -/
def startRegs (arg dbase index stk : W64) : Tab W64 := put 0 (put 0 (put 0 (put 0 [] 1 arg) 2 dbase) 3 index) 15 stk

/-- R157: a sequencer as a restart or a start finds it: user level, every token free, no trap pending. -/
def Seq.freshRun (q : Seq) (pc : W64) (g : Tab W64) : Seq :=
  { q with g := g, preds := 0x80, tokens := 0, pc := pc, super := false, run := .running, unack := false, wait := none, barrier := none,
           bindFaults := [], record0Isl := none, lostIsls := [], begun := false }

/-- R332: starts the control program of a stage at its entry address. -/
def State.startProgram (s : State) (x : Task) (k region : Nat) (st : Stage) : State :=
  match st.seq with
  | none => s
  | some n =>
    let index := match x.origin with
      | some (_, _, m) => m
      | none => k
    let q := (s.seq n).freshRun (BitVec.ofNat 64 (s.region region).entry)
      (startRegs (recArg x.record) (stageDbase st) (BitVec.ofNat 64 index) (stageStk st))
    (s.setSeq n { q with asid := x.asid, part := x.part, region := some region }).post n x.part

/-- R157: restarts it at its restart point. -/
def State.restartProgram (s : State) (st : Stage) : State :=
  match st.seq with
  | none => s
  | some n =>
    let q := s.seq n
    s.setSeq n (q.freshRun (q.rstPc.setWidth 64) (put 0 (put 0 [] 1 q.rstArg) 15 q.rstSp))

/-! ### Regions of stages -/

/-- The cores of a region. -/
def State.regionCores (s : State) (k : Nat) : List Nat :=
  rectCores (clusterOf k) (rowOf k) (colOf k) (s.region k).rows (s.region k).cols

/-- The stages of a task with their regions here. -/
def Task.regions (x : Task) : List (Nat × Nat) :=
  x.stages.zipIdx.filterMap fun e => e.1.region.map fun k => (e.2, k)

/-- R401, R406, R408: holds every island of a region. -/
def State.holdRegion (s : State) (k : Nat) : State :=
  (s.region k).islands.foldl (fun (t : State) i =>
    let x := t.island i
    t.setIsland i { x with hold := some (x.hold.getD .preempt), stopAt := none }) s

/-- The bindings of a sequencer that have not ended. -/
def State.bindingsOf (s : State) (n : Nat) : List (Nat × Binding) :=
  s.streams.bindings.filterMap fun e => match e.2 with
    | some x => if x.seq = n ∧ (x.state = 1 ∨ x.state = 2 ∨ x.state = 3) ∧ !x.refetch then some (e.1, x) else none
    | none => none

/-- R406: stops every binding of a sequencer as SCNL does. -/
def State.stopBindings (s : State) (n : Nat) : State :=
  (s.bindingsOf n).foldl (fun (t : State) e => t.cancelBinding e.1 e.2) s

/-- Whether every request of a region's VEs has completed at its home, and their replay queues are empty (R408). -/
def State.regionSettled (s : State) (k : Nat) : Bool := (s.regionCores k).all fun c => s.quiet (.ve c) 5

/-- Empties the FIFOs at the input ports of a core. -/
def State.emptyFifos (s : State) (c : Nat) : State := s.clearFifos c []

/-- R406, R476: a region and its islands are given up; the sequencer of its stage is free. -/
def State.dropRegion (s : State) (k : Nat) : State :=
  let r := s.region k
  let s1 := (s.regionCores k).foldl (fun (t : State) c => t.emptyFifos c) s
  let s2 := r.islands.foldl (fun (t : State) i => t.setIsland i {}) s1
  let s3 := match r.seq with
    | some n => s2.setSeq n { s2.seq n with run := .off, region := none, replay := [], wait := none, barrier := none, bindFaults := [],
                                            tokens := 0, record0Isl := none, lostIsls := [], unack := false }
    | none => s2
  s3.setRegion k {}

/-! ### Frames (R334) -/

/-- R334: takes `n` frames off the top of a partition's free list, which holds at least as many. -/
def State.popFrames (s : State) (p : BitVec 7) (n : Nat) : State × List W64 :=
  let x := s.part p
  let top := x.pfTop.toNat
  let fs := (List.range n).map fun k => ((s.mem.read (x.pfBase.toNat + 8 * (top - 1 - k)) 8).setWidth 64 : W64)
  (s.setPart p { x with pfTop := x.pfTop - BitVec.ofNat 64 n }, fs)

/-- R334: returns frames to the list. -/
def State.pushFrames (s : State) (p : BitVec 7) (l : List W64) : State :=
  l.foldl (fun (t : State) f =>
    let x := t.part p
    let t1 := t.setMem (t.mem.write (x.pfBase.toNat + 8 * x.pfTop.toNat) 8 (f.setWidth 512))
    t1.setPart p { t1.part p with pfTop := x.pfTop + 1 }) s

/-- R359: the mark of blocks written under a partition's memory key, that of its lowest key table entry. -/
def State.keyMarkOf (s : State) (p : BitVec 7) : Nat :=
  match s.sec.keys.find? fun e => e.2.v && e.2.part == p with
  | some e => s.keyMark (some (BitVec.ofNat 12 e.1))
  | none => 0

/-- R24, R334: writes one frame under the partition's memory key; what its lines hold is not architectural (log 151). -/
def State.writeFrame (s : State) (p : BitVec 7) (f : W64) : State :=
  let n := s.free
  let m1 := (List.range 64).foldl (fun (m : Mem) k => m.write (f.toNat + 64 * k) 64 (Config.frameLine (n + k))) s.mem
  let m2 := (List.range 8).foldl (fun (m : Mem) k =>
    { m with clean := put false m.clean (blockOf f.toNat + k) true, keyOf := put 0 m.keyOf (blockOf f.toNat + k) (s.keyMarkOf p) }) m1
  { s.setMem m2 with free := n + 64 }

/-- R334: writes the frames of a save; gives each with the number of what its lines hold. -/
def State.writeFrames (s : State) (p : BitVec 7) (l : List W64) : State × List (W64 × Nat) :=
  l.foldl (fun (r : State × List (W64 × Nat)) f => (r.1.writeFrame p f, r.2 ++ [(f, r.1.free)])) (s, [])

/-- R362: whether a frame still holds what a save wrote into it. -/
def State.frameHolds (s : State) (e : W64 × Nat) : Bool :=
  (List.range 64).all fun k =>
    !s.unreadable (e.1.toNat + 64 * k) && s.mem.read (e.1.toNat + 64 * k) 64 == Config.frameLine (e.2 + k)

/-- R464: a task waits for frames; the PF is told when the partition had no wait. -/
def State.waitFrames (s : State) (p : BitVec 7) (t : Nat) (placing : Bool) (need held : Nat) : State :=
  let x := s.part p
  match x.wait with
  | none => (s.setPart p { x with wait := some (t, placing, need, held) }).interrupt 0 3
  | some w =>
    if w.1 = t then s.setPart p { x with wait := some (t, placing, need, held) }
    else s.setPart p { x with behind := if x.behind.contains t then x.behind else x.behind ++ [t] }

/-- R465: whether a task may take frames: nothing waits, or it is the one that waits. -/
def State.mayTake (s : State) (p : BitVec 7) (t : Nat) : Bool :=
  let x := s.part p
  match x.wait with
  | none => x.behind.isEmpty || x.behind.head? == some t
  | some w => w.1 == t

/-- The wait of a task has ended. -/
def State.endFrameWait (s : State) (p : BitVec 7) (t : Nat) : State :=
  let x := s.part p
  s.setPart p { x with wait := if (x.wait.map (·.1)) == some t then none else x.wait, behind := x.behind.filter (· != t) }

/-! ### Gang channels (R467) -/

/-- The channels of a task. -/
def State.chansOf (s : State) (t : Nat) : List (Nat × GangChannel) :=
  s.brass.chans.filterMap fun e => match e.2 with
    | some g => if g.task = t then some (e.1, g) else none
    | none => none

/-- R467: the gang channels that the loaded rows of a task's stages configure: FIFO key, producer and consumer. -/
def State.gangEdges (s : State) (x : Task) : List (Nat × Nat × Nat) :=
  let rs := x.regions
  let stageAt (c : Nat) : Option Nat := (rs.find? fun e => regionHas e.2 (s.region e.2) c).map (·.1)
  rs.flatMap fun e => (s.regionCores e.2).flatMap fun c => (List.range 4).filterMap fun d =>
    match neighbour c d with
    | some n => (match stageAt n with
      | some m => if m ≠ e.1 ∧ s.routesTo c d then some (4 * n + opposite d, e.1, m) else none
      | none => none)
    | none => none

/-- R476: a task's channels end; their frames return. -/
def State.dropChans (s : State) (t : Nat) (p : BitVec 7) : State :=
  (s.chansOf t).foldl (fun (u : State) e => (u.setBrass { u.brass with chans := put none u.brass.chans e.1 none }).pushFrames p e.2.frames) s

/-! ### Images (R332) -/

/-- What reading an image comes to. -/
inductive Fetch where
  | wait (s : State)
  | got (p : Parsed) (s : State)
  deriving DecidableEq, Repr

/-- Reads an image record by record. -/
def State.readImage (s : State) (work : Nat) (asid : BitVec 16) (part : BitVec 7) (va : W64) (have_ : List Byte) : Nat → Fetch
  | 0 => .got .bad s
  | fuel + 1 =>
    match parseImage have_ with
    | .more n => (match s.brassBytes work asid part va n n have_ with
      | .wait s1 => .wait s1
      | .fault s1 => .got .bad s1
      | .bytes b s1 => s1.readImage work asid part va b fuel)
    | p => .got p s

/-- R139, R332: the writes of the data records at the data base. -/
def dataWrites (i : Image) (alt : Nat) (base : W64) : List (W64 × Nat × BitVec 512) :=
  ((i.recs.filter fun r => r.type == 7 && (r.alt == 0 || r.alt == alt))).flatMap fun r =>
    let b := r.body.drop 8
    let a := base + ofBytes 64 (r.body.take 8)
    (spanPieces a b.length b.length 0).map fun p => (a + BitVec.ofNat 64 p.1, p.2, ofBytes 512 ((b.drop p.1).take p.2))

/-- Whether an access of Brass would meet a line that a group holds. -/
def State.brassHeld (s : State) (asid : BitVec 16) (part : BitVec 7) (va : W64) (w : Nat) : Bool :=
  match s.resolve brassUnit (brassIssuer asid part) va w (opNeed (.store w 0)) with
  | .ok t => t.chip == s.chipId && (look none s.mem.held (lineOf t.la)).isSome
  | .error _ => false

/-- Makes the writes; none where one of them faults. -/
def State.writeAll (s : State) (asid : BitVec 16) (part : BitVec 7) (l : List (W64 × Nat × BitVec 512)) : Option State :=
  l.foldl (fun (t : Option State) e => t.bind fun u => u.brassStore asid part e.1 (.store e.2.1 e.2.2)) (some s)

/-- R323, R332: the weight references of an image: entry n of WTAB, with the tiles along N of record n. -/
def weightsOf (i : Image) (alt : Nat) (tab : List Byte) (nw : Nat) : List Weight :=
  (List.range nw).map fun n =>
    let across := match i.pick 0x0A alt n with
      | some r => listNat r.body 8 4 / 64
      | none => 0
    { index := ofBytes 64 ((tab.drop (16 * n)).take 8), tiles := ofBytes 64 ((tab.drop (16 * n + 8)).take 8), across := across }

/-- How many weight references an image has for an alternative. -/
def Image.refs (i : Image) (alt : Nat) : Nat := ((List.range 16).filter fun n => (i.pick 0x0A alt n).isSome).length

/-! ### Restart from the restart round (R408) -/

/-- R408: the islands of a region that have a restart round, by number; none when one of them has none. -/
def State.restartRounds (s : State) (k : Nat) : Option (List (BitVec 8)) :=
  let l := (s.region k).islands.map s.island
  if l.all (·.rval) then some (l.map (·.rstRnd)) else none

/-- R408 step 4: what a restart keeps of an operand slot. -/
def Slot.restarted (x : Slot) : Slot :=
  if x.mirror then { x with claims := 0, pend := false, claiming := false, holds := 0, fill := none, off := 0, tnum := 0 } else {}

/-- R408 steps 4 and 5: a VE and an MN at their reset values, with round `r`. -/
def Core.restarted (c : Core) (r : BitVec 8) : Core :=
  { c with
    ve := { rows := c.ve.rows, consts := c.ve.consts, rnd := r }
    mn := { rows := c.mn.rows, tables := c.mn.tables, lost := c.mn.lost, rnd := r,
            slots := c.mn.slots.filterMap fun e => if e.2.restarted = {} then none else some (e.1, e.2.restarted),
            free := [0, 1, 2, 3].filter fun a => !c.mn.lost.contains a } }

/-- R408: an island as a restart leaves it, not yet enabled; `r` is its restart round. -/
def Island.restarted (i : Island) (r : Option (BitVec 8)) : Island :=
  { desc := i.desc, region := i.region, waived := i.waived, early := i.early, heard := i.heard, rstRnd := r.getD 0, rval := r.isSome,
    round := match r with
      | some x => x + 1
      | none => 0 }

/-- R408 step 5: the round at which the elements of a core go on. -/
def State.coreRound (s : State) (c : Nat) : BitVec 8 :=
  match s.islandOf c with
  | some k => (s.island k).round
  | none => 0

/-- The core that a port serves. -/
def servedCore (port : Nat) : Nat := match portSlot port with
  | some (c, _) => c
  | none => (portCore port).1

/-- R408 step 6: a binding of the stage is made again, at the restart position that its port recorded for the restart round. -/
def State.rebind (s : State) (b : Nat) (x : Binding) : State :=
  let p := s.port x.port
  let i := (s.islandOf (servedCore x.port)).map s.island
  let r : Option (BitVec 8) := match i with
    | some i => if i.rval then some i.rstRnd else none
    | none => none
  let kept := ((p.newest.toList ++ p.older.toList).filter fun e => some e.2 == r).head?
  let pos := (kept.map (·.1)).getD 0
  -- R263, R407: a run in progress is written; the replay writes its last elements again, with the same bytes
  let y : Binding := { x with start := pos, pos := pos, state := 1, began := true, cancelled := false, pack := 0, packed := 0, got := 0, out := [],
                              run := none, plain := [], unitNo := if x.write then x.unitNo else none, unit := [], writes := x.run.toList, ask := none, reply := none, ended := false,
                              fill := 0, filled := 0, gpa := none, allOo := true, tile := none, broken := none, loose := true, fault := none }
  let queue := if p.queue.contains b then p.queue else p.queue ++ [b]
  let rnd : BitVec 8 := match r with
    | some v => v + 1
    | none => 0
  (s.setBinding b (some y)).setPort x.port { p with rnd := rnd, newest := kept, older := none, toks := [], queue := queue }

/-- R408 step 5: the ports of a core: those of its vector element and of its slots, and the fabric ports beside it. -/
def corePorts (c : Nat) : List Nat :=
  (List.range 4).map (vectorPort c) ++ (List.range 32).map (slotPort c) ++ [edgePort c 0, edgePort c 2].filterMap id

/-- R408 steps 4 to 6 for a region whose islands are held and settled; the islands are not enabled yet. The FIFOs of gang channels are
left to the replay (R469). -/
def State.resetRegion (s : State) (k : Nat) (rounds : Option (List (BitVec 8))) : State :=
  let r := s.region k
  let s1 := (r.islands.zipIdx).foldl (fun (t : State) e => t.setIsland e.1 ((t.island e.1).restarted (rounds.bind fun l => l[e.2]?))) s
  let s2 := (s1.regionCores k).foldl (fun (t : State) c =>
    let t0 := t.setCore c ((t.core c).restarted (t.coreRound c))
    let t1 := (corePorts c).foldl (fun (u : State) p => u.setPort p { u.port p with rnd := t.coreRound c }) t0
    (List.range 4).foldl (fun (u : State) d =>
      if (u.chan (4 * c + d)).isSome then u else { u.setFifo (4 * c + d) [] with transit := put [] u.transit (4 * c + d) [] }) t1) s1
  match r.seq with
  | none => s2
  | some n => (s2.bindingsOf n).foldl (fun (t : State) e => match e.2.kind with
    | .stream => t.rebind e.1 e.2
    | _ => t.cancelBinding e.1 e.2) s2

/-- R408 step 8: every island of a region enabled. -/
def State.enableRegion (s : State) (k : Nat) : State :=
  (s.region k).islands.foldl (fun (t : State) i => t.setIsland i { t.island i with enabled := true, hold := none }) s

/-- R408 step 7: the control program goes on at its restart point, or from its start where the stage has no restart round. -/
def State.goOn (s : State) (x : Task) (k region : Nat) (st : Stage) (rounds : Option (List (BitVec 8))) : State :=
  if rounds.isSome then s.restartProgram st else s.startProgram x k region st

/-- Whether the bindings of a stage have nothing under way. -/
def State.bindingsIdle (s : State) (n : Option Nat) : Bool :=
  match n with
  | none => true
  | some n => (s.bindingsOf n).all fun e => e.2.writes.isEmpty && (e.2.ask.isNone || e.2.reply.isSome)

end Sys2Proof.Machine
end

