-- ==== Sys2Proof/Machine/Contexts.lean ====
section
/-! DEFINITION. Contexts: what a save records of a task's stages, how it is taken out of the machine, put back in place, or restarted
somewhere else (R76, R190, R217, R218, R227, R333, R335, R362, R408, R486). -/

namespace Sys2Proof.Machine

/-! ### What a save records (R333) -/

/-- R76: a slot as it is saved: a mirrored one, also one that is being fetched again, as its state and fill record. -/
def Slot.saved (x : Slot) : Slot :=
  if x.refill.isSome then { x with state := 2, refill := none, data := 0 }
  else if x.mirror && x.state == 2 then { x with data := 0 }
  else x

/-- A core as it is saved. -/
def State.savedCore (s : State) (c : Nat) : Core :=
  let k := s.core c
  { k with mn := { k.mn with slots := k.mn.slots.map fun e => (e.1, e.2.saved) } }

/-- R218: the handles of the items of cores that are saved sealed: the delivered bytes of each weight buffer, and each decode table; 0 where
the partition's memory key seals them. -/
def State.sealsOf (s : State) (cores : List Nat) : List (BitVec 16) :=
  cores.flatMap fun c => ((s.mn c).buffers.filter fun e => e.2.nsym != 0).map (·.2.kh) ++ (s.mn c).tables.map (·.2.kh)

/-- R486: the bindings made by sequencers, also those that have ended and whose outcome a token still names. -/
def State.bindingsBy (s : State) (seqs : List Nat) : Tab (Option Binding) :=
  s.streams.bindings.filter fun e => match e.2 with
    | some x => seqs.contains x.seq && !x.refetch
    | none => false

/-- R333: the context of regions, their sequencers and gang channels. A sequencer that ran is recorded as saved. -/
def State.contextOf (s : State) (rs seqs : List Nat) (chans : Tab (Option GangChannel)) (unsettled : Bool) : Saved :=
  let cores := rs.flatMap s.regionCores
  let isls := rs.flatMap fun k => (s.region k).islands
  { cores := (s.cores.filter fun e => cores.contains e.1).map fun e => (e.1, s.savedCore e.1)
    islands := s.islands.filter fun e => isls.contains e.1
    regions := s.regions.filter fun e => rs.contains e.1
    seqs := s.seqs.filter fun e => seqs.contains e.1
    fifos := s.fifos.filter fun e => cores.contains (e.1 / 4)
    transit := s.transit.filter fun e => cores.contains (e.1 / 4)
    bindings := s.bindingsBy seqs
    ports := s.streams.ports.filter fun e => decide (e.1 < 100000) && cores.contains (servedCore e.1)
    chans := chans
    unsettled := unsettled
    at_ := s.now }

/-- R362: counts one sealed item under a handle; one whose count is exhausted is deleted as by KDEL. -/
def State.countSeal (s : State) (h : BitVec 16) : State :=
  match s.handle h with
  | some k => s.setHandle h (if 2 ^ 32 ≤ k.saves + 1 then none else some { k with saves := k.saves + 1 })
  | none => s

/-- R218, R362: the seal of one item: its handle, that handle's SERIAL, and the SAVECNT of its IV. -/
def State.sealUnder (s : State) (h : BitVec 16) : Seal :=
  match s.handle h with
  | some k => { kh := h, serial := k.serial.toNat, count := k.saves }
  | none => { kh := h }

/-- R218, R362: seals items one after the other. -/
def State.sealItems (s : State) (l : List (BitVec 16)) : State × List Seal :=
  l.foldl (fun (r : State × List Seal) h => (r.1.countSeal h, r.2 ++ [r.1.sealUnder h])) (s, [])

/-- R362: whether a sealed context cannot be opened: a handle has been deleted, or what stands in a frame is not what the save wrote, so that
a tag fails. -/
def State.sealsLost (s : State) (v : Saved) : Bool :=
  (v.seals.any fun e => e.kh != 0 && match s.handle e.kh with
    | some k => k.serial.toNat != e.serial
    | none => true) || (!v.seals.isEmpty && v.stamps.any fun e => !s.frameHolds e)

/-- Takes a binding out of the machine. -/
def State.dropBinding (s : State) (b : Nat) (x : Binding) : State := (s.leavePort b x.port).setBinding b none

/-- A core whose context has been taken away. -/
def Core.emptied (c : Core) : Core :=
  { failed := c.failed, mn := { lost := c.mn.lost, free := [0, 1, 2, 3].filter fun a => !c.mn.lost.contains a } }

/-- Takes a context's regions, cores, ports and bindings out of the machine; the cores are free. -/
def State.takeOut (s : State) (rs : List Nat) (v : Saved) : State :=
  let cores := rs.flatMap s.regionCores
  let s1 := v.bindings.foldl (fun (u : State) e => match e.2 with
    | some x => u.dropBinding e.1 x
    | none => u) s
  let again := s1.streams.bindings.filter fun e => match e.2 with
    | some x => x.refetch && cores.contains (servedCore x.port)
    | none => false
  let s2 := again.foldl (fun (u : State) e => match e.2 with
    | some x => u.dropBinding e.1 x
    | none => u) s1
  let s3 := rs.foldl (fun (u : State) k => u.dropRegion k) s2
  let s4 := cores.foldl (fun (u : State) c => u.setCore c (u.core c).emptied) s3
  v.ports.foldl (fun (u : State) e => u.setPort e.1 {}) s4

/-! ### Requests of a saved context (R227) -/

/-- Renames the issuers of accesses that are under way, as their contexts go or come back. -/
def State.renameIssuers (s : State) (f : Actor → Actor) : State :=
  let iss (i : Issuer) : Issuer := if i.chip.isNone then { i with who := f i.who } else i
  let req (r : Req) : Req := { r with iss := iss r.iss }
  let staged (e : Staged) : Staged := { e with iss := iss e.iss }
  let m := s.mem
  s.setMem { m with
    flight := m.flight.map req
    staged := m.staged.map staged
    due := m.due.map fun d => { d with staged := staged d.staged }
    away := m.away.map fun e => (e.1, e.2.map req)
    groupStores := m.groupStores.map fun g => { g with req := req g.req } }

/-- The names that a task's cores and sequencers bear while they are saved. -/
def saveName (task : Nat) (cores seqs : List Nat) (a : Actor) : Actor :=
  match a with
  | .ve c => if cores.contains c then .ve (savedName task c) else a
  | .seq n => if seqs.contains n then .seq (savedName task n) else a
  | .mn _ => a

/-- The names with which they come back; a sequencer may be another of its cluster. -/
def restoreName (task : Nat) (seqNow : Nat → Nat) (a : Actor) : Actor :=
  match a with
  | .ve c => if c / 2000 = task + 1 then .ve (c % 2000) else a
  | .seq n => if n / 2000 = task + 1 then .seq (seqNow (n % 2000)) else a
  | .mn _ => a

/-- Whether an access of a saved context is still under way, or parked. -/
def State.savedBusy (s : State) (task : Nat) (v : Saved) : Bool :=
  let mine (i : Issuer) : Bool := i.chip.isNone && match i.who with
    | .ve c => c / 2000 == task + 1
    | _ => false
  (s.mem.flight.any fun r => mine r.iss) || (s.mem.staged.any fun e => mine e.iss) || (s.mem.due.any fun d => mine d.staged.iss) ||
  (s.mem.away.any fun e => match e.2 with
    | some r => mine r.iss
    | none => false) || v.cores.any fun e => !e.2.ve.replay.isEmpty

/-- R434: the parked stores of a context may retry when its issuer is restored. -/
def Saved.wake (v : Saved) : Saved :=
  let all (l : List Parked) : List Parked := l.map fun p => { p with retry := true }
  { v with cores := v.cores.map fun e => (e.1, { e.2 with ve := { e.2.ve with replay := all e.2.ve.replay } })
           seqs := v.seqs.map fun e => (e.1, { e.2 with replay := all e.2.replay }) }

/-! ### Restore in place (R335, R411) -/

/-- R190, R217: a decode that was running goes on from the bytes that its slot holds now, at the segment of the first symbol that has not been
delivered; the symbols of that segment that have been are decoded again and discarded. -/
def Mn.resumeDecode (m : Mn) : Mn :=
  match m.queue with
  | e :: rest =>
    let b := m.buffer e.buf
    if e.running && b.fmt.isSome then
      let x := m.slot e.slot.toNat
      let start := 32 * b.off.toNat
      let h := headerOf (BitVec.ofNat 256 (x.bytes start 32))
      let f := b.nsym / 1024
      let fault (c i : Nat) : DecodeFault := { cause := c, sym := i, slot := e.slot, off := b.off, tnum := x.tnum - 1 }
      if x.len.toNat ≤ b.off.toNat || !h.ok b.off.toNat x.len.toNat then
        { m with queue := { e with upTo := b.nsym, bad := some (fault 1 (1024 * f)) } :: rest }
      else
        let r : TileRun := runTile m h x start f 0
        { m with queue := { e with image := r.image, upTo := r.upTo, bad := r.bad.map fun (p : Nat × Nat) => fault p.1 p.2 } :: rest }
    else m
  | [] => m

/-- A region whose work names a sequencer. -/
def Region.mapSeq (r : Region) (f : Nat → Nat) : Region :=
  let ask (a : Option Ask) : Option Ask := a.map fun x => { x with seq := f x.seq }
  { r with seq := r.seq.map f, shadowSeq := r.shadowSeq.map f, swap := ask r.swap, stop := ask r.stop, drain := ask r.drain }

/-- Puts a context back where it was, its islands still held and its sequencers still saved. A core that has failed since stays failed
(R18). -/
def State.putBack (s : State) (task : Nat) (v : Saved) (f : Nat → Nat) : State :=
  let w := v.wake
  let s1 := w.cores.foldl (fun (u : State) e => u.setCore e.1 { e.2 with failed := e.2.failed || (u.core e.1).failed }) s
  let s2 := w.islands.foldl (fun (u : State) e => u.setIsland e.1 e.2) s1
  let s3 := w.regions.foldl (fun (u : State) e => u.setRegion e.1 (e.2.mapSeq f)) s2
  let s4 := w.seqs.foldl (fun (u : State) e => u.setSeq (f e.1) e.2) s3
  let s5 := w.fifos.foldl (fun (u : State) e => u.setFifo e.1 e.2) s4
  let s6 := w.transit.foldl (fun (u : State) e => { u with transit := put [] u.transit e.1 e.2 }) s5
  let s7 := w.ports.foldl (fun (u : State) e => u.setPort e.1 e.2) s6
  let s8 := w.bindings.foldl (fun (u : State) e => match e.2 with
    | some x =>
      let u1 := u.setBinding e.1 (some { x with seq := f x.seq })
      if 100000 ≤ x.port ∧ (x.state = 1 ∨ x.state = 2) then
        u1.setPort x.port { u1.port x.port with queue := (u1.port x.port).queue ++ [e.1] }
      else u1
    | none => u) s7
  let s9 := w.chans.foldl (fun (u : State) e => u.setChan e.1 (e.2.getD { task := task, producer := 0, consumer := 0 })) s8
  s9.renameIssuers (restoreName task f)

/-- R335, R411: the islands that Brass stopped and the sequencers it saved go on; what the program itself held stays held. -/
def State.resumeRegion (s : State) (k : Nat) : State :=
  (s.region k).islands.foldl (fun (u : State) i =>
    let x := u.island i
    if x.hold = some .preempt then u.setIsland i { x with hold := if x.fault.isSome then some .fault else none } else u) s

def State.resumeSeq (s : State) (n : Nat) : State :=
  let q := s.seq n
  if q.run = .saved then s.setSeq n { q with run := .running } else s

/-! ### Restart in another place (R335, R408, R415) -/

/-- Where a core of a region lies when the region's north-west corner moves (log 28). -/
def moveCore (old new c : Nat) : Nat :=
  coreAt (clusterOf new) (rowOf new + rowOf c - rowOf old) (colOf new + colOf c - colOf old)

/-- R408 step 6: the port of a binding after its region has moved (log 28). -/
def movePort (old new port : Nat) : Nat :=
  if port < 1000 then
    let (c, d) := portCore port
    let col := colOf (moveCore old new c)
    fabricPort (clusterOf new) (if d = 0 then col / 2 else 6 + col / 2) (col % 2)
  else if port < 10000 then vectorPort (moveCore old new (portCore port).1) (portCore port).2
  else match portSlot port with
    | some (c, n) => slotPort (moveCore old new c) n
    | none => islandPort (clusterOf new) ((port - 100000) % 12)

/-- R56, R408: the restart rounds of a saved region's islands; none when one of them has none. -/
def Saved.rounds (v : Saved) (r : Region) : Option (List (BitVec 8)) :=
  let l : List Island := r.islands.map fun k => look {} v.islands k
  if l.all (·.rval) then some (l.map (·.rstRnd)) else none

/-- Rounds for a region whose islands have changed: its own by number, or the first island's where the number has changed. -/
def roundsFor (old : Option (List (BitVec 8))) (count : Nat) : Option (List (BitVec 8)) :=
  old.map fun l => if l.length = count then l else List.replicate count (l.headD 0)

/-- R143: brings the loaded code of a sequencer that Brass is about to start into its instruction memory. -/
def State.bringCode (s : State) (seq : Option Nat) : State :=
  match seq with
  | none => s
  | some n => match (s.seq n).code with
    | some (_, l) => s.setSeq n { s.seq n with imem := loadWords l, code := none }
    | none => s

/-- R218, R408 step 4: decode tables and mirrored slots move with their stage. -/
def State.moveKept (s : State) (v : Saved) (cores : List (Nat × Nat)) : State :=
  cores.foldl (fun (u : State) e =>
    let old : Core := look {} v.cores e.1
    let m : Mn := u.mn e.2
    let slots : Tab Slot := old.mn.slots.filterMap fun y => if y.2.restarted = {} then none else some (y.1, y.2.restarted)
    u.setMn e.2 { m with tables := old.mn.tables, slots := slots }) s

/-- Loads a stage's image on its new place, and brings what moves with it from its old one: the registers of its sequencer, its bindings
with what their ports recorded, decode tables and mirrored slots. None where the image cannot be loaded. -/
def State.restage (s : State) (x : Task) (st : Stage) (old key : Nat) (seq : Option Nat) (alt : Nat) (v : Saved) (i : Image) : Option State :=
  let r : Region := look {} v.regions old
  let f : Fit := { clu := clusterOf key, row := rowOf key, col := colOf key, alt := alt, seq := seq, part := x.part, asid := x.asid }
  let s0 := match seq, r.seq with
    | some n, some m => s.setSeq n { (look {} v.seqs m : Seq) with region := some key, part := x.part, run := .saved, wait := none, barrier := none }
    | _, _ => s
  let (status, ds) := s0.imageStatus i f
  if status ≠ 0 then none
  else
    let rows := foldRows st.rows alt
    let cols := foldCols st.cols alt
    let from_ := rectCores (clusterOf old) (rowOf old) (colOf old) rows cols
    let s1 := ((s0.setRegion key { s0.region key with weights := r.weights }).loadImage i f ds).swapRegion key []
    let s2 := (s1.bringCode seq).moveKept v (from_.zip (s1.regionCores key))
    let s3 := (s2.region key).islands.foldl (fun (u : State) k => u.setIsland k { u.island k with enabled := false }) s2
    some (v.bindings.foldl (fun (u : State) e => match e.2 with
      | some y =>
        if r.seq = some y.seq then
          let port := movePort old key y.port
          let p : Port := look {} v.ports y.port
          let u1 := u.setBinding e.1 (some { y with seq := seq.getD y.seq, port := port, si := 12 * clusterOf key + y.si % 12, region := some key })
          u1.setPort port { u1.port port with rnd := p.rnd, newest := p.newest, older := p.older }
        else u
      | none => u) s3)

/-- R408, R469: the channels into a stage move with it, with what has been sent again on them. -/
def State.moveChans (s : State) (t stage old new : Nat) (v : Saved) : State :=
  (s.chansOf t).foldl (fun (u : State) e =>
    if e.2.consumer = stage then
      let k := 4 * moveCore old new (e.1 / 4) + e.1 % 4
      let u1 := (u.setBrass { u.brass with chans := put none u.brass.chans e.1 none }).setChan k e.2
      { u1 with transit := put [] u1.transit k (look [] v.transit e.1) }
    else u) s

/-! ### Mirrored slots (R76, R217, R484) -/

/-- R76, R217, R484: a stream island of the slot's cluster fetches a mirrored slot again, ahead of the fills that its port has queued. -/
def State.refetch (s : State) (c n : Nat) (seq : Nat) (asid : BitVec 16) (part : BitVec 7) (region : Option Nat) : State :=
  let y := (s.mn c).slot n
  match y.fillRec with
  | none => s
  | some (pat, lay, off, w) =>
    let si := ((List.range 12).find? fun k => look 0 s.brass.siOf (12 * clusterOf c + k) == part).getD 0
    let b := s.streams.next
    let x : Binding := { kind := .stream, seq := seq, tok := 0, port := slotPort c n, write := false, pat := pat, lay := lay, off := off,
                         asid := asid, part := part, si := 12 * clusterOf c + si, region := region, user := true, weight := w, refetch := true,
                         began := true }
    let s1 := { s with streams := { s.streams with bindings := put none s.streams.bindings b (some x), next := b + 1 } }
    let s2 := s1.setPort (slotPort c n) { s1.port (slotPort c n) with queue := b :: (s1.port (slotPort c n)).queue }
    s2.setMn c ((s2.mn c).setSlot n { y with state := 1, refill := some b, data := 0 })

/-- Fetches every mirrored slot of a region again. -/
def State.refetchAll (s : State) (x : Task) (key : Nat) (seq : Option Nat) : State :=
  (s.regionCores key).foldl (fun (u : State) c => ((u.mn c).slots.filter fun e => e.2.mirror && e.2.state == 2).foldl
    (fun (v : State) e => v.refetch c e.1 (seq.getD 0) x.asid x.part (some key)) u) s

/-- Whether a slot of a region is still being fetched again. -/
def State.refetching (s : State) (key : Nat) : Bool :=
  let cores := s.regionCores key
  s.streams.bindings.any fun e => match e.2 with
    | some x => x.refetch && cores.contains (servedCore x.port) && (x.state == 1 || x.state == 2)
    | none => false

end Sys2Proof.Machine
end

