-- ==== Sys2Proof/Machine/Placement.lean ====
section
/-! DEFINITION. Placement, the start of stages, completion, the end of a task, restarts and recovery (R20, R323, R325, R329 to R332, R403 to
R408, R412 to R415, R467 to R471). -/

namespace Sys2Proof.Machine

/-! ### Fits (R329) -/

/-- A place for a stage: its region's key, its alternative, and the sequencer of its control program. -/
structure Place where
  key : Nat
  alt : Nat
  seq : Option Nat
  deriving DecidableEq, Repr

/-- What a plan frees: cores and sequencers. -/
structure Freed where
  cores : List Nat := []
  seqs : List Nat := []
  deriving DecidableEq, Repr

/-- Whether a core may lie in a fit: of the partition, not failed, in no region or freed by the plan, and not taken by it. -/
def State.coreFree (s : State) (p : BitVec 7) (f : Freed) (taken : List Nat) (c : Nat) : Bool :=
  look 0 s.brass.coreOf c == p && !(s.core c).failed && ((s.regionOf c).isNone || f.cores.contains c) && !taken.contains c

/-- Whether a sequencer is assigned to the partition and runs no other stage. -/
def State.seqFree (s : State) (p : BitVec 7) (f : Freed) (taken : List Nat) (n : Nat) : Bool :=
  look 0 s.brass.seqOf n == p && !taken.contains n &&
  (f.seqs.contains n || ((s.seq n).region.isNone && ((s.seq n).run == .off || (s.seq n).run == .stopped)))

/-- The cores of an alternative of a stage at a corner. -/
def Stage.coresAt (x : Stage) (alt key : Nat) : List Nat :=
  rectCores (clusterOf key) (rowOf key) (colOf key) (foldRows x.rows alt) (foldCols x.cols alt)

/-- R329: the north-west corners of a cluster, in row-major order, where a shape fits inside it. -/
def corners (clu rows cols : Nat) : List Nat :=
  (List.range (9 - rows)).flatMap fun y => (List.range (13 - cols)).map fun x => coreAt clu y x

/-- R329: first fit of a stage; a stage of code needs a sequencer of its cluster. -/
def State.firstFit (s : State) (p : BitVec 7) (f : Freed) (cores seqs : List Nat) (x : Stage) (alt : Nat) (within : Nat → Bool) : Option Place :=
  let clus := if x.pin = 0xFF then List.range 16 else [x.pin]
  clus.findSome? fun clu =>
    let seq := [2 * clu, 2 * clu + 1].find? fun n => s.seqFree p f seqs n
    if x.hasCode ∧ seq.isNone then none
    else (corners clu (foldRows x.rows alt) (foldCols x.cols alt)).findSome? fun k =>
      if (x.coresAt alt k).all fun c => s.coreFree p f cores c && within c then some { key := k, alt := alt, seq := if x.hasCode then seq else none }
      else none

/-- R294: whether the image of a stage has an alternative. -/
def Stage.has (x : Stage) (alt : Nat) : Bool := (alt == 1 && x.mask.getLsbD 0) || (alt == 2 && x.mask.getLsbD 1) || (alt == 4 && x.mask.getLsbD 2)

/-- R329 Table 4: the alternative a stage takes under a plan: the plan's, or the next larger shape that its image has. -/
def Stage.altFor (x : Stage) (alt : Nat) : Nat := if alt = 4 ∧ x.has 4 then 4 else if 2 ≤ alt ∧ x.has 2 then 2 else 1

/-- R329: places for all stages of this chip, in entry order; none where one finds no fit. A stage of another chip takes no place. -/
def State.fitAll (s : State) (p : BitVec 7) (f : Freed) (alt : Nat) (cores seqs : List Nat) : List Stage → Option (List (Option Place))
  | [] => some []
  | x :: l =>
    if stageChip x ≠ s.chipId then (s.fitAll p f alt cores seqs l).map (none :: ·)
    else match s.firstFit p f cores seqs x (x.altFor alt) fun _ => true with
    | none => none
    | some w => (s.fitAll p f alt (cores ++ x.coresAt w.alt w.key) (seqs ++ w.seq.toList) l).map (some w :: ·)

/-! ### Victims (R330) -/

/-- R330: victims of a new task: resident tasks of its partition from which nothing is being taken, by ascending level, most recently
dispatched first. -/
def insertVictim (e : Nat × Task) : List (Nat × Task) → List (Nat × Task)
  | [] => [e]
  | h :: l => if e.2.level < h.2.level ∨ (e.2.level = h.2.level ∧ h.2.dispatched ≤ e.2.dispatched) then e :: h :: l else h :: insertVictim e l

def State.victims (s : State) (x : Task) : List (Nat × Task) :=
  (s.brass.tasks.filterMap fun e => match e.2 with
    | some v => if v.part = x.part ∧ v.state = .resident ∧ !v.ending ∧ !v.preempt ∧ !v.condemned ∧
        !(v.stages.any fun y => y.shrinkTo.isSome || y.moving) ∧
        (v.level < x.level ∨ (v.expired ∧ v.level ≤ x.level) ∨ x.urgent) then some (e.1, v) else none
    | none => none).foldr insertVictim []

/-- A fold step of a stage: task, stage, new alternative, and the cores that it frees. -/
structure FoldStep where
  task : Nat
  stage : Nat
  alt : Nat
  cores : List Nat
  deriving DecidableEq, Repr

/-- R330: the next fold step of a stage, if its image has it. -/
def State.foldStep (s : State) (t : Nat) (k : Nat) (x : Stage) : Option FoldStep :=
  match x.region with
  | none => none
  | some key =>
    let alt := if x.alt = 1 then 2 else 4
    if x.alt = 4 ∨ !x.has alt then none
    else some { task := t, stage := k, alt := alt, cores := (s.regionCores key).filter fun c => !(x.coresAt alt key).contains c }

/-- The fold steps of the victims, in victim order, a gang member by member. -/
def State.foldSteps (s : State) (vs : List (Nat × Task)) : List FoldStep :=
  vs.flatMap fun v => v.2.stages.zipIdx.filterMap fun e => s.foldStep v.1 e.2 e.1

/-- What full pre-emption of victims frees. -/
def State.preemptFrees (s : State) (vs : List (Nat × Task)) : Freed :=
  { cores := vs.flatMap fun v => v.2.regions.flatMap fun r => s.regionCores r.2
    seqs := vs.flatMap fun v => v.2.stages.filterMap (·.seq) }

/-- R329 plans 2 and 3: the fold steps to be made, and the victims of a task to be pre-empted after them, for what they free to be
enough. -/
def State.victimsFor (s : State) (x : Task) (ok : Freed → Bool) : Option (List FoldStep × List (Nat × Task)) :=
  let vs := s.victims x
  let steps := s.foldSteps vs
  let shrunk (j : Nat) : Freed := { cores := (steps.take j).flatMap (·.cores) }
  match (List.range steps.length).find? fun j => ok (shrunk (j + 1)) with
  | some j => some (steps.take (j + 1), [])
  | none =>
    let ws := vs.filter fun v => v.2.spared != some (s.part x.part).pfTop
    let all := shrunk steps.length
    match (List.range ws.length).find? fun j =>
      let g := s.preemptFrees (ws.take (j + 1))
      ok { cores := all.cores ++ g.cores, seqs := g.seqs } with
    | some j => some (steps, ws.take (j + 1))
    | none => none

/-- R329 plans 2 and 3: the victims with which every stage of a task fits. -/
def State.findVictims (s : State) (x : Task) : Option (List FoldStep × List (Nat × Task)) :=
  s.victimsFor x fun f => (s.fitAll x.part f 1 [] [] x.stages).isSome

/-- Whether a fold step of a victim is still to be made. -/
def State.shrinking (s : State) (t : Nat) : Bool :=
  ((s.task t).map fun x => x.state == .resident && !x.ending && !x.preempt && x.stages.any (·.shrinkTo.isSome)).getD false

/-- Whether a victim is to be pre-empted once the fold steps have been made. -/
def State.condemnedTask (s : State) (t : Nat) : Bool := ((s.task t).map fun x => x.state == .resident && x.condemned).getD false

/-- Whether a victim is being pre-empted. -/
def State.leaving (s : State) (t : Nat) : Bool := ((s.task t).map fun x => x.state == .resident && x.preempt).getD false

/-- R331: a stage of a victim is to be shrunk: its region is quiesced. -/
def State.beginShrink (s : State) (e : FoldStep) : State :=
  let s1 := s.onTaskStage e.task e.stage fun x => { x with shrinkTo := some e.alt }
  match ((s1.task e.task).bind fun x => x.stages[e.stage]?).bind (·.region) with
  | some k => s1.stopIslands (s1.region k).islands
  | none => s1

/-- R333: what stands here of a task is to be fully pre-empted: all its islands stop in one cycle. With `restart`, it does not resume in
place. -/
def State.preemptHere (s : State) (t : Nat) (restart : Bool) : State :=
  match s.task t with
  | none => s
  | some x => (x.regions.foldl (fun (u : State) r => u.stopIslands (u.region r.2).islands) s).setTask t
      (some { x with preempt := true, condemned := false, unsettled := x.unsettled || restart })

/-- R330, R333: a gang is fully pre-empted only as a whole: a member of another chip's gang asks its initiator for that. -/
def State.beginPreempt (s : State) (t : Nat) (restart : Bool := false) : State :=
  match (s.task t).bind (·.origin) with
  | some (chip, gang, _) => (s.preemptHere t restart).send chip (.preemptGang gang restart)
  | none => s.preemptHere t restart

/-- R469: a channel that keeps no log lets no stage of it restart alone: the gang is pre-empted, and every member restarts. -/
def State.beginRestartAll (s : State) (t : Nat) : State := s.beginPreempt t true

/-- Whether a saved task waits to be restored. -/
def State.anySaved (s : State) : Bool := s.brass.tasks.any fun e => match e.2 with
  | some x => x.saved.isSome
  | none => false

/-- R338: BR_L2REQ[0] reads 0 again. -/
def State.endL2 (s : State) : State :=
  { s with brass := { s.brass with l2done := false }, host := { s.host with l2req := s.host.l2req &&& 2 } }

/-- R338: once every task that is resident here has been saved, the L2 mode is set and dispatch goes on; the request stands until a restore
has begun, or nothing is left to be restored. A task whose pre-emption was cancelled is not chosen again until BR_PFTOP changes (R466, log 158). -/
def State.settleL2 (s : State) : State :=
  if !s.host.l2req.getLsbD 0 then s
  else if s.brass.l2done then (if s.anySaved then s else s.endL2)
  else
    let s1 := s.brass.tasks.foldl (fun (u : State) e => match e.2 with
      | some x => if x.state = .resident ∧ !x.preempt ∧ !x.ending ∧ x.spared ≠ some (s.part x.part).pfTop then u.beginPreempt e.1 else u
      | none => u) s
    if s1.anyRunning then s1
    else
      let s2 := s1.setL2Mode (s1.host.l2req.getLsbD 1)
      let s3 := s2.setBrass { s2.brass with stopped := false, l2done := true }
      if s3.anySaved then s3 else s3.endL2

/-! ### What partitions hold (R17, R20; log 15) -/

/-- R20: Brass assigns a sequencer to a partition: the one that had it keeps its context, and the new one finds the context it left. -/
def State.moveSeq (s : State) (n : Nat) (p : BitVec 7) : State :=
  let old := look 0 s.brass.seqOf n
  if old = p then s
  else
    let b := s.brass
    let q : Seq := (look none b.seqCtx (128 * n + p.toNat)).getD {}
    (s.setBrass { b with seqOf := put 0 b.seqOf n p, seqCtx := put none b.seqCtx (128 * n + old.toNat) (some (s.seq n)) }).setSeq n { q with part := p }

/-- Whether Brass may assign a core to a partition that asks for one: it works, and no region holds it. -/
def State.idleCore (s : State) (taken : List Nat) (c : Nat) : Bool := !(s.core c).failed && (s.regionOf c).isNone && !taken.contains c

/-- Whether Brass may assign a sequencer: it runs no stage. -/
def State.idleSeq (s : State) (taken : List Nat) (n : Nat) : Bool :=
  !taken.contains n && (s.seq n).region.isNone && ((s.seq n).run == .off || (s.seq n).run == .stopped)

/-- What a claim takes: cores and sequencers. -/
structure Claim where
  cores : List Nat := []
  seqs : List Nat := []
  deriving DecidableEq, Repr

/-- R17: the first rectangle of idle cores, of a stage's shape at ×1 and at least 2 × 2, with a sequencer where the stage has code. -/
def State.claimStage (s : State) (x : Stage) (c : Claim) : Option Claim :=
  let rows := Nat.max 2 x.rows
  let cols := Nat.max 2 x.cols
  (if x.pin = 0xFF then List.range 16 else [x.pin]).findSome? fun clu =>
    let seq := [2 * clu, 2 * clu + 1].find? fun n => s.idleSeq c.seqs n
    if x.hasCode ∧ seq.isNone then none
    else ((corners clu rows cols).find? fun k => (rectCores clu (rowOf k) (colOf k) rows cols).all fun n => s.idleCore c.cores n).map fun k =>
      { cores := c.cores ++ rectCores clu (rowOf k) (colOf k) rows cols, seqs := c.seqs ++ if x.hasCode then seq.toList else [] }

/-- What a partition that finds no place for a task needs: a rectangle for each stage of this chip, or nothing. -/
def State.claimFor (s : State) (x : Task) : Option Claim :=
  (x.stages.filter fun st => stageChip st == s.chipId).foldl (fun (c : Option Claim) st => c.bind fun d => s.claimStage st d) (some {})

/-- Whether a partition has a region in a cluster. -/
def State.hasRegionIn (s : State) (p : BitVec 7) (clu : Nat) : Bool :=
  s.regions.any fun e => clusterOf e.1 == clu && e.2.rows != 0 && e.2.part == p

/-- Whether a binding of a stream island has not ended. -/
def State.streaming (s : State) (si : Nat) : Bool := s.streams.bindings.any fun e => match e.2 with
  | some x => x.si == si && (x.state == 1 || x.state == 2)
  | none => false

/-- R20, R69: of `n` units of a cluster from `first` on, the partition takes those that are idle and whose holder has no region there; where
that leaves it none, the last idle one. -/
def State.takeUnits (s : State) (p : BitVec 7) (clu first n : Nat) (idle : Nat → Bool) (t : Tab (BitVec 7)) : Tab (BitVec 7) :=
  let l := ((List.range n).map (first + ·)).filter idle
  let u := l.foldl (fun (u : Tab (BitVec 7)) k => if s.hasRegionIn (look 0 u k) clu then u else put 0 u k p) t
  if (List.range n).any fun k => look 0 u (first + k) == p then u
  else match l.getLast? with
    | some k => put 0 u k p
    | none => u

/-- R17, R20: assigns to a partition what one of its tasks needs: cores, which come empty, sequencers, and units of their clusters. -/
def State.claim (s : State) (p : BitVec 7) (c : Claim) : State :=
  let s1 := (c.cores.filter fun k => look 0 s.brass.coreOf k != p).foldl (fun (u : State) k =>
    (u.setCore k (u.core k).emptied).setBrass { u.brass with coreOf := put 0 u.brass.coreOf k p }) s
  let s2 := c.seqs.foldl (fun (u : State) n => u.moveSeq n p) s1
  ((c.cores.map clusterOf).eraseDups).foldl (fun (u : State) clu => u.setBrass { u.brass with
    siOf := u.takeUnits p clu (12 * clu) 12 (fun k => !u.streaming k) u.brass.siOf
    tileOf := u.takeUnits p clu (16 * clu) 16 (fun _ => true) u.brass.tileOf }) s2

/-! ### PLACEMENT (R329) -/

/-- Gives a stage its place: its region is its own from now on. -/
def State.givePlace (s : State) (t : Nat) (x : Task) (k : Nat) (st : Stage) (w : Place) : State :=
  let r : Region := { rows := foldRows st.rows w.alt, cols := foldCols st.cols w.alt, part := x.part, asid := x.asid, seq := w.seq,
                      owner := some (t, k), alt := w.alt }
  let s1 := s.setRegion w.key r
  let s2 := match w.seq with
    | some n => s1.setSeq n { s1.seq n with region := some w.key }
    | none => s1
  s2.onTaskStage t k fun y => { y with region := some w.key, seq := w.seq, alt := w.alt, loaded := false }

/-- R336: asks the chips of the other members to place their stages. -/
def State.askMembers (s : State) (t : Nat) (x : Task) : State :=
  x.stages.zipIdx.foldl (fun (u : State) e =>
    if stageChip e.1 = u.chipId then u
    else (u.send (stageChip e.1) (.member t e.2 x.asid e.1.entry (recArg x.record))).onTaskStage t e.2 fun y =>
      { y with asked := some u.mgmt.podTime.toNat, ready := none, refused := false, started := false }) s

/-- Whether a task has stages on other chips, or is a member of another chip's gang. -/
def State.acrossChips (s : State) (x : Task) : Bool := x.origin.isSome || x.stages.any fun st => stageChip st != s.chipId

/-- A task leaves the pending heads. -/
def State.unpend (s : State) (t : Nat) (p : BitVec 7) : State :=
  let y := s.part p
  s.setPart p { y with pending := y.pending.filter (· != t) }

/-- Victims that a pending head no longer needs are spared. -/
def State.spare (s : State) (l : List Nat) : State :=
  l.foldl (fun (u : State) v => match u.task v with
    | some y => if y.condemned then u.setTask v (some { y with condemned := false }) else u
    | none => u) s

/-- Carries out a plan that takes no victim: every stage has its place, and the task leaves the pending heads; the initiator of a gang across
chips leaves them only when every member has been placed (R329, R336). -/
def State.place (s : State) (t : Nat) (x : Task) (ws : List (Option Place)) : State :=
  let s1 := (x.stages.zipIdx.zip ws).foldl (fun (u : State) e => match e.2 with
    | some w => u.givePlace t x e.1.2 e.1.1 w
    | none => u) s
  match s1.task t with
  | none => s1
  | some y =>
    let s2 := (s1.setTask t (some { y with state := .starting, retryAt := none, taking := [] })).spare x.taking
    let s3 := if x.saved.isSome ∧ s2.brass.l2done then s2.endL2 else s2
    (if s3.acrossChips y ∧ y.origin.isNone then s3 else s3.unpend t x.part).askMembers t y

/-- R335: the places of a saved task, where they are all free. -/
def State.oldPlaces (s : State) (x : Task) (v : Saved) : Option (List (Option Place)) :=
  let one (k : Nat) (st : Stage) : Option (Option Place) :=
    if stageChip st ≠ s.chipId then some none
    else match v.regions.find? fun e => match e.2.owner with
      | some o => o.2 == k
      | none => false with
    | none => none
    | some (key, r) =>
      let free := (rectCores (clusterOf key) (rowOf key) (colOf key) r.rows r.cols).all fun c => s.coreFree x.part {} [] c
      let seq := match r.seq with
        | none => some none
        | some n => (([n, 2 * (n / 2), 2 * (n / 2) + 1].find? fun m => s.seqFree x.part {} [] m)).map some
      if free then seq.map fun q => some { key := key, alt := r.alt, seq := q } else none
  (x.stages.zipIdx.map fun e => one e.2 e.1).foldr (fun a (l : Option (List (Option Place))) => match a, l with
    | some w, some ws => some (w :: ws)
    | _, _ => none) (some [])

/-- R336: refuses a member request of another chip. -/
def State.refuseMember (s : State) (t : Nat) (x : Task) : State :=
  match x.origin with
  | none => s
  | some (chip, gang, m) =>
    ((s.unpend t x.part).setTask t none).send chip (.memberAnswer gang m none false)

/-- No plan succeeds: the task stays the pending head, and its partition takes what is idle; a member of another chip's gang for which that
does not help is refused (R336). -/
def State.noFit (s : State) (p : BitVec 7) (t : Nat) (x : Task) : State :=
  let s1 := ((s.claimFor x).map (s.claim p)).getD s
  if x.origin.isSome ∧ s1.brass = s.brass then s.refuseMember t x else s1

/-- R329 plans 2 and 3: the fold steps of the victims begin; those that are to be pre-empted wait until they have been made. -/
def State.takeVictims (s : State) (t : Nat) (x : Task) (steps : List FoldStep) (gone : List (Nat × Task)) : State :=
  let s1 := steps.foldl (fun (u : State) e => u.beginShrink e) s
  let s2 := gone.foldl (fun (u : State) v => match u.task v.1 with
    | some y => u.setTask v.1 (some { y with condemned := true })
    | none => u) s1
  s2.setTask t (some { x with taking := ((steps.map (·.task)) ++ gone.map (·.1)).eraseDups })

/-- R329 plan 3: the fold steps have been made, and the victims are pre-empted. -/
def State.preemptVictims (s : State) (l : List Nat) : State :=
  l.foldl (fun (u : State) v => if u.condemnedTask v then u.beginPreempt v else u) s

/-- R329: how the taking of victims goes on; none where nothing is left to be taken. -/
def State.takeOn (s : State) (l : List Nat) : Option State :=
  if l.any s.shrinking then some s
  else if l.any s.condemnedTask then some (s.preemptVictims l)
  else if l.any s.leaving then some s
  else none

/-- PLACEMENT (R329): the pending head of the highest level is placed under the first plan that gives every stage a fit. -/
def execPlacement (part : Nat) (s : State) : Host.Outcome State Fault Refusal :=
  let p : BitVec 7 := BitVec.ofNat 7 part
  .next <| match (s.part p).pending.head? with
  | none => s
  | some t => match s.task t with
    | none => s
    | some x =>
      let wait : Bool := match x.retryAt with
        | some at_ => decide (s.mgmt.podTime.toNat < at_)
        | none => false
      if x.state ≠ .pending ∨ wait ∨ s.brass.stopped then s
      else
        let old := match x.saved with
          | some v => s.oldPlaces x v
          | none => none
        match old.or (s.fitAll p {} 1 [] [] x.stages) with
        | some ws => s.place t x ws
        | none =>
          match s.takeOn x.taking with
          | some s1 => s1
          | none => match s.findVictims x with
            | some (steps, gone) => s.takeVictims t x steps gone
            | none => match (s.fitAll p {} 2 [] [] x.stages).or (s.fitAll p {} 4 [] [] x.stages) with
              | some ws => s.place t x ws
              | none => s.noFit p t x

/-! ### Start (R332, R336, R467) -/

/-- Whether every stage of this chip is loaded. -/
def State.allLoaded (s : State) (x : Task) : Bool := x.stages.all fun st => stageChip st != s.chipId || st.loaded

/-- R467: makes the gang channels of a loaded task, each with 16 frames; waits when the list has too few. -/
def State.makeChans (s : State) (t : Nat) (x : Task) : Option State :=
  let es := (s.gangEdges x).filter fun e => (s.chan e.1).isNone
  let need := 16 * es.length
  if need = 0 then some s
  else if !s.mayTake x.part t ∨ (s.part x.part).pfTop.toNat < need then none
  else
    let s1 := (s.endFrameWait x.part t)
    some (es.foldl (fun (u : State) e =>
      let (u1, fs) := u.popFrames x.part 16
      u1.setChan e.1 { task := t, producer := e.2.1, consumer := e.2.2, frames := fs }) s1)

/-- R337: until the skew limit has passed, the islands of a gang across chips do not count their waits for a cross-chip channel that has not
delivered a token. -/
def State.startEarly (s : State) (k : Nat) : State :=
  (s.region k).islands.foldl (fun (u : State) i => u.setIsland i { u.island i with early := true, heard := [] }) s

def State.endEarly (s : State) (k : Nat) : State :=
  (s.region k).islands.foldl (fun (u : State) i => u.setIsland i { u.island i with early := false, heard := [] }) s

/-- R335, R411: a stage whose context is back goes on: in place from its saved cycle, elsewhere from its restart round. -/
def State.resumeStage (s : State) (st : Stage) (k : Nat) : State :=
  let s1 := (s.regionCores k).foldl (fun (u : State) c => u.setMn c (u.mn c).resumeDecode) s
  let s2 := if st.moving then s1.enableRegion k else s1.resumeRegion k
  match st.seq with
  | some n => s2.resumeSeq n
  | none => s2

/-- Enables every island of the stages here in one cycle, and starts their control programs or lets them go on. -/
def State.startTask (s : State) (t : Nat) : State :=
  match s.task t with
  | none => s
  | some x =>
    let s1 := x.stages.zipIdx.foldl (fun (u : State) e => match e.1.region with
      | some k =>
        let u1 := if x.resume then u.resumeStage e.1 k else (u.enableRegion k).startProgram x e.2 k e.1
        let u2 := if e.1.failed then u1.holdRegion k else u1
        if s.acrossChips x then u2.startEarly k else u2
      | none => u) s
    let s2 := s1.pushFrames x.part x.frames
    (s2.setTask t (some { x with state := .resident, dispatched := s2.now, expired := false, frames := [], resume := false, saved := none,
                                 stages := x.stages.map fun st =>
                                   if st.region.isSome then { st with started := true, moving := false, restart := st.restart && !st.moving } else st })).settleL2

/-- R332, R336: goes on with a task whose stages here are loaded: a task of one chip starts at once, one across chips when the start time
has come. -/
def State.readyTask (s : State) (t : Nat) : State :=
  match s.task t with
  | none => s
  | some x =>
    if x.state ≠ .starting ∨ !s.allLoaded x ∨ (x.resume && x.regions.any fun r => s.refetching r.2) then s
    else match s.makeChans t x with
    | none => s.waitFrames x.part t true (16 * (s.gangEdges x).length - (s.part x.part).pfTop.toNat) 0
    | some s1 =>
      if s.acrossChips x then
        match x.origin with
        | some (chip, gang, m) =>
          let s2 := s1.onTaskStage t 0 fun st => { st with ready := some s1.mgmt.podTime }
          if (x.stages.head?.bind (·.ready)).isSome then s1 else s2.send chip (.memberAnswer gang m (some s1.mgmt.podTime) false)
        | none => if x.ready.isSome then s1 else s1.setTask t ((s1.task t).map fun y => { y with ready := some s1.mgmt.podTime })
      else s1.startTask t

/-- R323: a task that is refused: BADR, STATUS 1, and none of its stages runs. -/
def State.refuseTask (s : State) (t : Nat) (x : Task) : State :=
  let s1 := x.regions.foldl (fun (u : State) r => u.dropRegion r.2) s
  let s2 := s1.setTask t (some { x with state := .ended, status := 1, stages := x.stages.map fun st => { st with region := none, seq := none } })
  if x.origin.isSome then ((s1.dropChans t x.part).endWork (taskWork t)).refuseMember t x
  else (((s2.setQueue x.queue { s2.queue x.queue with badr := true }).unpend t x.part).dropChans t x.part).endWork (taskWork t)

/-- STAGE_START (R332, R323): loads and swaps a placed stage; when the last stage is loaded, the task starts. -/
def execStageStart (task stage : Nat) (s : State) : Host.Outcome State Fault Refusal :=
  .next <| match s.task task with
  | none => s
  | some x => match x.stages[stage]? with
    | none => s
    | some st => match st.region with
      | none => s
      | some key =>
        if x.state ≠ .starting ∨ x.saved.isSome then s
        else if st.loaded then s.readyTask task
        else match s.readImage (taskWork task) x.asid x.part (stageImage st) [] 10000 with
        | .wait s1 => s1
        | .got p s1 =>
          let f : Fit := { clu := clusterOf key, row := rowOf key, col := colOf key, alt := st.alt, seq := st.seq, part := x.part, asid := x.asid }
          match p with
          | .done i =>
            let (status, ds) := s1.imageStatus i f
            if status ≠ 0 ∨ i.refs st.alt ≠ stageNw st then s1.refuseTask task x
            else match s1.brassBytes (taskWork task) x.asid x.part (stageWtab st) (16 * stageNw st) (16 * stageNw st) [] with
            | .wait s2 => s2
            | .fault s2 => s2.refuseTask task x
            | .bytes tab s2 =>
              let ws := dataWrites i st.alt (stageDbase st)
              if ws.any fun e => s2.brassHeld x.asid x.part e.1 e.2.1 then s2
              else match s2.writeAll x.asid x.part ws with
              | none => s2.refuseTask task x
              | some s3 =>
                let s4 := (s3.loadImage i f ds).swapRegion key []
                let s5 := (s4.region key).islands.foldl (fun (u : State) k => u.setIsland k { u.island k with enabled := false }) s4
                let s6 := s5.setRegion key { s5.region key with weights := weightsOf i st.alt tab (stageNw st) }
                (((s6.bringCode st.seq).onTaskStage task stage fun y => { y with loaded := true }).endWork (taskWork task)).readyTask task
          | _ => s1.refuseTask task x

/-! ### Completion and end (R325, R406, R474) -/

/-- R406, R474: the DONE value of a stage. -/
def doneValue (x : Task) (st : Stage) : BitVec 32 := (st.done.or st.cause).getD x.cause

/-- R325: the completion record. -/
def completionRecord (x : Task) : BitVec 512 :=
  x.stages.zipIdx.foldl (fun (r : BitVec 512) e => r ||| ((doneValue x e.1).setWidth 512 <<< (64 + 32 * e.2)))
    ((recStag x.record).setWidth 512 ||| (BitVec.ofNat 512 x.status <<< 32) ||| (BitVec.ofNat 512 x.nstg <<< 40))

/-- Gives up what a task holds here: bindings, regions, sequencers, channels and frames. -/
def State.releaseTask (s : State) (t : Nat) (x : Task) : State :=
  let s1 := x.stages.foldl (fun (u : State) st => match st.seq with
    | some n => u.stopBindings n
    | none => u) s
  let s2 := x.regions.foldl (fun (u : State) r => u.dropRegion r.2) s1
  let here := (s.chansOf t).flatMap (·.2.frames)
  let kept : List W64 := match x.saved with
    | some v => (v.chans.flatMap fun e => (e.2.map (·.frames)).getD []).filter fun f => !here.contains f
    | none => []
  let s3 := ((s2.dropChans t x.part).pushFrames x.part (x.frames ++ kept)).endFrameWait x.part t
  s3.unpend t x.part

/-- TASK_COMPLETION (R325): writes the completion record and forgets the task. -/
def execTaskCompletion (task : Nat) (s : State) : Host.Outcome State Fault Refusal :=
  .next <| match s.task task with
  | none => s
  | some x =>
    let done := x.state = .resident ∧ x.stages.all fun st => st.done.isSome
    if x.origin.isSome ∨ x.ending ∨ ¬(done ∨ x.state = .ended) then s
    else
      let far := ((x.stages.map stageChip).eraseDups).filter (· != s.chipId)
      let fin (s : State) : State :=
        let s1 := ((((s.releaseTask task x).setTask task none).endWork (taskWork task)).refreshLevels x.part).settleL2
        if done then far.foldl (fun (u : State) c => u.send c (.endMember task)) s1 else s1
      let va := recCmpa x.record
      let fail (s : State) : State := s.setQueue x.queue { s.queue x.queue with cmpf := true }
      if va = 0 then fin s
      else if va.toNat % 64 ≠ 0 then fin (fail s)
      else match s.brassAccess (taskWork task) x.asid x.part va (.store 64 (completionRecord x)) with
      | .wait s1 => s1
      | .got a s1 => fin (if a.fault.isSome then fail s1 else s1)

/-- R406 steps 1 and 3: holds the islands of a task, stops its sequencers and bindings, and aborts its open groups. -/
def State.haltTask (s : State) (x : Task) : State :=
  let s1 := x.regions.foldl (fun (u : State) r => u.holdRegion r.2) s
  let s2 := x.stages.foldl (fun (u : State) st => match st.seq with
    | some n => (u.setSeq n { u.seq n with run := .stopped, replay := [] }).stopBindings n
    | none => u) s1
  let s3 := x.regions.foldl (fun (u : State) r => (u.regionCores r.2).foldl (fun (v : State) c => v.setVe c { v.ve c with replay := [] }) u) s2
  s3.mem.groups.foldl (fun (u : State) e =>
    if e.1 / 64 = x.asid.toNat ∧ (e.2.state = 1 ∨ e.2.state = 2) then
      u.abortGroup { chip := u.chipId, asid := x.asid, grp := BitVec.ofNat 6 (e.1 % 64), epoch := e.2.epoch } e.2.code
    else u) s3

/-- R406 step 2: whether a unit has an access on its way here, or a write on its way to another chip. -/
def State.writing (s : State) (a : Actor) : Bool :=
  (s.mem.flight.any fun r => r.iss.is a) || s.mem.away.any fun e => match e.2 with
    | some r => r.iss.is a && (opNeed r.op).wr
    | none => false

/-- Whether the writes that a task has issued have been performed, and its bindings have ended. -/
def State.taskQuiet (s : State) (x : Task) : Bool :=
  x.regions.all (fun r => (s.regionCores r.2).all fun c => !s.writing (.ve c)) &&
  x.stages.all fun st => match st.seq with
    | some n => !s.writing (.seq n) && (s.bindingsOf n).isEmpty
    | none => true

/-- TASK_END (R406): once what the task has issued is done, its state is discarded; TASK_COMPLETION writes STATUS 3. -/
def execTaskEnd (task : Nat) (s : State) : Host.Outcome State Fault Refusal :=
  .next <| match s.task task with
  | none => s
  | some x =>
    if !x.ending then s
    else
      let s1 := s.haltTask x
      if !s1.taskQuiet x then s1
      else
        let s2 := s1.releaseTask task x
        let y : Task := { x with ending := false, preempt := false, state := .ended, status := 3, saved := none, frames := [],
                                 stages := x.stages.map fun st => { st with region := none, seq := none } }
        match x.origin with
        | some (chip, gang, m) =>
          let cause := (x.stages.head?.map (doneValue x)).getD x.cause
          (((s2.setTask task none).send chip (.ended gang m cause)).refreshLevels x.part).settleL2
        | none =>
          let far := ((x.stages.map stageChip).eraseDups).filter (· != s.chipId)
          ((far.foldl (fun (u : State) c => u.send c (.endMember task)) (s2.setTask task (some y))).refreshLevels x.part).settleL2

/-! ### Sequencers at their boundaries (R159, R242, R288) -/

/-- R242: a waiting access is answered at once with what its line holds now. -/
def State.withdrawStaged (s : State) (e : Staged) : State :=
  let ver := match e.op with
    | .phase _ => s.mem.phase e.line
    | _ => s.mem.ver e.line
  let data := match e.op with
    | .load off w _ => s.mem.read (64 * e.line + off) w
    | .exact off w _ => s.mem.read (64 * e.line + off) w
    | _ => 0
  (s.setMem { s.mem with staged := s.mem.staged.erase e }).deliver e.iss e.entry 0 e.op.memOp e.status e.ea { data := data, ver := ver, code := 6 }

/-- R242: withdraws the wait of a sequencer: here, or by a packet at the chip where it stands. -/
def State.withdraw (s : State) (n : Nat) (id : Nat) : State :=
  match s.mem.staged.find? fun e => e.iss.is (.seq n) && e.entry == some id with
  | some e => s.withdrawStaged e
  | none => match look none s.mem.away id with
    | some r => (match r.op, r.target with
      | .loadVer _ _, some t => s.send t.chip (.withdraw id)
      | .loadExact _ _, some t => s.send t.chip (.withdraw id)
      | .phase _, some t => s.send t.chip (.withdraw id)
      | _, _ => s)
    | none => s

/-- Whether the word at a sequencer's pc is a wait that a save abandons. -/
def Seq.abandons (q : Seq) : Bool :=
  match decode false (look 0 q.imem (q.pc.toNat / 4)) with
  | .ok (.idle _) => true
  | .ok (.waitt _) => true
  | _ => false

/-- R159, R288: brings a sequencer nearer to its save: it is saved once it stands between instructions. -/
def State.saveSeq (s : State) (x : Task) (n : Nat) : State :=
  let q := s.seq n
  if q.run ≠ .running then s
  else match q.wait with
  | some w =>
    if q.abandons then s.setSeq n { q with wait := none, run := .saved }
    else (match w.id, w.answer with
      | some id, none => s.withdraw n id
      | _, _ => s)
  | none =>
    let out := q.begun || (s.mem.flight.any fun r => r.iss.is (.seq n)) || (s.mem.away.any fun e => match e.2 with
      | some r => r.iss.is (.seq n)
      | none => false)
    if out then s
    else
      let s1 := s.setSeq n { q with run := .saved, barrier := none }
      match q.barrier, x.origin with
      | some b, some (chip, gang, m) => s1.send chip (.barrierAt gang m b false)
      | _, _ => s1

/-! ### Restarts (R331, R404, R408, R469 to R471) -/

/-- R408 step 1: stops the bindings of a stage as SCNL does, so that the line writes of tokens taken are still made, and its control program
at an instruction boundary. -/
def State.stopStage (s : State) (x : Task) (st : Stage) : State :=
  match st.seq with
  | none => s
  | some n => ((s.bindingsOf n).foldl (fun (u : State) e => match e.2.kind with
      | .stream => if e.2.write ∧ e.2.state = 2 then u.setBinding e.1 (some (u.flushUnit e.2.flushRun)) else u
      | _ => u) s).saveSeq x n

/-- R408 step 2: whether a stage that has been stopped has settled. -/
def State.stageSettled (s : State) (key : Nat) (st : Stage) : Bool :=
  s.regionSettled key && s.bindingsIdle st.seq && match st.seq with
    | some n => (s.seq n).run != .running
    | none => true

/-- R471: the other members of a gang do not count stalls on their channels while a stage recovers. -/
def State.waive (s : State) (x : Task) (stage : Nat) (on : Bool) : State :=
  x.regions.foldl (fun (u : State) r =>
    if r.1 = stage then u
    else (u.region r.2).islands.foldl (fun (v : State) k => v.setIsland k { v.island k with waived := on }) u) s

/-- R469, R470: whether the channels of a stage have been replayed; if not, they are asked to be. -/
def State.askReplay (s : State) (t stage : Nat) : State × Bool :=
  let cs := (s.chansOf t).filter fun e => e.2.producer == stage || e.2.consumer == stage
  (cs.foldl (fun (u : State) e => if e.2.replay.isNone then u.setChan e.1 { e.2 with replay := some false } else u) s,
   cs.all fun e => e.2.replay == some true)

/-- The replay marks of a stage's channels are taken off. -/
def State.endReplay (s : State) (t stage : Nat) : State :=
  (s.chansOf t).foldl (fun (u : State) e =>
    if e.2.producer == stage || e.2.consumer == stage then u.setChan e.1 { e.2 with replay := none } else u) s

/-- R469: whether a channel of the stage keeps no log because its consumer's rows hold no restart point. -/
def State.noLog (s : State) (x : Task) (stage : Nat) : Bool :=
  (s.gangEdges x).any fun e => (e.2.1 == stage || e.2.2 == stage) && match (x.stages[e.2.2]?).bind (·.region) with
    | some k => !((s.regionCores k).any s.hasRestartPoint)
    | none => false

/-- GANG_CHANNEL_REPLAY (R469, R470): before a restarted stage runs: the consumer's FIFO is cleared and the log sent again; a channel of a
restarted producer settles, its log drops the rounds after the producer's restart round, and duplicates will be discarded. -/
def execGangChannelReplay (chan : Nat) (s : State) : Host.Outcome State Fault Refusal :=
  .next <| match s.chan chan with
  | none => s
  | some g => match s.task g.task with
    | none => s
    | some x =>
      if g.replay ≠ some false then s
      else
        let busy (k : Nat) : Bool := ((x.stages[k]?).map fun st => st.restart || st.moving || st.shrinkTo.isSome || st.failed).getD false
        let consumer := busy g.consumer
        let producer := busy g.producer
        if producer && !(look [] s.transit chan).isEmpty && !consumer then s
        else
          let g1 : GangChannel := if consumer then { g with rcv := g.retired, dlv := g.retired, nrcv := 0, skipTo := none } else g
          let round := ((x.stages[g.producer]?).bind (·.region)).bind fun k => (s.restartRounds k).bind (·.head?)
          let g2 : GangChannel := if producer then
              { g1 with skipTo := some (g1.rcv, g1.nrcv), log := match round with
                | some r => g1.log.filter fun t => roundLe t.rnd r
                | none => [] }
            else g1
          let s1 := s.setChan chan { g2 with replay := some true }
          if consumer then { s1.setFifo chan [] with transit := put [] s1.transit chan g2.log } else s1

/-- R404: counts a restart under disposition 1; whether it is the fifth that finds the same restart round. -/
def Stage.countRestart (x : Stage) (rst : BitVec 8) : Stage × Bool :=
  if x.restarts = 0 ∨ x.lastRst ≠ rst then ({ x with restarts := 1, lastRst := rst }, false)
  else ({ x with restarts := x.restarts + 1 }, decide (4 ≤ x.restarts))

/-- R331: folds a held region to another alternative and loads and swaps that alternative; none where the image cannot be loaded. -/
def State.reshape (s : State) (x : Task) (st : Stage) (key alt : Nat) (i : Image) : Option State :=
  let s1 := s.foldRegion key alt
  let f : Fit := { clu := clusterOf key, row := rowOf key, col := colOf key, alt := alt, seq := st.seq, part := x.part, asid := x.asid }
  let (status, ds) := s1.imageStatus i f
  if status ≠ 0 then none else some (((s1.loadImage i f ds).swapRegion key (s1.region key).islands).bringCode st.seq)

/-- R408 steps 4 to 8 once the region stands as it is to run. -/
def State.rerun (s : State) (t : Nat) (x : Task) (k key : Nat) (st : Stage) (rounds : Option (List (BitVec 8))) : State :=
  let s1 := ((s.resetRegion key rounds).goOn x k key st rounds).enableRegion key
  let s2 := (s1.onTaskStage t k fun y => { y with restart := false, shrinkTo := none, moving := false, failed := false, enabledAt := some s1.now })
  s2.endReplay t k

/-- STAGE_RESTART (R408, R331): holds the stage, waits until it has settled, and restarts it from its restart round. A stage that is to be
shrunk is first stopped by RQSC, 16 cycles on (R295). -/
def execStageRestart (task stage : Nat) (s : State) : Host.Outcome State Fault Refusal :=
  .next <| match s.task task with
  | none => s
  | some x => match x.stages[stage]? with
    | none => s
    | some st => match st.region with
      | none => s
      | some key =>
        if x.state ≠ .resident ∨ x.preempt ∨ x.ending ∨ st.failed ∨ (!st.restart ∧ st.shrinkTo.isNone) then s
        else if !st.restart ∧ !st.moving ∧ ((s.region key).islands.any fun k => (s.island k).stopAt.isSome) then s
        else
          let s1 := (s.holdRegion key).waive x stage true
          let rounds := s.restartRounds key
          let (st1, fifth) := if st.restart ∧ !st.moving then st.countRestart ((rounds.bind (·.head?)).getD 0) else (st, false)
          if fifth then s1.setTask task (some { x with ending := true })
          else if s1.noLog x stage then s1.beginRestartAll task
          else
            let s2 := (s1.onTaskStage task stage fun _ => { st1 with moving := true }).stopStage x st
            if !s2.stageSettled key st then s2
            else
              let (s3, ready) := s2.askReplay task stage
              if !ready then s3
              else match st.shrinkTo with
              | none => s3.rerun task x stage key st1 rounds
              | some alt => match s3.readImage (taskWork task) x.asid x.part (stageImage st) [] 10000 with
                | .wait s4 => s4
                | .got (.done i) s4 => (match s4.reshape x st key alt i with
                  | some s5 =>
                    let s6 := s5.onTaskStage task stage fun y => { y with alt := alt }
                    (s6.rerun task x stage key { st1 with alt := alt } (roundsFor rounds (s6.region key).islands.length)).endWork (taskWork task)
                  | none => s4.setTask task (some { x with ending := true }))
                | .got _ s4 => s4.setTask task (some { x with ending := true })

/-- RECOVERY_SKEW_EXPIRY (R471): SKEW after the recovered stage's islands were enabled. -/
def execRecoverySkewExpiry (task stage : Nat) (s : State) : Host.Outcome State Fault Refusal :=
  .next <| match s.task task with
  | none => s
  | some x => match (x.stages[stage]?).bind (·.enabledAt) with
    | none => s
    | some c =>
      if c + 1200 * skewOf x.record ≤ s.now then (s.waive x stage false).onTaskStage task stage fun y => { y with enabledAt := none } else s

/-! ### Failed cores (R412 to R415) -/

/-- R415: the alternatives that a recovering stage tries, from its own on. -/
def Stage.smaller (x : Stage) : List Nat := [1, 2, 4].filter fun a => decide (x.alt ≤ a) && (a == x.alt || x.has a)

/-- R415: first fit for a recovering stage: each alternative inside the old region, then anywhere in the partition, with what victims
free. -/
def State.recoverWith (s : State) (x : Task) (st : Stage) (key : Nat) (more : Freed) : Option Place :=
  let old := s.regionCores key
  let f : Freed := { cores := old ++ more.cores, seqs := st.seq.toList ++ more.seqs }
  st.smaller.findSome? fun alt =>
    let inside := s.firstFit x.part f [] [] { st with pin := clusterOf key } alt fun c => old.contains c
    let same := match inside with
      | some w => some { w with seq := st.seq }
      | none => none
    same.or (s.firstFit x.part f [] [] st alt fun _ => true)

/-- R415: first fit for a recovering stage that takes no victim. -/
def State.recoverPlace (s : State) (x : Task) (st : Stage) (key : Nat) : Option Place := s.recoverWith x st key {}

/-- The victims of a resident task have been taken, or are not taken. -/
def State.endTaking (s : State) (t : Nat) : State :=
  match s.task t with
  | some x => if x.taking.isEmpty then s else (s.setTask t (some { x with taking := [] })).spare x.taking
  | none => s

/-- R415: a recovering stage without a place takes the victims that Table 4 of R329 allows at its task's level; where those do not give it
one either, its gang is pre-empted. -/
def State.recoverRoom (s : State) (t : Nat) (x : Task) (st : Stage) (key : Nat) : State :=
  match s.task t with
  | none => s
  | some y => match s.takeOn y.taking with
    | some s1 => s1
    | none => match s.victimsFor x fun f => (s.recoverWith x st key f).isSome with
      | some (steps, gone) => s.takeVictims t y steps gone
      | none => (s.endTaking t).beginPreempt t

/-- FAILED_CORE_RECOVERY (R415): the stage that held a failed core is placed again and restarted; without a place even among its victims its
gang is pre-empted. -/
def execFailedCoreRecovery (task stage : Nat) (s : State) : Host.Outcome State Fault Refusal :=
  .next <| match s.task task with
  | none => s
  | some x => match x.stages[stage]? with
    | none => s
    | some st => match st.region with
      | none => s
      | some key =>
        if x.state ≠ .resident ∨ x.preempt ∨ x.ending ∨ !st.failed then s
        else
          let s0 := ((s.holdRegion key).waive x stage true).onTaskStage task stage fun y => { y with moving := true }
          let s1 := s0.stopStage x st
          if s0.noLog x stage then s0.beginRestartAll task
          else if !s1.stageSettled key st then s1
          else match s1.recoverPlace x st key with
          | none => s1.recoverRoom task x st key
          | some w =>
            let (s2, ready) := (s1.endTaking task).askReplay task stage
            if !ready then s2
            else match s2.readImage (taskWork task) x.asid x.part (stageImage st) [] 10000 with
            | .wait s3 => s3
            | .got (.done i) s3 =>
              let rounds := s3.restartRounds key
              let v := s3.contextOf [key] st.seq.toList [] false
              let s4 := ((s3.takeOut [key] v).givePlace task x stage st w).moveChans task stage key w.key v
              (match s4.restage x st key w.key w.seq w.alt v i with
              | some s5 =>
                let st1 : Stage := { st with region := some w.key, seq := w.seq, alt := w.alt, loaded := true }
                ((s5.rerun task x stage w.key st1 (roundsFor rounds (s5.region w.key).islands.length)).refetchAll x w.key w.seq).endWork (taskWork task)
              | none => s4.setTask task (some { x with ending := true }))
            | .got _ s3 => s3.setTask task (some { x with ending := true })

end Sys2Proof.Machine
end

