-- ==== Sys2Proof/Machine/Saves.lean ====
section
/-! DEFINITION. Full pre-emption, save space and restores (R242, R333 to R335, R338, R362, R411, R464 to R466, R475). -/

namespace Sys2Proof.Machine

/-! ### FULL_PREEMPTION (R333, R334, R465, R475) -/

/-- Whether everything of a task here stands still: islands held, sequencers saved, no answer of another chip outstanding. -/
def State.atRest (s : State) (x : Task) : Bool :=
  x.regions.all (fun r => (s.region r.2).islands.all fun k => (s.island k).hold.isSome) &&
  x.stages.all fun st => match st.seq with
    | some n => (s.seq n).run != .running && (s.bindingsOf n).all fun e => e.2.ask.isNone || e.2.reply.isSome
    | none => true

/-- R475: whether every gang channel of a task has settled. -/
def State.settledChans (s : State) (t : Nat) : Bool := (s.chansOf t).all fun e => (look [] s.transit e.1).isEmpty

/-- R334, R465: takes frames for a save as long as the list has them; the task waits for the rest. -/
def State.takeFrames (s : State) (t : Nat) (x : Task) (need : Nat) : State :=
  let short := need - x.frames.length
  if short = 0 then s
  else if !s.mayTake x.part t then s.waitFrames x.part t false short x.frames.length
  else
    let n := Nat.min short (s.part x.part).pfTop.toNat
    let (s1, fs) := s.popFrames x.part n
    let s2 := s1.setTask t (some { x with frames := x.frames ++ fs })
    if n = short then s2 else s2.waitFrames x.part t false (short - n) (x.frames.length + n)

/-- The chips of a task's stages other than this one. -/
def State.farChips (s : State) (x : Task) : List Nat := ((x.stages.map stageChip).eraseDups).filter (· != s.chipId)

/-- R333, R362: writes the context into its frames and frees what the task held. -/
def State.saveNow (s : State) (t : Nat) (x : Task) : State :=
  let rs := x.regions.map (·.2)
  let seqs := x.stages.filterMap (·.seq)
  let cores := rs.flatMap s.regionCores
  let chans := s.brass.chans.filter fun e => match e.2 with
    | some g => g.task == t
    | none => false
  let (s0, seals) := s.sealItems (s.sealsOf cores)
  let (s1, stamps) := s0.writeFrames x.part x.frames
  let v : Saved := { s.contextOf rs seqs chans x.unsettled with seals := seals, stamps := stamps }
  let s2 := (s1.renameIssuers (saveName t cores seqs)).takeOut rs v
  let s3 := s2.setBrass { s2.brass with chans := s2.brass.chans.filter fun e => match e.2 with
    | some g => g.task != t
    | none => true }
  let y : Task := { x with state := .saved, saved := some v, preempt := false, need := none, settling := none, unsettled := false, resume := false,
                           expired := false, condemned := false, startAt := none, ready := none, inPlace := none, arrived := [],
                           stages := x.stages.map fun st => { st with region := none, seq := none, loaded := false, started := false, moving := false,
                                                                      restarts := if st.restart && st.moving then st.restarts - 1 else st.restarts,
                                                                      shrinkTo := none, failed := false, enabledAt := none, ready := none,
                                                                      same := false, refused := false, asked := none } }
  ((s3.setTask t (some y)).endFrameWait x.part t).endWork (taskWork t)

/-- One step of a full pre-emption, or of a save that waited for frames. -/
def State.preemptStep (s : State) (t : Nat) : State :=
  match s.task t with
  | none => s
  | some x =>
    if x.state ≠ .resident ∨ x.ending ∨ !x.preempt then s
    else
      let first := x.settling.isNone
      let s1 := if first then
          let u := x.regions.foldl (fun (u : State) r => u.stopIslands (u.region r.2).islands)
            (s.setTask t (some { x with settling := some s.mgmt.podTime.toNat, savedAway := [] }))
          if x.origin.isNone then (s.farChips x).foldl (fun (w : State) c => w.send c (.preempt t x.unsettled)) u else u
        else x.stages.foldl (fun (u : State) st => match st.seq with
          | some n => u.saveSeq x n
          | none => u) s
      if first ∨ !s1.atRest x ∨ !(x.unsettled || s1.settledChans t) then s1
      else
        let need := (x.need.getD (Config.saveFrames s1.free + 1))
        let x1 : Task := { x with need := some need }
        let s2 := { s1.setTask t (some x1) with free := if x.need.isNone then s1.free + 1 else s1.free }
        let s3 := s2.takeFrames t x1 need
        match s3.task t with
        | none => s3
        | some x2 =>
          if x2.frames.length < need then s3
          else
            let s4 := (s3.saveNow t x2).refreshLevels x2.part
            let s5 := match x2.origin with
              | some (chip, gang, m) => s4.send chip (.saved gang m)
              | none => s4
            s5.settleL2

/-- FULL_PREEMPTION (R333): stops the islands of every member, saves each sequencer at an instruction boundary, and writes the context into
save frames. -/
def execFullPreemption (task : Nat) (s : State) : Host.Outcome State Fault Refusal := .next (s.preemptStep task)

/-- SETTLE_TIMEOUT (R475): a channel that has not settled 10 ms after the pre-emption began leaves the context unsettled. -/
def execSettleTimeout (task : Nat) (s : State) : Host.Outcome State Fault Refusal :=
  .next <| match s.task task with
  | none => s
  | some x => match x.settling with
    | none => s
    | some t0 =>
      if x.preempt ∧ t0 + 10000000 ≤ s.mgmt.podTime.toNat ∧ !s.settledChans task then s.setTask task (some { x with unsettled := true }) else s

/-- SAVE_RESUME (R465): the work that waits for frames, or the first behind it, goes on. -/
def execSaveResume (part : Nat) (s : State) : Host.Outcome State Fault Refusal :=
  let p := s.part (BitVec.ofNat 7 part)
  .next <| match (p.wait.map (·.1)).or p.behind.head? with
  | none => s
  | some t => match s.task t with
    | none => s.endFrameWait (BitVec.ofNat 7 part) t
    | some x => if x.state = .starting then s.readyTask t else s.preemptStep t

/-- SAVE_END (R466): a write of END to BR_SVFLT ends the waiting task. -/
def execSaveEnd (part : Nat) (s : State) : Host.Outcome State Fault Refusal :=
  let p : BitVec 7 := BitVec.ofNat 7 part
  .next <| match (if s.barOpen then (s.part p).wait else none) with
  | none => s
  | some w => match s.task w.1 with
    | none => s.endFrameWait p w.1
    | some x =>
      let s1 := ((s.pushFrames p x.frames).endFrameWait p w.1)
      s1.setTask w.1 (some { x with frames := [], ending := true, cause := 0x0401, preempt := false, need := none })

/-- R466: the victim is released in place. -/
def State.giveUpSave (s : State) (t : Nat) (x : Task) : State :=
  let s1 := (s.pushFrames x.part x.frames).endFrameWait x.part t
  let s2 := x.stages.foldl (fun (u : State) st =>
    let u1 := match st.region with
      | some k => u.resumeRegion k
      | none => u
    match st.seq with
    | some n => u1.resumeSeq n
    | none => u1) s1
  let s3 := x.regions.foldl (fun (u : State) r => (u.region r.2).islands.foldl (fun (v : State) k =>
    v.setIsland k { v.island k with stopAt := none }) u) s2
  s3.setTask t (some { x with frames := [], preempt := false, need := none, settling := none, unsettled := false, savedAway := [],
                              spared := some (s3.part x.part).pfTop })

/-- SAVE_CANCEL (R466): a write of CANCEL to BR_SVFLT gives up a save that waits. -/
def execSaveCancel (part : Nat) (s : State) : Host.Outcome State Fault Refusal :=
  let p : BitVec 7 := BitVec.ofNat 7 part
  .next <| match (if s.barOpen then (s.part p).wait else none) with
  | none => s
  | some w => match s.task w.1 with
    | none => s
    | some x =>
      if w.2.1 then s
      else
        let s1 := s.giveUpSave w.1 x
        match x.origin with
        | none => (s.farChips x).foldl (fun (u : State) c => u.send c (.resume w.1)) s1
        | some (chip, gang, _) => s1.send chip (.resume gang)

/-! ### RESTORE (R335, R362, R411) -/

/-- The region that a saved stage had. -/
def Saved.regionOf (v : Saved) (k : Nat) : Option (Nat × Region) := v.regions.find? fun e => match e.2.owner with
  | some o => o.2 == k
  | none => false

/-- R335: whether every stage here has been placed where it was, under the same alternative. -/
def State.samePlaces (s : State) (x : Task) (v : Saved) : Bool :=
  !v.unsettled && x.stages.zipIdx.all fun e => stageChip e.1 != s.chipId || match v.regionOf e.2, e.1.region with
    | some (key, r), some k => key == k && r.alt == e.1.alt
    | _, _ => false

/-- The sequencer that a saved one is now. -/
def Saved.seqNow (v : Saved) (x : Task) (n : Nat) : Nat :=
  ((v.regions.find? fun e => e.2.seq == some n).bind fun e => (e.2.owner.bind fun o => (x.stages[o.2]?).bind (·.seq))).getD n

/-- R335, R411: puts a context back where it was. -/
def State.restoreHere (s : State) (t : Nat) (x : Task) (v : Saved) : State :=
  let s1 := s.putBack t v (v.seqNow x)
  let s2 := x.stages.foldl (fun (u : State) st => match st.region with
    | some k => u.refetchAll x k st.seq
    | none => u) s1
  (s2.setTask t (some { x with resume := true, stages := x.stages.map fun st => if st.region.isSome then { st with loaded := true } else st })).readyTask t

/-- R335, R408, R469, R470: restarts one stage of a saved context in its new place, its islands not yet enabled; its channels are replayed
from their logs. -/
def State.restoreStage (s : State) (t : Nat) (x : Task) (k key : Nat) (st : Stage) (v : Saved) (i : Image) : Option State :=
  match v.regionOf k with
  | none => none
  | some (old, r) =>
    match s.restage x st old key st.seq st.alt v i with
    | none => none
    | some s1 =>
      let rounds := roundsFor (v.rounds r) (s1.region key).islands.length
      let s2 := (s1.resetRegion key rounds).goOn x k key st rounds
      let s3 := match st.seq with
        | some n => s2.setSeq n { s2.seq n with run := .saved }
        | none => s2
      let s4 := (v.chans.foldl (fun (u : State) e => match e.2 with
        | some g =>
          if g.consumer = k then
            let made := match (v.regionOf g.producer).bind fun p => v.rounds p.2 with
              | some (r0 :: _) => g.log.filter fun tok => roundLe tok.rnd r0
              | _ => []
            let n := 4 * moveCore old key (e.1 / 4) + e.1 % 4
            let u1 := u.setChan n { g with rcv := g.retired, dlv := g.retired, nrcv := 0, skipTo := some (g.retired, 0), log := made, replay := none }
            { u1 with transit := put [] u1.transit n made }
          else u
        | none => u) s3).refetchAll x key st.seq
      some (s4.onTaskStage t k fun y => { y with loaded := true, moving := true })

/-- The next stage of a task that has a place here and is not loaded. -/
def nextUnloaded (x : Task) : Option (Nat × Nat × Stage) :=
  (x.stages.zipIdx.findSome? fun e => match e.1.region with
    | some key => if e.1.loaded then none else some (e.2, key, e.1)
    | none => none)

/-- R335, R336: a saved task across chips has its places here: the initiator learns when, and whether they are the old ones. -/
def State.reportPlaced (s : State) (t : Nat) (x : Task) (same : Bool) : State :=
  match x.origin with
  | some (chip, gang, m) =>
    if (x.stages.head?.bind (·.ready)).isSome then s
    else (s.onTaskStage t 0 fun st => { st with ready := some s.mgmt.podTime, same := same }).send chip (.memberAnswer gang m (some s.mgmt.podTime) same)
  | none => if x.ready.isSome then s else s.setTask t (some { x with ready := some s.mgmt.podTime })

/-- RESTORE (R335): a saved task that has been placed again resumes in place, or each of its stages restarts from its restart round. A gang
across chips resumes in place only where every member does, as the initiator says with the start time. A context that cannot be opened is
not resumed (R362). -/
def execRestore (task : Nat) (s : State) : Host.Outcome State Fault Refusal :=
  .next <| match s.task task with
  | none => s
  | some x => match x.saved with
    | none => s
    | some v =>
      if x.state ≠ .starting ∨ x.ending then s
      else if x.resume then s.readyTask task
      else if s.sealsLost v then s.setTask task (some { x with ending := true })
      else if s.acrossChips x ∧ x.inPlace.isNone then s.reportPlaced task x (s.samePlaces x v)
      else if s.samePlaces x v ∧ x.inPlace ≠ some false then s.restoreHere task x v
      else if s.savedBusy task v then s.setTask task (some { x with saved := some v.wake })
      else match nextUnloaded x with
      | none => (s.setTask task (some { x with resume := true })).readyTask task
      | some (k, key, st) => match s.readImage (taskWork task) x.asid x.part (stageImage st) [] 10000 with
        | .wait s1 => s1
        | .got (.done i) s1 => (match s1.restoreStage task x k key st v i with
          | some s2 => s2.endWork (taskWork task)
          | none => s1.setTask task (some { x with ending := true }))
        | .got _ s1 => s1.setTask task (some { x with ending := true })

/-! ### BR_L2REQ (R338) -/

/-- BR_L2REQ_WRITE (R338): asks for an L2 mode: dispatch stops and every resident task is pre-empted. -/
def execBrL2reqWrite (v : BitVec 64) (s : State) : Host.Outcome State Fault Refusal :=
  .next (if !s.barOpen ∨ !v.getLsbD 0 ∨ s.host.l2req.getLsbD 0 then s
    else
      let s1 := { s with host := { s.host with l2req := v.setWidth 2 }, brass := { s.brass with stopped := true, l2done := false } }
      s1.settleL2)

end Sys2Proof.Machine
end

