-- ==== Sys2Proof/Machine/Gangs.lean ====
section
/-! DEFINITION. Gangs across chips: member requests, start times, skew, retries, remote launches and lost members (R286, R336, R337, R472
to R474). -/

namespace Sys2Proof.Machine

/-! ### Member requests (R336) -/

/-- The member task here of a stage of another chip's gang. -/
def State.memberOf (s : State) (chip gang stage : Nat) : Option (Nat × Task) :=
  s.brass.tasks.findSome? fun e => match e.2 with
    | some x => if x.origin = some (chip, gang, stage) then some (e.1, x) else none
    | none => none

/-- The member tasks here of another chip's gang. -/
def State.membersOf (s : State) (chip gang : Nat) : List (Nat × Task) :=
  s.brass.tasks.filterMap fun e => match e.2 with
    | some x => if (x.origin.map fun o => (o.1, o.2.1)) = some (chip, gang) then some (e.1, x) else none
    | none => none

/-- Puts a task among the pending heads of its partition, by level. -/
def State.pend (s : State) (t : Nat) (p : BitVec 7) (level : Nat) : State :=
  let y := s.part p
  let above := y.pending.takeWhile fun u => decide (level < s.levelOf u)
  s.setPart p { y with pending := above ++ (t :: y.pending.drop above.length) }

/-- R336, R337: takes a member request: refused, or a task that PLACEMENT places at the level of the entry's queue. A saved member is
placed again. -/
def State.takeMember (s : State) (chip gang stage : Nat) (asid : BitVec 16) (entry : BitVec 512) (arg : W64) : State :=
  let st : Stage := { entry := entry }
  let x := s.queue (stageQueue st)
  let refuse (u : State) : State := (u.endWork (memberWork chip gang stage)).send chip (.memberAnswer gang stage none false)
  match s.memberOf chip gang stage with
  | some (t, y) =>
    if y.state = .saved then (s.setTask t (some { y with state := .pending, startAt := none, inPlace := none })).pend t y.part y.level
    else match y.stages.head? with
    | some st => if st.ready.isSome then s.send chip (.memberAnswer gang stage st.ready st.same) else s
    | none => s
  | none =>
    if !entryClean entry ∨ stageChip st ≠ s.chipId ∨ !x.devl ∨ !s.admits x.ten chip asid then refuse s
    else match s.brassBytes (memberWork chip gang stage) x.asid x.part (stageImage st) 48 48 [] with
    | .wait s1 => s1
    | .fault s1 => refuse s1
    | .bytes b s1 =>
      match headerStage st b with
      | none => refuse s1
      | some g =>
        let t := s1.brass.nextTask
        let y : Task := { queue := stageQueue st, pos := 0, record := arg.setWidth 512 <<< 320, part := x.part, tenant := x.ten, level := x.lvl,
                          asid := x.asid, state := .pending, stages := [g], nstg := 1, cost := costOf s1.chipId [g], origin := some (chip, gang, stage) }
        ((s1.addTask y).endWork (memberWork chip gang stage)).pend t x.part x.lvl

/-- MEMBER_REQUEST (R336): a member chip validates a request and places the stage; the answer follows when the stage is loaded, or when it
finds no fit. -/
def execMemberRequest (chip gang stage : Nat) (asid : BitVec 16) (entry : BitVec 512) (arg : BitVec 64) (s : State) :
    Host.Outcome State Fault Refusal := .next (s.takeMember chip gang stage asid entry arg)

/-- R336: the initiator takes a member's answer. -/
def State.takeMemberAnswer (s : State) (gang stage : Nat) (ready : Option W64) (same : Bool) : State :=
  match s.task gang with
  | some x =>
    if x.state = .starting then
      s.onTaskStage gang stage fun st => if st.asked.isNone then st else
        match ready with
        | some r => { st with ready := some r, same := same, asked := none }
        | none => { st with refused := true, asked := none }
    else s
  | none => s

/-- MEMBER_REQUEST_TIMEOUT (R472): a request unanswered for 1 ms of pod time counts as a refusal. -/
def execMemberRequestTimeout (task : Nat) (s : State) : Host.Outcome State Fault Refusal :=
  .next <| match s.task task with
  | none => s
  | some x =>
    if x.state ≠ .starting then s
    else s.setTask task (some { x with stages := x.stages.map fun st => match st.asked with
      | some t0 => if t0 + 1000000 ≤ s.mgmt.podTime.toNat then { st with refused := true, asked := none } else st
      | none => st })

/-- The stages of a task as they are before placement. -/
def Task.unplaced (x : Task) : List Stage :=
  x.stages.map fun st => { st with region := none, seq := none, loaded := false, started := false, moving := false, ready := none, refused := false,
                                   same := false, asked := none }

/-- Takes a placed task that has not started off its places again; a context that is back already is saved once more. -/
def State.unplace (s : State) (t : Nat) (x : Task) : State :=
  let s1 := if x.resume then s.saveNow t x
    else
      let u := x.regions.foldl (fun (u : State) r => u.dropRegion r.2) s
      ((if x.saved.isSome then u else u.dropChans t x.part).endFrameWait x.part t).endWork (taskWork t)
  match s1.task t with
  | none => s1
  | some y => s1.setTask t (some { y with stages := y.unplaced, startAt := none, ready := none, inPlace := none, preempt := false })

/-- GANG_RETRY (R336): a refusal releases every placed member, and the task is a pending head again, to be placed 100 µs later. -/
def execGangRetry (task : Nat) (s : State) : Host.Outcome State Fault Refusal :=
  .next <| match s.task task with
  | none => s
  | some x =>
    if x.state ≠ .starting ∨ x.origin.isSome ∨ x.ending ∨ !(x.stages.any (·.refused)) then s
    else
      let s1 := s.unplace task x
      match s1.task task with
      | none => s1
      | some y =>
        let y1 : Task := { y with state := .pending, retryAt := some (s.mgmt.podTime.toNat + 100000) }
        (s.farChips x).foldl (fun (u : State) c => u.send c (.releaseMembers task)) (((s1.setTask task (some y1)).unpend task y.part).pend task y.part y.level)

/-! ### Start times and skew (R336, R337, R472) -/

/-- The latest of a list of times. -/
def latest (l : List W64) : W64 := l.foldl (fun (m : W64) r => if m.toNat < r.toNat then r else m) 0

/-- R336, R337, R335: a member learns the start time, the skew limit, and whether its saved context resumes in place (log 150). -/
def Task.told (x : Task) (time : W64) (skew : BitVec 16) (inPlace : Bool) : Task :=
  { x with startAt := some time, inPlace := if x.saved.isSome then some inPlace else none,
           record := (x.record &&& ~~~((0xFFFF : BitVec 512) <<< 144)) ||| (skew.setWidth 512 <<< 144) }

/-- Whether a task may start at its time: its stages here are loaded, and a context is back whole. -/
def State.mayStart (s : State) (x : Task) : Bool :=
  s.allLoaded x && (x.saved.isNone || x.resume) && !(x.resume && x.regions.any fun r => s.refetching r.2)

/-- GANG_START_TIME (R336): the initiator sets T once every member is ready, and tells the members; at T each chip enables its islands. -/
def execGangStartTime (task : Nat) (s : State) : Host.Outcome State Fault Refusal :=
  .next <| match s.task task with
  | none => s
  | some x =>
    if x.state ≠ .starting ∨ x.ending ∨ !s.acrossChips x then s
    else match x.startAt with
    | some t =>
      if s.mgmt.podTime.toNat < t.toNat ∨ !s.mayStart x ∨ (s.makeChans task x).isNone then s
      else
        let s1 := ((s.makeChans task x).getD s).startTask task
        match x.origin with
        | some (chip, gang, m) => s1.send chip (.started gang m (x.stages.any (·.hasCode)))
        | none => s1
    | none =>
      let far := x.stages.filter fun st => stageChip st != s.chipId
      let here := x.ready.isSome || x.stages.all fun st => stageChip st != s.chipId
      if x.origin.isSome ∨ !(far.all fun st => st.ready.isSome) ∨ !here then s
      else
        let t := latest (x.ready.toList ++ far.filterMap (·.ready)) + 10000
        let same := (far.all (·.same)) && (x.saved.map (s.samePlaces x)).getD false
        let skew : BitVec 16 := BitVec.ofNat 16 (skewOf x.record)
        (s.farChips x).foldl (fun (u : State) c => u.send c (.start task t skew same))
          ((s.setTask task (some (x.told t skew same))).unpend task x.part)

/-- R472: a member reports its start, and whether it runs a control program (log 150); a gang whose members all started within the limit has its count cleared. -/
def State.takeStarted (s : State) (gang stage : Nat) (code : Bool) : State :=
  let s1 := s.onTaskStage gang stage fun st => { st with started := true, hasCode := code }
  match s1.task gang with
  | none => s1
  | some x =>
    let inTime := match x.startAt with
      | some t => decide (s.mgmt.podTime.toNat < t.toNat + 1000 * skewOf x.record)
      | none => false
    if inTime && x.stages.all (·.started) then s1.setTask gang (some { x with skews := 0 }) else s1

/-- GANG_SKEW_EXPIRY (R337, R472): at T + SKEW stalls count again; a member that has not reported its start pre-empts the gang, which then
restarts, and the eighth time in a row ends the task. -/
def execGangSkewExpiry (task : Nat) (s : State) : Host.Outcome State Fault Refusal :=
  .next <| match s.task task with
  | none => s
  | some x => match x.startAt with
    | none => s
    | some t =>
      if x.state ≠ .resident ∨ s.mgmt.podTime.toNat < t.toNat + 1000 * skewOf x.record then s
      else
        let s1 := x.regions.foldl (fun (u : State) r => u.endEarly r.2) (s.setTask task (some { x with startAt := none }))
        if x.origin.isSome ∨ x.stages.all (·.started) then s1
        else if 7 ≤ x.skews then s1.setTask task (some { x with startAt := none, ending := true, cause := 0x0402 })
        else (s1.setTask task (some { x with startAt := none, skews := x.skews + 1 })).beginRestartAll task

/-! ### Packets about gangs -/

/-- Takes a member that has not started off its place: its context, where it has one, stays saved; without one it is forgotten. -/
def State.releaseMember (s : State) (t : Nat) (x : Task) : State :=
  let s1 := (s.unplace t x).unpend t x.part
  match s1.task t with
  | none => s1
  | some y => s1.setTask t (if y.saved.isSome then some { y with state := .saved } else none)

/-- R336: a refused start releases the members here that have been placed. -/
def State.releaseMembers (s : State) (chip gang : Nat) : State :=
  (s.membersOf chip gang).foldl (fun (u : State) e =>
    if e.2.state = .pending ∨ e.2.state = .starting then u.releaseMember e.1 e.2 else u) s

/-- The initiator's packet that ends a gang's members here. -/
def State.endMembers (s : State) (chip gang : Nat) : State :=
  (s.membersOf chip gang).foldl (fun (u : State) e => (u.unpend e.1 e.2.part).setTask e.1 (some { e.2 with ending := true })) s

/-- R333, R337: the initiator asks for the members here to be saved, to resume in place or to restart; one that has not started has no
context to save. -/
def State.preemptMembers (s : State) (chip gang : Nat) (restart : Bool) : State :=
  (s.membersOf chip gang).foldl (fun (u : State) e =>
    if e.2.state = .resident then
      (if e.2.preempt then u.setTask e.1 (some { e.2 with unsettled := e.2.unsettled || restart }) else u.preemptHere e.1 restart)
    else if e.2.state = .saved then
      (u.setTask e.1 (some { e.2 with saved := e.2.saved.map fun v => { v with unsettled := v.unsettled || restart } })).send chip
        (.saved gang ((e.2.origin.map (·.2.2)).getD 0))
    else (u.releaseMember e.1 e.2).send chip (.saved gang ((e.2.origin.map (·.2.2)).getD 0))) s

/-- R330, R333: a member's chip asks for the pre-emption of the whole gang. -/
def State.preemptGang (s : State) (gang : Nat) (restart : Bool) : State :=
  match s.task gang with
  | some x =>
    if x.origin.isSome ∨ x.ending then s
    else if x.state = .resident then
      (if x.preempt then s.setTask gang (some { x with unsettled := x.unsettled || restart }) else s.beginPreempt gang restart)
    else if x.state = .starting then s.setTask gang (some { x with preempt := true, unsettled := x.unsettled || restart })
    else s
  | none => s

/-- A member's stage has been saved. -/
def State.takeSaved (s : State) (src gang : Nat) : State :=
  match s.task gang with
  | some x =>
    if x.origin.isNone ∧ !x.savedAway.contains src then
      (s.setTask gang (some { x with savedAway := x.savedAway ++ [src] })).refreshLevels x.part
    else s
  | none => s

/-- R466: the save of a gang is given up: a member that is still being saved goes on in place, and one that has been saved comes back. At
the initiator, a member's report gives up the save of the whole gang while its own context is still here. -/
def State.takeResume (s : State) (src gang : Nat) : State :=
  match s.membersOf src gang with
  | [] => (match s.task gang with
    | some x =>
      if x.origin.isSome then s
      else if x.state = .saved then s.send src (.preempt gang false)
      else if x.preempt then
        ((s.farChips x).filter (· != src)).foldl (fun (u : State) c => u.send c (.resume gang)) (s.giveUpSave gang x)
      else s
    | none => s)
  | l => l.foldl (fun (u : State) e =>
      if e.2.preempt then u.giveUpSave e.1 e.2
      else if e.2.state = .saved then
        (u.setTask e.1 (some { e.2 with state := .pending, startAt := some u.mgmt.podTime, inPlace := some true })).pend e.1 e.2.part e.2.level
      else u) s

/-- R474: Brass of a member's chip has ended its stage: the gang ends. -/
def State.takeEnded (s : State) (gang stage : Nat) (cause : BitVec 32) : State :=
  match s.task gang with
  | some x =>
    if x.origin.isNone ∧ x.state ≠ .ended then
      s.setTask gang (some { x with ending := true, stages := x.stages.modify stage fun st => { st with cause := some (st.cause.getD cause) } })
    else s
  | none => s

/-! ### Remote launches (R286, R337) -/

/-- Appends the record of a remote LNCH, or refuses it, and answers. -/
def State.takeLaunch (s : State) (chip id : Nat) (asid : BitVec 16) (q : Nat) (rec_ : BitVec 512) : State :=
  let x := s.queue q
  if !x.devl ∨ !s.admits x.ten chip asid then s.send chip (.launchAnswer id 15 (-1))
  else
    let (s1, code, index) := s.append q rec_
    s1.send chip (.launchAnswer id code index)

/-- REMOTE_LAUNCH (R337). -/
def execRemoteLaunch (chip id : Nat) (asid : BitVec 16) (q : Nat) (rec_ : BitVec 512) (s : State) : Host.Outcome State Fault Refusal :=
  .next (s.takeLaunch chip id asid q rec_)

/-! ### Lost members (R473) -/

/-- MEMBER_UNREACHABLE (R473): a member's chip that is lost, or has had no usable port for 10 ms, ends the task; a lost initiator ends its
members. -/
def execMemberUnreachable (task chip : Nat) (s : State) : Host.Outcome State Fault Refusal :=
  .next <| match s.task task with
  | none => s
  | some x =>
    let hosts := x.stages.any fun st => stageChip st == chip && chip != s.chipId
    match x.origin with
    | some (from_, _, _) => if from_ = chip ∧ s.mem.gone.contains chip then s.setTask task (some { x with ending := true }) else s
    | none =>
      if !hosts ∨ x.state = .ended then s
      else
        let fail (u : State) : State := u.setTask task (some { x with ending := true, cause := 0x0403 })
        if s.mem.gone.contains chip then fail s
        else if (s.portTo chip).isSome then s.setTask task (some { x with unreached := put 0 x.unreached chip 0 })
        else
          let now := s.mgmt.podTime.toNat
          let since := look 0 x.unreached chip
          if since = 0 then s.setTask task (some { x with unreached := put 0 x.unreached chip (now + 1) })
          else if since + 10000000 ≤ now + 1 then fail s else s

end Sys2Proof.Machine
end

