-- ==== Sys2Proof/Machine/HostPort.lean ====
section
/-! DEFINITION. The host port: DMA rings and their blocks, and what tears a host function down (R357, R358, R367 to R374, R461 to R463). -/

namespace Sys2Proof.Machine

/-! ### Functions and rings -/

def State.fn (s : State) (f : Nat) : Fn := look {} s.host.fns f

def State.setFn (s : State) (f : Nat) (x : Fn) : State := { s with host := { s.host with fns := put {} s.host.fns f x } }

def State.ring (s : State) (f r : Nat) : Ring := look {} (s.fn f).rings r

def State.setRing (s : State) (f r : Nat) (x : Ring) : State :=
  s.setFn f { s.fn f with rings := put {} (s.fn f).rings r x }

def Ring.size (x : Ring) : Nat := 2 ^ (x.lsz.toNat + 4)

/-- R390, R463: whether a function has this ring and its BAR takes writes. -/
def State.ringOpen (s : State) (f r : Nat) : Bool := s.barOpen && !(s.fn f).qsc && decide (f ≤ 1024) && decide (r ≤ 3)

/-- R369: the partition to which a function is bound. -/
def Fn.bound (x : Fn) : Option (BitVec 7) := if x.part.getLsbD 7 then some (x.part.setWidth 7) else none

/-- The DMA's work for a ring. -/
def dmaWork (f r : Nat) : Nat := 5000 + 4 * f + r

/-- HP_DTAIL_WRITE (R371): TAIL := max(TAIL, w); OVF when it passes HEAD + SIZE. -/
def execHpDtailWrite (f r : Nat) (v : BitVec 64) (s : State) : Host.Outcome State Fault Refusal :=
  let x := s.ring f r
  let tail := if x.tail.ult v then v else x.tail
  .next (if s.ringOpen f r then s.setRing f r { x with tail := tail, ovf := x.ovf || decide (x.head.toNat + x.size < tail.toNat) } else s)

/-! ### Request blocks (R357 Table 8) -/

def blkIv (b : BitVec 512) : BitVec 96 := b.extractLsb' 416 96
def blkKh (b : BitVec 512) : BitVec 16 := b.extractLsb' 400 16
def blkAsid (b : BitVec 512) : BitVec 16 := b.extractLsb' 384 16
def blkHaddr (b : BitVec 512) : W64 := b.extractLsb' 320 64
def blkHtag (b : BitVec 512) : W64 := b.extractLsb' 256 64
def blkDva (b : BitVec 512) : W64 := b.extractLsb' 192 64
def blkLen (b : BitVec 512) : Nat := (b.extractLsb' 152 40).toNat
def blkOut (b : BitVec 512) : Bool := b.getLsbD 0

/-- R357: the reserved bits of a block, its alignments and its length. -/
def blkFormOk (b : BitVec 512) : Bool :=
  b.extractLsb' 1 151 == 0 && decide ((blkHaddr b).toNat % 64 = 0) && decide ((blkHtag b).toNat % 16 = 0) &&
  decide ((blkDva b).toNat < 2 ^ 51) && decide (blkLen b % (if blkKh b = 0 then 64 else 4096) = 0)

/-- Whether the block's device range lies in a range of its handle, from a unit on. -/
def blkInside (b : BitVec 512) (base len : W64) : Bool :=
  decide (base.toNat ≤ (blkDva b).toNat) && decide ((blkDva b).toNat + blkLen b ≤ base.toNat + len.toNat) &&
  decide (((blkDva b).toNat - base.toNat) % 4096 = 0)

/-- The number in its range of the block's first unit. -/
def blkUnit (b : BitVec 512) (base : W64) : Nat := ((blkDva b).toNat - base.toNat) / 4096

/-- R358 Table 9: whether a block under a handle is one that the table gives. -/
def blkKeyOk (b : BitVec 512) (h : KeyRec) : Bool :=
  let iv := blkIv b
  let salt := iv.extractLsb' 64 32 == h.salt
  match h.type, blkOut b with
  | 1, false => salt && blkInside b h.rbase h.rlen && (iv.setWidth 32 : BitVec 32) == BitVec.ofNat 32 (blkUnit b h.rbase)
  | 2, false => salt && blkInside b h.rbase h.rlen && (iv.setWidth 32 : BitVec 32) == BitVec.ofNat 32 (blkUnit b h.rbase)
  | 2, true => iv == 0 && blkInside b h.wbase h.wlen
  | 3, false => salt
  | 3, true => salt && h.lastIv.ult (iv.extractLsb' 32 32)
  | _, _ => false

/-- The partition under which a block runs (R369): that of its function, or for the PF that of the block's ASID. -/
inductive BlockPart where
  | refused
  /-- The ASID has no valid table entry, or it cannot be read. -/
  | noAsid
  | part (p : BitVec 7)
  deriving DecidableEq, Repr

def State.blockPart (s : State) (f : Nat) (asid : BitVec 16) : BlockPart :=
  let own : Option (BitVec 7) := match s.asidEntry asid with
    | .ok e => if pteV e then some (e.extractLsb' 56 7) else none
    | .error _ => none
  match (s.fn f).bound, own with
  | some p, some o => if o = p then .part p else .refused
  | some p, none => .part p
  | none, some o => if f = 0 then .part o else .refused
  | none, none => if f = 0 then .noAsid else .refused

/-- R345, R358: whether a partition accepts a block. -/
def State.blockOk (s : State) (b : BitVec 512) (p : BitVec 7) : Bool :=
  if blkKh b = 0 then !look false s.sec.conf p.toNat
  else match s.handle (blkKh b) with
  | some h => h.part == p && h.asid == blkAsid b && blkKeyOk b h
  | none => false

/-! ### Ending a block (R372, R373) -/

/-- The 16 bytes of a completion entry. -/
def completionEntry (pos size status nbytes : Nat) : BitVec 128 :=
  BitVec.ofNat 64 nbytes ++ (0#23 ++ (BitVec.ofBool (pos / size % 2 == 0) ++ (BitVec.ofNat 8 status ++ BitVec.ofNat 32 pos)))

/-- Ends the running block: the completion entry, the MSI-X message, then HEAD advances. A quiescing function writes nothing to the host
and sends no message: its ring is cleared (R461). -/
def State.endBlock (s : State) (f r status nbytes : Nat) : State :=
  let x := s.ring f r
  let p := x.head.toNat
  let at_ := x.cmp + BitVec.ofNat 64 (16 * (p % x.size))
  if (s.fn f).qsc then s.setRing f r {}
  else
  let s1 := (s.endWork (dmaWork f r)).setRing f r
    { x with busy := false, head := x.head + 1, err := x.err || status != 0, blk := 0, tag := none, done := 0, buf := [], tags := [],
             short := false }
  let s2 := { s1 with host := { s1.host with writes := s1.host.writes ++ [(at_, bytesOf (completionEntry p x.size status nbytes) 16)] } }
  s2.interrupt f x.vec.toNat

/-! ### Running a block (R358, R372) -/

/-- The tag that the next host read takes. -/
def Fn.freeTag (x : Fn) : Nat :=
  ((List.range (x.reads.length + x.late.length + 1)).find? fun n => look 0 x.reads n == 0 && !x.late.contains n).getD 0

/-- Starts a block: it is refused, or it runs; one from the host issues its host reads. -/
def State.startBlock (s : State) (f r : Nat) (b : BitVec 512) (hostErr : Bool) : State :=
  let x := s.ring f r
  let s1 := s.setRing f r { x with busy := true, blk := b }
  if hostErr then s1.endBlock f r 4 0
  else if !blkFormOk b then s1.endBlock f r 1 0
  else match s.blockPart f (blkAsid b) with
  | .refused => s1.endBlock f r 1 0
  | .noAsid => s1.endBlock f r 3 0
  | .part p =>
    if !s.blockOk b p then s1.endBlock f r 1 0
    else
      let s2 := match s.handle (blkKh b) with
        | some h => if h.type = 3 ∧ blkOut b then s1.setHandle (blkKh b) (some { h with lastIv := (blkIv b).extractLsb' 32 32 }) else s1
        | none => s1
      if blkOut b ∨ blkLen b = 0 then s2
      else
        let y := s2.fn f
        let n := y.freeTag
        let units := blkLen b / 64 + (if blkKh b = 0 then 0 else (blkLen b / 4096 + 3) / 4)
        (s2.setFn f { y with reads := put 0 y.reads n units }).setRing f r { s2.ring f r with tag := some n }

/-- Device accesses in one unit of a block: a line for a plain copy; else 64 lines, and the tag where it is kept on the device. -/
def unitAccesses (h : Option KeyRec) : Nat := match h with
  | none => 1
  | some k => if k.type = 3 then 64 else 65

/-- Bytes in one unit. -/
def unitBytes (h : Option KeyRec) : Nat := match h with
  | none => 64
  | some _ => 4096

/-- The device address of access `k` of unit `u` of a block, and its width. -/
def dmaPlace (b : BitVec 512) (h : Option KeyRec) (u k : Nat) : W64 × Nat :=
  if k = 64 then
    let (base, tag) := match h with
      | some x => if blkOut b then (x.wbase, x.wtag) else (x.rbase, x.rtag)
      | none => (0, 0)
    (tag + BitVec.ofNat 64 (16 * (blkUnit b base + u)), 16)
  else (blkDva b + BitVec.ofNat 64 (unitBytes h * u + 64 * k), 64)

/-- The IV of unit `u` of a block. -/
def dmaIv (b : BitVec 512) (u : Nat) : BitVec 96 := blkIv b + BitVec.ofNat 96 u

/-- The data of a unit that host reads have brought, as it is to be written: unchanged, or deciphered under a handle of TYPE 3. -/
def unitData (b : BitVec 512) (h : Option KeyRec) (u : Nat) (data : List Byte) : List Byte :=
  let d := (data.drop (unitBytes h * u)).take (unitBytes h)
  match h with
  | some k => if k.type = 3 then Config.sm4Gcm k.key (dmaIv b u) d else d
  | none => d

/-- R358: whether the tag of a unit from the host checks; a plain copy has none. -/
def unitChecks (b : BitVec 512) (h : Option KeyRec) (u : Nat) (data tags : List Byte) : Bool :=
  match h with
  | some k => Config.sm4Tag k.key (dmaIv b u) ((data.drop (4096 * u)).take 4096) [] == ofBytes 128 ((tags.drop (16 * u)).take 16)
  | none => true

/-- What the host receives of a unit that has been read whole: its data, and its tag. -/
def unitOut (b : BitVec 512) (h : Option KeyRec) (u : Nat) (got : List Byte) : List (W64 × List Byte) :=
  let at_ := blkHaddr b + BitVec.ofNat 64 (unitBytes h * u)
  let tagAt := blkHtag b + BitVec.ofNat 64 (16 * u)
  match h with
  | none => [(at_, got)]
  | some k =>
    if k.type = 3 then
      let c := Config.sm4Gcm k.key (dmaIv b u) got
      [(at_, c), (tagAt, bytesOf (Config.sm4Tag k.key (dmaIv b u) c []) 16)]
    else [(at_, got.take 4096), (tagAt, (got.drop 4096).take 16)]

/-- R358: the pages that a block under a handle of TYPE 1 reaches may be operand-only. -/
def dmaOo (h : Option KeyRec) : Bool := match h with
  | some k => k.type == 1
  | none => false

/-- The DMA as an issuer. It stands beside Brass and the 33 sequencers. -/
def dmaIssuer (asid : BitVec 16) (part : BitVec 7) : Issuer := { who := .seq 34, cluster := 0, asid := asid, part := part }

/-- The translation cache of the DMA's die. -/
def dmaUnit : Nat := 301

/-- R373: performs the device accesses of the unit in progress, as far as none of them waits, and ends the unit. -/
def State.runUnit (s : State) (f r : Nat) (h : Option KeyRec) (part : BitVec 7) : Nat → State
  | 0 => s
  | fuel + 1 =>
    let x := s.ring f r
    let b := x.blk
    let n := unitAccesses h
    let u := x.done / n
    let k := x.done % n
    let (va, w) := dmaPlace b h u k
    let op : MemOp := if blkOut b then .load w
      else .store w (ofBytes 512 (if k = 64 then (x.tags.drop (16 * u)).take 16 else ((unitData b h u x.buf).drop (64 * k)).take 64))
    match s.workAccess (dmaWork f r) dmaUnit (dmaIssuer (blkAsid b) part) va op (dmaOo h) with
    | .wait s1 => s1
    | .got a s1 =>
      if a.fault.isSome then s1.endBlock f r 3 (unitBytes h * u)
      else
        let y := s1.ring f r
        let got := if blkOut b then y.buf ++ bytesOf a.data w else y.buf
        let s2 := s1.setRing f r { y with done := y.done + 1, buf := got }
        if k + 1 < n then s2.runUnit f r h part fuel
        else
          let s3 := (if blkOut b then
              { s2 with host := { s2.host with writes := s2.host.writes ++ unitOut b h u got } }.setRing f r { s2.ring f r with buf := [] }
            else s2).endWork (dmaWork f r)
          match h with
          | some y => if y.type = 3 then s3.meter (blkKh b) (if blkOut b then 0 else 4096) (if blkOut b then 4096 else 0) 0 else s3
          | none => s3

/-- One unit of a running block, or its end: with EN cleared at a unit boundary the block is cancelled (R374). -/
def State.runBlock (s : State) (f r : Nat) : State :=
  let x := s.ring f r
  let b := x.blk
  let h := s.handle (blkKh b)
  let n := unitAccesses h
  let u := x.done / n
  let moved := unitBytes h * u
  if x.done % n = 0 ∧ !x.en then s.endBlock f r 5 moved
  else if blkLen b ≤ moved then s.endBlock f r (if x.short then 4 else 0) moved
  else if blkKh b ≠ 0 ∧ h.isNone then s.endBlock f r 3 moved
  else match s.blockPart f (blkAsid b) with
  | .part p =>
    if x.done % n ≠ 0 ∨ blkOut b then s.runUnit f r h p n
    else if x.buf.length < moved + unitBytes h ∨ (h.isSome ∧ x.tags.length < 16 * (u + 1)) then s.endBlock f r 4 moved
    else if !unitChecks b h u x.buf x.tags then s.endBlock f r 2 moved
    else s.runUnit f r h p n
  | .noAsid => s.endBlock f r 3 moved
  | .refused => s.endBlock f r 3 moved

/-- DMA_BLOCK (R372): starts the ring's next block, whose 64 bytes the ring has read; takes what its host reads bring, with whether one of
them failed; or runs its next unit. A block of a quiescing function goes on to the end of its unit (R461). -/
def execDmaBlock (f r : Nat) (blk : BitVec 512) (data tags : List (BitVec 8)) (hostErr : Bool) (s : State) :
    Host.Outcome State Fault Refusal :=
  let x := s.ring f r
  .next <| if (s.fn f).qsc && x.busy then s.runBlock f r
  else if !s.ringOpen f r then s
  else if !x.busy then (if x.en && !x.ovf && x.head.ult x.tail then s.startBlock f r blk hostErr else s)
  else match x.tag with
  | some n =>
    let y := s.fn f
    if look 0 y.reads n = 0 then s
    else
      let s1 := s.setFn f { y with reads := put 0 y.reads n 0 }
      (s1.setRing f r { s1.ring f r with tag := none, buf := data, tags := tags, short := hostErr }).runBlock f r
  | none => s.runBlock f r

/-- R374: clears EN; a block that stands at a unit boundary ends at once. -/
def State.disableRing (s : State) (f r : Nat) : State :=
  let x := s.ring f r
  let s1 := s.setRing f r { x with en := false }
  if x.busy ∧ x.done % unitAccesses (s.handle (blkKh x.blk)) = 0 then s1.runBlock f r else s1

/-- DMA_RING_DISABLE (R374). -/
def execDmaRingDisable (f r : Nat) (s : State) : Host.Outcome State Fault Refusal :=
  .next (if s.ringOpen f r then s.disableRing f r else s)

/-! ### Tearing a function down (R461 to R463) -/

/-- R461: the device accesses that a block from the host has still to make in the unit in progress; none at a unit boundary. -/
def State.unitLeft (s : State) (x : Ring) : Nat :=
  let n := unitAccesses (s.handle (blkKh x.blk))
  if x.busy ∧ !blkOut x.blk ∧ x.done % n ≠ 0 then n - x.done % n else 0

/-- R461: a ring of a function that begins to quiesce: it is cleared, unless it must write the rest of a unit. -/
def State.quiesceRing (s : State) (x : Ring) : Ring := if s.unitLeft x = 0 then {} else { x with en := false }

/-- R461: a function begins to quiesce: its rings stop, and it remembers its binding. Host reads stay outstanding. -/
def State.quiesceFn (s : State) (x : Fn) : Fn :=
  { x with rings := x.rings.foldr (fun e (t : Tab Ring) => put {} t e.1 (s.quiesceRing e.2)) [], qsc := true, was := x.bound }

/-- R369: FN of BR_QVF. -/
def Queue.fn (q : Queue) : Nat := (q.qvf.setWidth 11 : BitVec 11).toNat

/-- R461: the functions that a test names quiesce: rings, mailbox requests, and the queues assigned to them. A VF in which nothing is
under way has quiesced when it begins. -/
def State.quiesce (s : State) (p : Nat → Bool) : State :=
  { s with
    host := { s.host with fns := s.host.fns.map fun e => (e.1, if p e.1 then s.quiesceFn e.2 else e.2) }
    sec := { s.sec with boxes := s.sec.boxes.filter fun e => !p e.1,
                        tearing := s.sec.tearing.map fun t => (t.1, t.2 && !p 0) }
    brass := { s.brass with queues := s.brass.queues.foldr (fun e (t : Tab Queue) =>
      put {} t e.1 (if e.2.fn ≠ 0 ∧ p e.2.fn then { e.2 with qvf := 0 } else e.2)) [] } }

/-- FUNCTION_LEVEL_RESET (R374, R388, R461): of a VF, or of the PF and with it of every VF. -/
def execFunctionLevelReset (f : Nat) (s : State) : Host.Outcome State Fault Refusal :=
  .next (s.quiesce fun k => f == 0 || k == f)

/-- VF_ENABLE_CLEAR (R461). -/
def execVfEnableClear (s : State) : Host.Outcome State Fault Refusal :=
  .next (s.quiesce fun k => k != 0)

/-- R462: device writes of a function's blocks that have been issued and not yet performed: those sent to other chips, and those of the
units that a quiescing function still writes (log 159). -/
def State.dmaWrites (s : State) (f : Nat) : Nat :=
  (if (s.fn f).qsc then ((s.fn f).rings.map fun e => s.unitLeft e.2).sum else 0) +
  (s.brass.asks.filter fun k => decide (dmaWork f 0 ≤ k.work ∧ k.work ≤ dmaWork f 3) && k.answer.isNone && opWrites k.op).length

/-- R462 BR_FNQS: device writes, host reads and reply reservations. -/
def State.quiesceCounts (s : State) (f : Nat) : Nat × Nat × Nat :=
  (s.dmaWrites f, (s.fn f).reads.length, ((s.fn f).reads.map (·.2)).sum)

/-- QUIESCE_END (R461): every count is zero. -/
def execQuiesceEnd (f : Nat) (s : State) : Host.Outcome State Fault Refusal :=
  let s1 := (List.range 4).foldl (fun (u : State) r => u.endWork (dmaWork f r)) s
  .next (if (s.fn f).qsc ∧ s.quiesceCounts f = (0, 0, 0) then s1.setFn f { s1.fn f with rings := [], qsc := false, was := none } else s)

/-- The ring of a function whose block waits for a host read. -/
def State.waitsFor (s : State) (f n : Nat) : Option Nat := (List.range 4).find? fun r => (s.ring f r).tag == some n

/-- HOST_READ_TIMEOUT (R461): the read's reservation is released, and a block that waits for it ends with a host error. -/
def execHostReadTimeout (f n : Nat) (s : State) : Host.Outcome State Fault Refusal :=
  let x := s.fn f
  .next <| if look 0 x.reads n = 0 then s
  else
    let s1 := s.setFn f { x with reads := put 0 x.reads n 0, late := x.late ++ [n] }
    match s.waitsFor f n with
    | some r => s1.endBlock f r 4 0
    | none => s1

/-- HOST_READ_COMPLETION (R461): a completion that no block takes goes to the reply sink. -/
def execHostReadCompletion (f n : Nat) (s : State) : Host.Outcome State Fault Refusal :=
  let x := s.fn f
  .next (if (s.waitsFor f n).isSome then s else s.setFn f { x with reads := put 0 x.reads n 0 })

/-- UNEXPECTED_COMPLETION (R463): the completion of the oldest read that timed out comes, and is discarded. -/
def execUnexpectedCompletion (f : Nat) (s : State) : Host.Outcome State Fault Refusal :=
  let x := s.fn f
  .next (s.setFn f { x with late := x.late.drop 1 })

end Sys2Proof.Machine
end

