-- ==== Sys2Proof/Machine/Mailbox.lean ====
section
/-! DEFINITION. Cobalt's mailboxes: attestation, seals, sessions, usage, teardown and recovery (R344 to R366, R392, R458, R460, R481, R482). -/

namespace Sys2Proof.Machine

/-! ### Boxes (R344) -/

def State.box (s : State) (f : Nat) : Mailbox := look {} s.sec.boxes f

def State.setBox (s : State) (f : Nat) (x : Mailbox) : State := { s with sec := { s.sec with boxes := put {} s.sec.boxes f x } }

/-- R368, R390, R463: whether a function reaches its mailbox: in stage 2, or the PF in ROM recovery. -/
def State.boxOpen (s : State) (f : Nat) : Bool :=
  !(s.fn f).qsc && decide (f ≤ 1024) && (s.barOpen || (s.mgmt.stage == 0x80 && f == 0))

/-- MAILBOX_GO (R344): sets BUSY; ignored while BUSY, and until CB_MBUF has been written (R8). -/
def execMailboxGo (f : Nat) (s : State) : Host.Outcome State Fault Refusal :=
  .next (if s.boxOpen f ∧ (s.box f).written then s.setBox f { s.box f with busy := true } else s)

/-- R344: the function whose message is taken next: ascending, cyclically. -/
def State.nextBox (s : State) : Option Nat :=
  let l := (s.sec.boxes.filter (·.2.busy)).map (·.1)
  (l.find? (s.sec.lastServed < ·)).or l.head?

/-! ### Messages (R345) -/

/-- Bytes of a message, from an offset. -/
def msgBytes (b : Tab Byte) (o n : Nat) : List Byte := (List.range n).map fun k => look 0 b (o + k)

def msgNat (b : Tab Byte) (o n : Nat) : Nat := listNat (msgBytes b o n) 0 n

def msgWord (b : Tab Byte) (o : Nat) : W64 := BitVec.ofNat 64 (msgNat b o 8)

/-- Whether bytes of a message are zero. -/
def msgZero (b : Tab Byte) (o n : Nat) : Bool := (msgBytes b o n).all (· == 0)

def msgType (b : Tab Byte) : Nat := msgNat b 0 2

def msgLen (b : Tab Byte) : Nat := msgNat b 2 2

/-- R345 Table 4: the types that are not reserved. -/
def knownType (t : Nat) : Bool := decide (1 ≤ t) && decide (t ≤ 9)

/-- R345: a request's header. -/
def headerFine (b : Tab Byte) : Bool := decide (16 ≤ msgLen b) && decide (msgLen b ≤ 4096) && msgZero b 8 8

/-- What Cobalt answers: a status other than 0, or the bytes after the header; with a signature, what is signed before the response. -/
inductive Reply where
  | status (n : Nat)
  | plain (body : List Byte)
  | signed (before body : List Byte)
  deriving DecidableEq, Repr

/-- R345: the header of a response. -/
def replyHeader (b : Tab Byte) (len status : Nat) : List Byte :=
  msgBytes b 0 2 ++ bytesOf (BitVec.ofNat 16 len) 2 ++ msgBytes b 4 4 ++ bytesOf (BitVec.ofNat 16 status) 2 ++ List.replicate 6 0

/-- A table of bytes from a list. -/
def byteTab (l : List Byte) : Tab Byte := (l.zip (List.range l.length)).foldl (fun (t : Tab Byte) e => put 0 t e.2 e.1) []

/-- R344, R345: puts the response to a request into its mailbox. -/
def State.respond (s : State) (f : Nat) (b : Tab Byte) (r : Reply) : State :=
  let fill (s : State) (l : List Byte) : State := s.setBox f { s.box f with busy := false, done := true, buf := byteTab l }
  match r with
  | .status n => fill s (replyHeader b 16 n)
  | .plain body => fill s (replyHeader b (16 + body.length) 0 ++ body)
  | .signed before body =>
    let l := replyHeader b (80 + body.length) 0 ++ body
    let (s1, sig) := s.sign 1 (Config.sm3 (before ++ l))
    fill s1 (l ++ sig)

/-- Serves the message of a function, when it is its turn and of this type; a reserved type is malformed for every type. While a teardown
is in progress no other message is served (R344). -/
def State.serve (s : State) (f type : Nat) (body : Tab Byte → State → State × Reply) : State :=
  let b := (s.box f).buf
  if s.mgmt.stage ≠ 2 ∨ s.nextBox ≠ some f ∨ s.sec.tearing.isSome then s
  else
    let s1 := { s with sec := { s.sec with lastServed := f } }
    if !knownType (msgType b) then s1.respond f b (.status 1)
    else if msgType b ≠ type then s
    else if !headerFine b then s1.respond f b (.status 1)
    else
      let (s2, r) := body b s1
      s2.respond f b r

/-- R345: whether a function may send a message about a partition: the PF, or the VF that owns it. -/
def State.mayAsk (s : State) (f part : Nat) : Bool := f == 0 || (s.fn f).bound == some (BitVec.ofNat 7 part)

/-- R482: a seal install or session open for a partition whose teardown has begun. -/
def State.tearingPart (s : State) (part : Nat) : Bool := match s.sec.tearing with
  | some (b, _) => msgNat b 16 1 == part
  | none => false

/-- R482: refuses a message of this type at once, when the teardown of its partition has begun. -/
def State.serveTearing (s : State) (f type partAt : Nat) (body : Tab Byte → State → State × Reply) : State :=
  let b := (s.box f).buf
  if s.mgmt.stage = 2 ∧ f ≠ 0 ∧ (s.box f).busy ∧ msgType b = type ∧ s.tearingPart (msgNat b partAt 1) then s.respond f b (.status 2)
  else s.serve f type body

/-! ### Attestation (R346, R347) -/

/-- R343: the anti-rollback counter. -/
def Fuses.svn (x : Fuses) : Nat :=
  ((List.range 64).filter fun k => (x.first ||| x.second).getLsbD k).foldl (fun (m : Nat) k => Nat.max m (k + 1)) 0

/-- The DEVID of a report. -/
def State.devId (s : State) : List Byte := digestBytes (Config.sm3 (bytesOf (Config.sm2Public s.sec.devKey) 64))

/-- R347: the active measurement that a region reports. -/
def Region.reported (r : Region) : BitVec 256 := if r.swapped.isEmpty then r.meas else 0

/-- R346: whether a region selector lies in a partition. -/
def State.selectorIn (s : State) (part : Nat) (g : W64) : Bool :=
  let r := s.region (selKey g)
  let p := if r.rows = 0 then look 0 s.brass.coreOf (selKey g) else r.part
  decide (selCol g < 12) && p.toNat == part

/-- R346 FLAGS. -/
def State.reportFlags (s : State) (part : Nat) : BitVec 32 :=
  BitVec.ofNat 28 0 ++ (BitVec.ofBool (look false s.sec.conf part) ++ (BitVec.ofBool (s.cores.any (·.2.failed)) ++
    (BitVec.ofBool s.mem.l2mode ++ BitVec.ofBool s.sec.cerr)))

/-- R346: an attestation report. -/
def State.attest (s : State) (b : Tab Byte) : Reply :=
  let nreg := msgNat b 49 1
  let part := msgNat b 48 1
  let sels := (List.range nreg).map fun k => msgWord b (64 + 8 * k)
  if msgLen b ≠ 64 + 8 * nreg ∨ 16 < nreg ∨ 128 ≤ part ∨ !msgZero b 50 14 ∨ !sels.all selClean then .status 1
  else if !sels.all (s.selectorIn part) then .status 2
  else .signed [] (
    msgBytes b 16 32 ++ s.devId ++ bytesOf s.sec.bootId 16 ++ (List.range 8).flatMap (fun k => digestBytes (look 0 s.sec.meas k)) ++
    bytesOf (BitVec.ofNat 32 s.sec.fuses.svn) 4 ++ bytesOf (s.reportFlags part) 4 ++ bytesOf (Config.sm2Public s.sec.sealKey) 64 ++
    [BitVec.ofNat 8 part, BitVec.ofNat 8 nreg] ++ List.replicate 6 0 ++
    sels.flatMap fun g => bytesOf g 8 ++ digestBytes (s.region (selKey g)).reported)

/-- ATTESTATION (R346). -/
def execAttestation (f : Nat) (s : State) : Host.Outcome State Fault Refusal :=
  .next (s.serve f 1 fun b s => (s, s.attest b))

/-! ### Seals and sessions (R353, R355, R481) -/

/-- R353: the fields of Table 6 that three 8-byte words of a message give. -/
def State.sealedBy (s : State) (id : BitVec 128) : Bool := s.sec.handles.any fun e => match e.2 with
  | some h => h.sealId == some id
  | none => false

/-- Installs a record that KHND takes, and answers with its handle; KHND writes 0 for a record that it refuses and for a full table. -/
def State.giveHandle (s : State) (k : KeyRec) (kers : List (BitVec 256)) (reply : BitVec 16 → Reply) : State × Reply :=
  let (s1, h) := s.installKey k
  if !k.ok ∨ h = 0 then (s, .status 5)
  else
    let s2 := if kers.isEmpty then s1
      else { s1 with sec := { s1.sec with kernels := put [] s1.sec.kernels s1.sec.nextList kers, nextList := s1.sec.nextList + 1 } }
    (s2, reply h)

/-- R353: the checks of a seal install and what it installs. -/
def State.sealInstall (s : State) (f : Nat) (b : Tab Byte) : State × Reply :=
  let len := msgLen b
  let nker := msgNat b 232 1
  let part := msgNat b 210 1
  let id : BitVec 128 := ofBytes 128 (msgBytes b 16 16)
  if s.sec.cerr then (s, .status 6)
  else if nker < 1 ∨ 16 < nker ∨ len ≠ 240 + 32 * nker ∨ 128 ≤ part ∨ !msgZero b 181 3 ∨ !msgZero b 211 1 ∨ !msgZero b 233 7 then (s, .status 1)
  else if !s.mayAsk f part then (s, .status 2)
  else match Config.sm2Open s.sec.sealKey (msgBytes b 32 149) with
  | none => (s, .status 3)
  | some p =>
    if p.length ≠ 52 then (s, .status 3)
    else if digestBytes (Config.sm3 (msgBytes b 212 (len - 212))) ≠ p.drop 20 then (s, .status 4)
    else if s.sec.fuses.svn < msgNat b 212 4 then (s, .status 4)
    else if s.sealedBy id then (s, .status 4)
    else
      let k : KeyRec := { type := 1, part := BitVec.ofNat 7 part, asid := BitVec.ofNat 16 (msgNat b 208 2), salt := ofBytes 32 ((p.drop 16).take 4),
                          key := ofBytes 128 (p.take 16), rbase := msgWord b 184, rlen := msgWord b 192, rtag := msgWord b 200, wbase := 0, wlen := 0,
                          wtag := 0, lastIv := 0, klist := BitVec.ofNat 32 s.sec.nextList, rdlim := msgWord b 216, expire := msgWord b 224,
                          sealId := some id }
      s.giveHandle k ((List.range nker).map fun j => ofBytes 256 (msgBytes b (240 + 32 * j) 32)) fun h => .plain (bytesOf h 2)

/-- SEAL_INSTALL (R353). -/
def execSealInstall (f : Nat) (s : State) : Host.Outcome State Fault Refusal :=
  .next (s.serveTearing f 2 210 fun b s => s.sealInstall f b)

/-- R355: the key and the salt of a session: the SM2 key-derivation function over x ‖ y ‖ NONCE, whose first block is enough. -/
def sessionSecret (d : BitVec 256) (user : BitVec 512) (nonce : List Byte) : List Byte :=
  (digestBytes (Config.sm3 (bytesOf (Config.sm2Shared d user) 64 ++ nonce ++ [0, 0, 0, 1]))).take 20

/-- R355: a session open. -/
def State.sessionOpen (s : State) (f : Nat) (b : Tab Byte) : State × Reply :=
  let part := msgNat b 162 1
  if s.sec.cerr then (s, .status 6)
  else if msgLen b ≠ 168 ∨ 128 ≤ part ∨ !msgZero b 163 5 then (s, .status 1)
  else if !s.mayAsk f part then (s, .status 2)
  else
    let d := Config.freeDraw s.free
    let s1 := { s with free := s.free + 1 }
    let p := sessionSecret d (ofBytes 512 (msgBytes b 48 64)) (msgBytes b 16 32)
    let k : KeyRec := { type := 2, part := BitVec.ofNat 7 part, asid := BitVec.ofNat 16 (msgNat b 160 2), salt := ofBytes 32 (p.drop 16),
                        key := ofBytes 128 (p.take 16), rbase := msgWord b 112, rlen := msgWord b 120, rtag := msgWord b 128, wbase := msgWord b 136,
                        wlen := msgWord b 144, wtag := msgWord b 152, lastIv := 0, klist := 0xFFFFFFFF, rdlim := 0, expire := 0 }
    s1.giveHandle k [] fun h =>
      .signed (msgBytes b 16 152) (bytesOf h 2 ++ List.replicate 14 0 ++ bytesOf (Config.sm2Public d) 64)

/-- SESSION_OPEN (R355). -/
def execSessionOpen (f : Nat) (s : State) : Host.Outcome State Fault Refusal :=
  .next (s.serveTearing f 3 162 fun b s => s.sessionOpen f b)

/-- R342: the certificate chain that firmware issued at boot. -/
def Sec.chain (x : Sec) : List Byte :=
  Config.certificates (Config.sm2Public x.devKey) (Config.sm2Public x.aliasKey) ((List.range 4).map fun k => look 0 x.meas k) x.svn

/-! ### Usage, certificates, keys, measurements (R345, R363, R364) -/

/-- R364: the usage entry of a handle. -/
def State.usageEntry (s : State) (h : BitVec 16) : List Byte :=
  match s.handle h with
  | some k => bytesOf h 2 ++ [BitVec.ofNat 8 k.type, k.part.setWidth 8] ++ List.replicate 4 0 ++ bytesOf k.serial 8 ++ bytesOf k.rdb 8 ++
      bytesOf k.wrb 8 ++ bytesOf k.fills 8 ++ List.replicate 8 0
  | none => bytesOf h 2 ++ List.replicate 46 0

/-- R364: a usage report. -/
def State.usage (s : State) (b : Tab Byte) : Reply :=
  let n := msgNat b 48 1
  if n < 1 ∨ 32 < n ∨ msgLen b ≠ 64 + 2 * n ∨ !msgZero b 49 15 then .status 1
  else .signed [] (
    msgBytes b 16 32 ++ s.devId ++ bytesOf s.sec.bootId 16 ++ bytesOf s.mgmt.podTime 8 ++ [BitVec.ofNat 8 n] ++ List.replicate 7 0 ++
    (List.range n).flatMap fun k => s.usageEntry (BitVec.ofNat 16 (msgNat b (64 + 2 * k) 2)))

/-- USAGE_REPORT (R364). -/
def execUsageReport (f : Nat) (s : State) : Host.Outcome State Fault Refusal :=
  .next (s.serve f 4 fun b s => (s, s.usage b))

/-- R345, R359: fills a key table entry with a fresh pair, which no earlier pair of the entry equals. -/
def State.fillKey (s : State) (k : Nat) (part : BitVec 7) (conf : Bool) : State :=
  let e : MemKey := { v := true, part := part, gen := s.free + 1, key := Config.freeDraw s.free, mac := Config.freeDraw (s.free + 1) }
  { s with free := s.free + 2, sec := { s.sec with keys := put {} s.sec.keys k e, conf := put false s.sec.conf part.toNat conf } }

/-- PARTITION_KEYS (R345). -/
def execPartitionKeys (f : Nat) (s : State) : Host.Outcome State Fault Refusal :=
  .next (s.serve f 6 fun b s =>
    let k := msgNat b 16 2
    if s.sec.cerr then (s, .status 6)
    else if msgLen b ≠ 20 ∨ 4096 ≤ k ∨ 128 ≤ msgNat b 18 1 ∨ 2 ≤ msgNat b 19 1 then (s, .status 1)
    else if f ≠ 0 then (s, .status 2)
    else (s.fillKey k (BitVec.ofNat 7 (msgNat b 18 1)) (msgNat b 19 1 == 1), .plain (msgBytes b 16 2)))

/-- CERTIFICATE_CHAIN (R345). -/
def execCertificateChain (f : Nat) (s : State) : Host.Outcome State Fault Refusal :=
  .next (s.serve f 7 fun b s =>
    (s, if msgLen b ≠ 16 then .status 1
        else .plain (s.sec.chain.take 4080)))

/-- HANDLE_DELETE (R345): the final entry counts what was delivered before. -/
def execHandleDelete (f : Nat) (s : State) : Host.Outcome State Fault Refusal :=
  .next (s.serve f 8 fun b s =>
    let h : BitVec 16 := BitVec.ofNat 16 (msgNat b 16 2)
    let own := match s.handle h with
      | some k => s.mayAsk f k.part.toNat
      | none => f == 0
    if msgLen b ≠ 18 then (s, .status 1)
    else if !own then (s, .status 2)
    else (s.setHandle h none, .signed [] (s.usageEntry h)))

/-- MEASURE_EXTEND (R345, R342). -/
def execMeasureExtend (f : Nat) (s : State) : Host.Outcome State Fault Refusal :=
  .next (s.serve f 9 fun b s =>
    let k := msgNat b 16 1
    if msgLen b ≠ 56 ∨ k < 4 ∨ 7 < k ∨ !msgZero b 17 7 then (s, .status 1)
    else if f ≠ 0 then (s, .status 2)
    else (s.extend k (msgBytes b 24 32), .plain []))

/-! ### Teardown (R365, R366, R458, R460) -/

/-- R365: the ranges of a teardown request: start and length. -/
def tearRanges (b : Tab Byte) : List (Nat × Nat) :=
  (List.range (msgNat b 17 1)).map fun k => (msgNat b (64 + 16 * k) 8, msgNat b (72 + 16 * k) 8)

/-- R365: the form of a teardown request. -/
def tearFormOk (b : Tab Byte) : Bool :=
  let nr := msgNat b 17 1
  decide (1 ≤ nr) && decide (nr ≤ 64) && decide (msgLen b = 64 + 16 * nr) && decide (msgNat b 16 1 < 128) && msgZero b 18 14 &&
  (tearRanges b).all fun r => decide (r.1 % 4096 = 0) && decide (r.2 % 4096 = 0)

/-- R365, R460: whether a partition is busy. -/
def State.partBusy (s : State) (p : BitVec 7) : Bool :=
  (s.brass.queues.any fun e => e.2.en && e.2.part == p) ||
  (s.brass.tasks.any fun e => match e.2 with
    | some x => x.part == p && (x.state == .resident || x.state == .starting)
    | none => false) ||
  (s.host.fns.any fun e => e.1 != 0 && (e.2.bound == some p || (e.2.qsc && e.2.was == some p))) ||
  (s.part p).wait.isSome

/-- R365 step 1: deletes every handle of a partition. -/
def State.dropHandles (s : State) (p : BitVec 7) : State :=
  { s with sec := { s.sec with handles := s.sec.handles.filter fun e => match e.2 with
      | some h => h.part != p
      | none => false } }

/-- R365 step 2: what a teardown resets of a partition: a failed core's memory stays lost (R412). -/
def State.tornDown (s : State) (p : BitVec 7) (a : Nat) : Bool :=
  match homeOf a with
  | .scratch n => look 0 s.brass.coreOf n == p && !(s.core n).failed
  | .tile m => look 0 s.brass.tileOf m == p
  | _ => false

/-- R365 step 2: VEs, MNs, scratchpads, slots, accumulators and memory tiles. -/
def State.resetPart (s : State) (p : BitVec 7) : State :=
  let m := s.mem
  let cores := s.cores.foldr (fun e (t : Tab Core) =>
    put {} t e.1 (if look 0 s.brass.coreOf e.1 = p then { failed := e.2.failed } else e.2)) []
  { s with cores := cores, mem := { m with
      bytes := m.bytes.filter fun e => !s.tornDown p e.1
      vers := m.vers.filter fun e => !s.tornDown p (64 * e.1)
      bad := m.bad.filter fun e => !s.tornDown p (64 * e.1) } }

/-- R365 step 3: staging entries, held lines and L2 lines of a partition go without write-back; a line that was newer in L2 holds what
HBM holds, which nothing states. -/
def State.dropLines (s : State) (p : BitVec 7) : State :=
  let lost := (s.mem.l2.filter fun e => e.2.part == p && e.2.dirty).map (·.1)
  let s1 := lost.foldl (fun (u : State) l =>
    let m := (u.mem.write (64 * l) 64 (Config.freeLine u.free)).setVer l (Config.freeVersion u.free)
    { u with free := u.free + 1, mem := m }) s
  s1.setMem { s1.mem with
    l2 := s1.mem.l2.filter fun e => e.2.part != p
    staged := s1.mem.staged.filter fun e => e.iss.part != p
    due := s1.mem.due.filter fun e => e.staged.iss.part != p
    held := s1.mem.held.filter fun e => match e.2 with
      | some h => h.part != p
      | none => false }

/-- R458: an entry of a receipt's list: reason and address, and the lines it stands for. -/
structure BadUnit where
  reason : Nat
  addr : Nat
  lines : Nat
  deriving DecidableEq, Repr

/-- What a teardown's scrub has come to: the state, the units left, and the lines scrubbed. -/
structure Scrubbed where
  state : State
  bad : List BadUnit := []
  lines : Nat := 0
  /-- R459: the lines scrubbed in each frame. -/
  per : Tab Nat := []
  deriving DecidableEq, Repr

/-- R457, R458: notes a unit that is left; one that is noted already is not repeated. -/
def Scrubbed.leave (x : Scrubbed) (u : BadUnit) : Scrubbed := if x.bad.contains u then x else { x with bad := x.bad ++ [u] }

/-- R457, R458: scrubs the pieces of a range from a line on: a frame that was retired before is skipped whole. -/
def Scrubbed.range (x : Scrubbed) (retired : List Nat) (mark stamp line count : Nat) : Nat → Scrubbed
  | 0 => x
  | fuel + 1 =>
    let a := 64 * line
    if count = 0 then x
    else if inHbm a then
      let n := Nat.min count (8 - line % 8)
      if retired.contains (frameOf a) then
        (x.leave { reason := 1, addr := 32768 * frameOf a, lines := 512 }).range retired mark stamp (line + n) (count - n) fuel
      else
        let (s1, left) := x.state.scrubBlock (line / 8) ((List.range n).map (line + ·)) mark stamp
        let f := frameOf a
        let y : Scrubbed := { x with state := s1, lines := x.lines + (n - left), per := put 0 x.per f (look 0 x.per f + (n - left)) }
        (if left = 0 then y else y.leave { reason := 2, addr := 512 * (line / 8), lines := 8 }).range retired mark stamp (line + n) (count - n) fuel
    else
      let (s1, left) := x.state.scrubSram line
      let y : Scrubbed := { x with state := s1, lines := x.lines + (1 - left) }
      (if left = 0 then y else y.leave { reason := 3, addr := a, lines := 1 }).range retired mark stamp (line + 1) (count - 1) fuel

/-- R365 step 4: scrubs a list of ranges. -/
def Scrubbed.ranges (x : Scrubbed) (retired : List Nat) (mark : Nat) : List (Nat × Nat) → Scrubbed
  | [] => x
  | r :: l =>
    let y : Scrubbed := { x with state := { x.state with free := x.state.free + 1 } }
    (y.range retired mark x.state.free (r.1 / 64) (r.2 / 64) (r.2 / 64)).ranges retired mark l

/-- R459: a frame that was retired during the scrub counts as one retired before it. -/
def Scrubbed.settle (x : Scrubbed) (before : List Nat) : Scrubbed :=
  (x.state.mem.retired.filter fun f => !before.contains f).foldl (fun (y : Scrubbed) f =>
    { y with bad := y.bad.filter fun u => !(u.reason == 2 && u.addr / 32768 == f), lines := y.lines - look 0 y.per f }.leave
      { reason := 1, addr := 32768 * f, lines := 512 }) x

/-- R458: what step 2 could not reset: the failed cores of a partition, and the lines of their scratchpads. -/
def State.lostCores (s : State) (p : BitVec 7) : List BadUnit :=
  (s.cores.filter fun e => e.2.failed && look 0 s.brass.coreOf e.1 == p).flatMap fun e =>
    ((List.range 2048).map fun k => ({ reason := 3, addr := scratchAt e.1 (64 * k), lines := 1 } : BadUnit)) ++
    [{ reason := 4, addr := e.1, lines := 1 }]

/-- R458: ascending address, with cores after addresses. -/
def BadUnit.place (u : BadUnit) : Nat := if u.reason = 4 then 2 ^ 46 + u.addr else u.addr

/-- Adds an entry to an ordered list; one that stands there already is not repeated. -/
def insertBad (u : BadUnit) : List BadUnit → List BadUnit
  | [] => [u]
  | v :: l => if u = v then v :: l else if u.place < v.place then u :: v :: l else v :: insertBad u l

/-- R366 Table 11: the receipt's bytes after the header, without the signature. -/
def State.receipt (s : State) (b : Tab Byte) (lines : Nat) (bad : List BadUnit) : List Byte :=
  let nbad := (bad.map (·.lines)).sum
  let first := bad.take 64
  msgBytes b 16 2 ++ [if nbad = 0 then 1 else 0, 0] ++ bytesOf (BitVec.ofNat 32 nbad) 4 ++ bytesOf (BitVec.ofNat 64 lines) 8 ++ msgBytes b 32 32 ++
  bytesOf s.sec.bootId 16 ++ msgBytes b 64 (16 * msgNat b 17 1) ++ [BitVec.ofNat 8 first.length] ++ List.replicate 7 0 ++
  first.flatMap fun u => bytesOf (BitVec.ofNat 64 (u.addr + 2 ^ 48 * u.reason)) 8

/-- R365 step 5, R359: clears the partition's key table entries. -/
def State.dropKeys (s : State) (p : BitVec 7) : State :=
  { s with sec := { s.sec with keys := s.sec.keys.filter fun e => e.2.part != p } }

/-- R457: whether a group of another partition holds a line of the ranges. -/
def State.rangesHeld (s : State) (l : List (Nat × Nat)) (p : BitVec 7) : Bool :=
  s.mem.held.any fun e => match e.2 with
    | some h => h.part != p && l.any fun r => decide (r.1 ≤ 64 * e.1 ∧ 64 * e.1 < r.1 + r.2)
    | none => false

/-- R365 steps 2 to 5, and the receipt. -/
def State.finishTeardown (s : State) (b : Tab Byte) (live : Bool) : State :=
  let p : BitVec 7 := BitVec.ofNat 7 (msgNat b 16 1)
  let ranges := tearRanges b
  if s.rangesHeld ranges p then s
  else
    let lost := s.lostCores p
    let s1 := (s.resetPart p).dropLines p
    let mark := s1.keyMarkOf p
    let x := (({ state := s1 } : Scrubbed).ranges s1.mem.retired mark ranges).settle s1.mem.retired
    let all := (lost ++ x.bad).foldl (fun (l : List BadUnit) u => insertBad u l) []
    let s3 := x.state.dropKeys p
    let s4 := { s3 with sec := { s3.sec with tearing := none } }
    if live then s4.respond 0 b (.signed [] (s4.receipt b x.lines all)) else s4

/-- TEARDOWN (R365): begins, and deletes the partition's handles; then, once no other group holds a line of the ranges, completes. -/
def execTeardown (f : Nat) (s : State) : Host.Outcome State Fault Refusal :=
  .next <| match s.sec.tearing with
  | some (b, live) => s.finishTeardown b live
  | none =>
    let b := (s.box f).buf
    let p : BitVec 7 := BitVec.ofNat 7 (msgNat b 16 1)
    if s.mgmt.stage = 2 ∧ s.nextBox = some f ∧ f = 0 ∧ msgType b = 5 ∧ headerFine b ∧ tearFormOk b ∧ !s.partBusy p then
      let s1 := s.dropHandles p
      { s1 with sec := { s1.sec with lastServed := 0, tearing := some (b, true) } }
    else s.serve f 5 fun b s => (s, .status (if tearFormOk b then 2 else 1))

/-! ### Recovery and errors (R392, R481) -/

/-- RECOVERY_IMAGE_WRITE (R392): in ROM recovery. -/
def execRecoveryImageWrite (s : State) : Host.Outcome State Fault Refusal :=
  let b := (s.box 0).buf
  let slot := msgNat b 16 1
  let off := msgNat b 20 4
  .next <| if s.mgmt.stage ≠ 0x80 ∨ !(s.box 0).busy then s
  else if msgType b ≠ 0x0100 ∨ !headerFine b ∨ msgLen b < 24 ∨ 1 < slot then s.respond 0 b (.status 2)
  else
    let flash := (List.range (msgLen b - 24)).foldl (fun (t : Tab Byte) k => put 0 t (2 ^ 32 * slot + off + k) (look 0 b (24 + k))) s.sec.fuses.flash
    { s with sec := { s.sec with fuses := { s.sec.fuses with flash := flash } } }.respond 0 b (.plain [])

/-- COBALT_ERROR (R481): sets CERR. -/
def execCobaltError (s : State) : Host.Outcome State Fault Refusal := .next { s with sec := { s.sec with cerr := true } }

end Sys2Proof.Machine
end

