-- ==== Sys2Proof/Machine/Links.lean ====
section
/-! DEFINITION. The Couri links: ports and sessions, flit groups, key epochs, routes, packets between chips, and pod time (R375 to R384,
R477 to R480). -/

namespace Sys2Proof.Machine

/-! ### Ports and routes -/

def State.couri (s : State) (n : Nat) : CouriPort := look {} s.links.ports n

def State.setCouri (s : State) (n : Nat) (p : CouriPort) : State := { s with links := { s.links with ports := put {} s.links.ports n p } }

def State.chipRoute (s : State) (c : Nat) : ChipRoute := look {} s.links.rtab c

def State.setChipRoute (s : State) (c : Nat) (r : ChipRoute) : State := { s with links := { s.links with rtab := put {} s.links.rtab c r } }

def State.pair (s : State) (c : Nat) : Pair := look {} s.links.pairs c

def State.setPair (s : State) (c : Nat) (p : Pair) : State := { s with links := { s.links with pairs := put {} s.links.pairs c p } }

/-! ### Key epochs (R379) -/

/-- A direction's free slot takes the next epoch; none when both slots are bound. -/
def KeySlots.install (k : KeySlots) (e : BitVec 16) : Option KeySlots :=
  match k.slot0, k.slot1 with
  | none, _ => some { k with slot0 := some e }
  | some _, none => some { k with slot1 := some e }
  | some _, some _ => none

/-- Keeps the slots of the epochs that a test names. -/
def KeySlots.keep (k : KeySlots) (p : BitVec 16 → Bool) : KeySlots := { slot0 := k.slot0.filter p, slot1 := k.slot1.filter p }

def KeySlots.has (k : KeySlots) (e : BitVec 16) : Bool := k.slot0 == some e || k.slot1 == some e

/-- R379: installs the next epoch's key and switches to it at the group boundary, or waits for a free slot. -/
def CouriPort.rotateTx (p : CouriPort) : CouriPort :=
  match p.tx.install (p.txEpoch + 1) with
  | some k => { p with tx := k, txEpoch := p.txEpoch + 1, sent := 0, rotate := false }
  | none => { p with rotate := true }

/-- R379: the old slot is retired once the replay buffer holds no group of its epoch; a rotation that waited then takes place. -/
def CouriPort.retireTx (p : CouriPort) : CouriPort :=
  let q := { p with tx := p.tx.keep fun e => e == p.txEpoch || p.replay.any (·.epoch == e) }
  if q.rotate then q.rotateTx else q

/-- R379: an SPDM KEY_UPDATE of the peer names the epoch after the last one; a slot of an older epoch is retired where no slot is free. -/
def CouriPort.rotateRx (p : CouriPort) : CouriPort :=
  let last := match p.rx.slot0, p.rx.slot1 with
    | some a, some b => if a = b + 1 then a else b
    | some a, none => a
    | none, some b => b
    | none, none => 0
  match p.rx.install (last + 1) with
  | some k => { p with rx := k }
  | none => { p with rx := ((p.rx.keep (· == last)).install (last + 1)).getD p.rx }

/-- PORT_ROTATE_REQUEST (R379, R478): ROT to a port that is down is ignored. The receiving direction follows the peer's KEY_UPDATE. -/
def execPortRotateRequest (n : Nat) (s : State) : Host.Outcome State Fault Refusal :=
  let p := s.couri n
  .next (if s.barOpen ∧ p.up then s.setCouri n p.rotateTx else s)

/-- EPOCH_GROUP_LIMIT (R379): 2³² groups under one epoch. -/
def execEpochGroupLimit (n : Nat) (s : State) : Host.Outcome State Fault Refusal :=
  let p := s.couri n
  .next (if p.up ∧ 2 ^ 32 ≤ p.sent then s.setCouri n p.rotateTx else s)

/-- KEY_UPDATE (R379): the peer's next epoch. -/
def execKeyUpdate (n : Nat) (s : State) : Host.Outcome State Fault Refusal :=
  let p := s.couri n
  .next (if p.up then s.setCouri n p.rotateRx else s)

/-! ### Sessions (R376, R480) -/

/-- R376, R480: the end of an SPDM exchange with the peer: a new session starts at SEQ 0 and epoch 0. The error counts go on, and the next
attempt comes a second later. -/
def State.openSession (s : State) (n peer : Nat) (ok : Bool) : State :=
  let p := s.couri n
  let same := peer % 4096 == s.chipId
  let q : CouriPort := { en := true, crcErr := p.crcErr, authErr := p.authErr, peer := BitVec.ofNat 12 peer, queue := p.queue,
                         tried := some s.mgmt.podTime.toNat }
  s.setCouri n (if !ok then q
    else if same then { q with auth := true, dup := true }
    else { q with auth := true, up := true, tx := { slot0 := some 0 }, rx := { slot0 := some 0 } })

/-- PORT_ENABLE (R375, R376, R390): a write of EN, from stage 2 on. -/
def execPortEnable (n peer : Nat) (ok : Bool) (s : State) : Host.Outcome State Fault Refusal :=
  .next (if s.barOpen ∧ n < 16 ∧ !(s.couri n).up then s.openSession n peer ok else s)

/-- R480: whether a second of pod time has passed since a port's last attempt at a session. -/
def State.retryDue (s : State) (n : Nat) : Bool := match (s.couri n).tried with
  | some t => decide (t + 1000000000 ≤ s.mgmt.podTime.toNat)
  | none => true

/-- SPDM_RETRY (R480): on an enabled port that is down. -/
def execSpdmRetry (n peer : Nat) (ok : Bool) (s : State) : Host.Outcome State Fault Refusal :=
  .next (if (s.couri n).en ∧ !(s.couri n).up ∧ s.retryDue n then s.openSession n peer ok else s)

/-! ### Ports down and up (R381, R478) -/

/-- The packets that a port holds: those that its peer has not acknowledged, then those in no group yet. -/
def CouriPort.holds (p : CouriPort) : List Packet := p.replay.flatMap (·.packets) ++ p.queue

/-- Whether a packet is an end-to-end acknowledgement. -/
def isAck (b : Body) : Bool := match b with
  | .ack _ => true
  | _ => false

/-- Packets of this chip go back to the head of their pair's line, those of other chips to the head of the forwarded ones. -/
def State.requeue (s : State) (l : List Packet) : State :=
  l.reverse.foldl (fun (t : State) k =>
    if k.src = t.chipId ∧ (t.pair k.dst).unacked.contains k then
      let y := t.pair k.dst
      t.setPair k.dst { y with waiting := (k, t.mgmt.podTime.toNat) :: y.waiting, unacked := y.unacked.erase k }
    else if k.src = t.chipId ∧ !isAck k.body then t
    else { t with links := { t.links with passing := (k, t.mgmt.podTime.toNat) :: t.links.passing } }) s

/-- R478: a port goes down: keys and session go, routes with an alternate change to it, and what the peer has not acknowledged is sent
again. -/
def State.portDown (s : State) (n : Nat) : State :=
  let p := s.couri n
  if !p.up then s
  else
    let s1 := s.setCouri n { en := p.en, crcErr := p.crcErr, authErr := p.authErr, peer := p.peer }
    let s2 := s1.links.rtab.foldl (fun (t : State) e =>
      if e.2.pport.toNat = n ∧ e.2.av then t.setChipRoute e.1 { e.2 with use := true, pending := false } else t) s1
    (s2.requeue p.holds).interrupt 0 4

/-- PORT_DOWN (R478). -/
def execPortDown (n : Nat) (s : State) : Host.Outcome State Fault Refusal := .next (s.portDown n)

/-- R381: whether every packet to a chip that left by a port has been delivered, as far as this chip knows. -/
def State.portClear (s : State) (n c : Nat) : Bool :=
  (s.pair c).unacked.isEmpty && !((s.couri n).holds.any (·.dst == c))

/-- PORT_UP (R381, R478): a primary port that is up again takes its routes back, once what left by the alternate has been delivered; until
then new packets wait. -/
def execPortUp (n : Nat) (s : State) : Host.Outcome State Fault Refusal :=
  .next (if (s.couri n).up then
      s.links.rtab.foldl (fun (t : State) e =>
        if e.2.pport.toNat = n ∧ e.2.use then
          (if t.portClear e.2.aport.toNat e.1 then t.setChipRoute e.1 { e.2 with use := false, pending := false }
           else t.setChipRoute e.1 { e.2 with pending := true })
        else t) s
    else s)

/-! ### Sending (R377, R378, R380, R477) -/

/-- R477, R380: packets of a pair leave for their port, in order, while at most 1024 are unacknowledged. -/
def State.sendPair (s : State) (c : Nat) : Nat → State
  | 0 => s
  | fuel + 1 =>
    let y := s.pair c
    match y.waiting, s.portTo c with
    | (k, _) :: rest, some n =>
      if 1024 ≤ y.unacked.length ∨ (s.chipRoute c).pending then s
      else
        let p := s.couri n
        ((s.setPair c { y with waiting := rest, unacked := y.unacked ++ [k] }).setCouri n { p with queue := p.queue ++ [k] }).sendPair c fuel
    | _, _ => s

/-- R380: a forwarded packet leaves for its port. -/
def State.sendPassing (s : State) : State :=
  s.links.passing.foldl (fun (t : State) e => match t.portTo e.1.dst with
    | some n =>
      let p := t.couri n
      if (t.chipRoute e.1.dst).pending then { t with links := { t.links with passing := t.links.passing ++ [e] } }
      else t.setCouri n { p with queue := p.queue ++ [e.1] }
    | none => { t with links := { t.links with passing := t.links.passing ++ [e] } })
    { s with links := { s.links with passing := [] } }

/-- R377, R378: a port that is up sends its next flit group while the replay buffer of 64 has room. A NAK and a resend that waited leave
too. -/
def CouriPort.sendGroup (p : CouriPort) : CouriPort :=
  let q := { p with resend := none, nakOut := none }
  if p.up ∧ !p.queue.isEmpty ∧ p.replay.length < 64 then
    { q with replay := p.replay ++ [{ seq := p.txSeq, epoch := p.txEpoch, packets := p.queue.take 32 }], queue := p.queue.drop 32,
             txSeq := p.txSeq + 1, sent := p.sent + 1 }
  else q

/-- What the links send in a clock period; they run in skipped cycles too (R394). -/
def State.linkPeriod (s : State) : State :=
  let s1 := s.links.pairs.foldl (fun (t : State) e => t.sendPair e.1 e.2.waiting.length) s
  let s2 := s1.sendPassing
  { s2 with links := { s2.links with ports := s2.links.ports.map fun e => (e.1, e.2.sendGroup) } }

/-- NAK_RESEND (R378): every unacknowledged group from the SEQ on is sent again, under the epoch that it was sent under; sixteen NAKs of one
SEQ take the port down. -/
def execNakResend (n seq : Nat) (s : State) : Host.Outcome State Fault Refusal :=
  let p := s.couri n
  let count := if p.nakSeq = seq then p.naks + 1 else 1
  .next (if !p.up then s
    else if 16 ≤ count then s.portDown n
    else s.setCouri n { p with nakSeq := seq, naks := count, resend := some seq })

/-- ACK_RECEIVE (R378, R379): acknowledgements are cumulative. -/
def execAckReceive (n seq : Nat) (s : State) : Host.Outcome State Fault Refusal :=
  let p := s.couri n
  .next (if !p.up then s
    else s.setCouri n { p with replay := p.replay.filter (fun g => decide (seq < g.seq)), naks := 0 }.retireTx)

/-! ### What packets do (R380) -/

/-- A request of another chip joins those that wait at their homes. -/
def State.takeAccess (s : State) (src id : Nat) (op : MemOp) (la : Nat) (ver : Bool) (part : BitVec 7) (key : BitVec 12) (ea : W64)
    (page size : Nat) (cached first : Bool) : State :=
  let iss : Issuer := { who := .seq 0, cluster := 0, asid := 0, part := part, chip := some src }
  let t : Target := { chip := s.chipId, la := la, ver := ver, key := some key, cached := cached, first := first, page := page, size := size }
  s.setFlight (s.mem.flight ++ [{ iss := iss, ea := ea, op := op, entry := some id, target := some t }])

/-- The answer of another chip reaches what asked: a request of this chip, a stream binding, or Brass and the DMA. An answer that nothing
waits for is discarded (R479). -/
def State.takeAnswer (s : State) (id : Nat) (a : Answer) : State :=
  let s1 := { s with links := { s.links with sentAt := put 0 s.links.sentAt id 0 } }
  match look none s.mem.away id with
  | some r =>
    (s1.setMem { s1.mem with away := put none s1.mem.away id none }).finishReq r a
  | none => match s.streams.bindings.find? fun e => (e.2.bind (·.ask)) == some id with
    | some (b, some x) => s1.setBinding b (some { x with reply := some (a.data, a.fault.map (·.1)) })
    | _ => s1.answerWork id a

/-- R224, R305: a store at another chip has passed its checks and waits there: what its issuer waits for is answered, and the store stays
away until it has been performed. -/
def State.takeAccepted (s : State) (id : Nat) (a : Answer) : State :=
  match look none s.mem.away id with
  | some r =>
    let s1 := { s with links := { s.links with sentAt := put 0 s.links.sentAt id 0 } }
    (s1.setMem { s1.mem with away := put none s1.mem.away id (some { r with entry := none }) }).deliver r.iss r.entry r.elem r.op r.status r.ea a
  | none => s

/-- R286: the outcome of a LNCH reaches the sequencer that waits for it. -/
def State.takeLaunchAnswer (s : State) (id : Nat) (code : BitVec 5) (index : W64) : State :=
  let s1 := { s with links := { s.links with sentAt := put 0 s.links.sentAt id 0 } }
  match s.seqs.find? fun e => (e.2.wait.bind (·.id)) == some id with
  | some (n, q) => s1.setSeq n { q with wait := q.wait.map fun w => { w with answer := some { code := code, data := index.setWidth 512 } } }
  | none => s1

/-- R278: the acknowledgement of a group store at another chip. -/
def State.takeGroupAck (s : State) (id : Nat) (code : BitVec 5) (fault : Option (BitVec 8)) : State :=
  s.setMem { s.mem with groupStores := s.mem.groupStores.map fun e =>
    if e.id = id ∧ e.gid.chip = s.chipId then { e with staged := true, code := code, fault := fault } else e }

/-- A group store of another chip waits at its home. -/
def State.takeGroupStore (s : State) (src id : Nat) (g : GroupId) (la w : Nat) (data : BitVec 512) (ver : Bool) (part : BitVec 7)
    (key : BitVec 12) (first : Nat × Nat) : State :=
  let iss : Issuer := { who := .seq 0, cluster := 0, asid := g.asid, part := part, chip := some src }
  let e : GroupStore := { gid := g, id := id, req := { iss := iss, ea := 0, op := .group g.grp w data }, home := s.chipId, la := la, ver := ver,
                          key := some key, first := first }
  s.setMem { s.mem with groupStores := s.mem.groupStores ++ [e] }

/-- R288: a stage of another chip arrives at a barrier of its gang, or withdraws. -/
def State.takeArrival (s : State) (gang stage : Nat) (n : BitVec 4) (on : Bool) : State :=
  match s.task gang with
  | some x =>
    let l := x.arrived.filter (· != (stage, n))
    s.setTask gang (some { x with arrived := if on then l ++ [(stage, n)] else l })
  | none => s

/-- R275, R383: a partial sum arrives; the adder compares what its participant's descriptor says. -/
def State.takeSum (s : State) (src : Nat) (cid : BitVec 32) (rank nm1 op elems e : Nat) (v : BitVec 32) : State :=
  match s.agree cid nm1 op elems with
  | some c =>
    let s1 := s.setColl cid (some { c with sums := put none c.sums (16 * e + rank) (some v) })
    (match s1.collOrder c with
    | some order => s1.combine cid order e
    | none => s1)
  | none => (s.breakColl cid).send src (.mismatch cid)

/-- R476: whether a core serves a gang, which is named by its initiator's chip and the task there. -/
def State.serves (s : State) (core chip task : Nat) : Bool := match (s.regionOf core).bind s.gangOf with
  | some (c, g) => c.getD s.chipId == chip && g == task
  | none => false

/-- R382, R337: a token of a channel from another chip is on its way to its FIFO; the island there counts its waits for it again. One of a
gang that the FIFO's region no longer serves is discarded (R476). -/
def State.takeArriving (s : State) (fifo chip task : Nat) (t : Token) : State :=
  if !s.serves (fifo / 4) chip task then s
  else
  let s1 := { s with transit := put [] s.transit fifo (look [] s.transit fifo ++ [t]) }
  match s1.islandOf (fifo / 4) with
  | some k => s1.setIsland k { s1.island k with heard := fifo :: (s1.island k).heard.filter (· != fifo) }
  | none => s1

/-- What a delivered packet does. -/
def State.deliverBody (s : State) (src : Nat) (b : Body) : State :=
  match b with
  | .access id op la ver part key ea page size cached first => s.takeAccess src id op la ver part key ea page size cached first
  | .answer id a => s.takeAnswer id a
  | .accepted id a => s.takeAccepted id a
  | .groupStore id g la w data ver part key first => s.takeGroupStore src id g la w data ver part key first
  | .groupAck id code fault => s.takeGroupAck id code fault
  | .record g slice nline => s.setMem { s.mem with records := s.mem.records ++ [(g, slice, nline)] }
  | .recordAnswer g ok => if s.current g then s.putGroup g { s.ofGid g with recordThere := some ok } else s
  | .commit g => s.setMem { s.mem with commitsIn := s.mem.commitsIn ++ [g] }
  | .abort g => s.setMem { s.mem with abortsIn := s.mem.abortsIn ++ [g] }
  | .released g => s.setMem { s.mem with acksIn := s.mem.acksIn ++ [(g, src)] }
  | .freeRecord g => s.setMem { s.mem with decisions := s.mem.decisions.filter (·.1 != g), reserved := s.mem.reserved.filter (·.2 != g) }
  | .groupDoom g code => s.doomGroup g code
  | .resolve g asFirst slice => s.setMem { s.mem with queries := s.mem.queries ++ [(g, src, asFirst, slice)] }
  | .resolved g v => s.applyVerdict g v
  | .signal seq part => s.post seq part
  | .launch id asid q rec_ => s.takeLaunch src id asid q rec_
  | .launchAnswer id code index => s.takeLaunchAnswer id code index
  | .member gang stage asid entry arg => s.takeMember src gang stage asid entry arg
  | .memberAnswer gang stage ready same => s.takeMemberAnswer gang stage ready same
  | .start gang time skew inPlace => (s.membersOf src gang).foldl (fun (u : State) e => u.setTask e.1 (some (e.2.told time skew inPlace))) s
  | .started gang stage code => s.takeStarted gang stage code
  | .done gang stage v => s.onTaskStage gang stage fun x => { x with done := some v }
  | .endMember gang => s.endMembers src gang
  | .ended gang stage cause => s.takeEnded gang stage cause
  | .releaseMembers gang => s.releaseMembers src gang
  | .resume gang => s.takeResume src gang
  | .withdraw id => match s.mem.staged.find? fun e => e.iss.chip == some src && e.entry == some id with
    | some e => s.withdrawStaged e
    | none => s
  | .preempt gang restart => s.preemptMembers src gang restart
  | .preemptGang gang restart => s.preemptGang gang restart
  | .saved gang _ => s.takeSaved src gang
  | .barrierAt gang stage n on => s.takeArrival gang stage n on
  | .barrierGo gang n => (s.membersOf src gang).foldl (fun (u : State) e => u.passBarrier e.2 n) s
  | .token fifo chip task t => s.takeArriving fifo chip task t
  | .partSum cid rank nm1 op elems e v => s.takeSum src cid rank nm1 op elems e v
  | .total cid e v => match s.coll cid with
    | some c => s.setColl cid (some { c with totals := put none c.totals e (some v) })
    | none => s
  | .mismatch cid => if (s.coll cid).isNone then s.setColl cid (some { nm1 := 0, op := 0, elems := 0, mismatch := true }) else s.breakColl cid
  | .finished cid rank => match s.coll cid with
    | some c => if c.finished.contains rank then s else s.setColl cid (some { c with finished := c.finished ++ [rank] })
    | none => s
  | .ack psn =>
    let y := s.pair src
    s.setPair src { y with unacked := y.unacked.filter fun k => decide (2 ^ 31 ≤ (psn + 2 ^ 32 - k.psn - 1) % 2 ^ 32) }

/-- R477: the end-to-end acknowledgement of what has been delivered; it carries no number of its own. -/
def State.sendAck (s : State) (src : Nat) : State :=
  let k : Packet := { src := s.chipId, dst := src, psn := 0, body := .ack (s.pair src).expect }
  { s with links := { s.links with passing := s.links.passing ++ [(k, s.mgmt.podTime.toNat)] } }

/-- R477: delivers the packets of a source that arrived ahead, as far as their numbers follow. -/
def State.deliverHeld (s : State) (src : Nat) : Nat → State
  | 0 => s
  | fuel + 1 =>
    let y := s.pair src
    match y.held.find? (·.psn == y.expect) with
    | some k =>
      ((s.setPair src { y with expect := (y.expect + 1) % 2 ^ 32, held := y.held.erase k }).deliverBody src k.body).deliverHeld src fuel
    | none => s

/-- R477: goes on to the next number of a source, and delivers what has waited for that. -/
def State.nextNumber (s : State) (src : Nat) (b : Option Body) : State :=
  let y := s.pair src
  let s1 := s.setPair src { y with expect := (y.expect + 1) % 2 ^ 32 }
  (((b.map fun x => s1.deliverBody src x).getD s1).deliverHeld src y.held.length).sendAck src

/-- R477, R380: a packet that has arrived is forwarded, delivered in the order of its number, or discarded when its number has been
delivered already. -/
def State.receive (s : State) (p : Packet) : State :=
  if p.dst ≠ s.chipId then { s with links := { s.links with passing := s.links.passing ++ [(p, s.mgmt.podTime.toNat)] } }
  else match p.body with
  | .ack psn => s.deliverBody p.src (.ack psn)
  | b =>
    let y := s.pair p.src
    let d := (p.psn + 2 ^ 32 - y.expect) % 2 ^ 32
    if d = 0 then s.nextNumber p.src (some b)
    else if d < 2 ^ 31 then
      if y.held.any (·.psn == p.psn) then s else s.setPair p.src { y with held := y.held ++ [p] }
    else s.sendAck p.src

/-- PACKET_RECEIVE (R477). -/
def execPacketReceive (p : Packet) (s : State) : Host.Outcome State Fault Refusal := .next (s.receive p)

/-- FLIT_GROUP_RECEIVE (R378): with how many flits fail their check, each of which CRCERR counts, and whether the tag passes under its epoch's
slot. -/
def execFlitGroupReceive (n : Nat) (g : FlitGroup) (bad : Nat) (tag : Bool) (s : State) : Host.Outcome State Fault Refusal :=
  let p := s.couri n
  let good := tag && p.rx.has g.epoch
  .next <| if !p.up then s
  else if bad = 0 ∧ good ∧ g.seq = p.rxSeq then
    g.packets.foldl (fun (t : State) k => t.receive k) (s.setCouri n { p with rxSeq := p.rxSeq + 1 })
  else
    let p1 := { p with crcErr := BitVec.ofNat 16 (min 0xFFFF (p.crcErr.toNat + bad)) }
    let p2 := if good then p1 else { p1 with authErr := if p.authErr = 0xFFFF then p.authErr else p.authErr + 1 }
    s.setCouri n (if bad = 0 ∧ good ∧ g.seq < p.rxSeq then p2 else { p2 with nakOut := some p.rxSeq })

/-! ### Waiting too long (R479) -/

/-- R479: what becomes of a discarded packet of this chip: a launch or a member request counts as refused. -/
def State.discardPacket (s : State) (k : Packet) : State :=
  if k.src ≠ s.chipId then s
  else match k.body with
  | .launch id _ _ _ => s.takeLaunchAnswer id 15 (-1)
  | .member gang stage _ _ _ => s.takeMemberAnswer gang stage none false
  | _ => s

/-- PACKET_WAIT_EXPIRY (R479): a packet that has had no usable port for 10 ms. For the number that this chip's ingress waits for, it is a
packet of that chip which has been discarded on its way: the ingress goes on with what arrived ahead (log 97). -/
def execPacketWaitExpiry (chip psn : Nat) (s : State) : Host.Outcome State Fault Refusal :=
  let old (e : Packet × Nat) : Bool := e.1.dst == chip && e.1.psn == psn && decide (e.2 + 10000000 ≤ s.mgmt.podTime.toNat)
  let y := s.pair chip
  let stuck (l : List (Packet × Nat)) : Option (Packet × Nat) := if (s.portTo chip).isSome then none else l.find? old
  .next <| match stuck y.waiting with
  | some e => (s.setPair chip { y with waiting := y.waiting.erase e }).discardPacket e.1
  | none => match stuck s.links.passing with
    | some e => { s with links := { s.links with passing := s.links.passing.erase e } }
    | none => if y.expect = psn ∧ !y.held.isEmpty then s.nextNumber chip none else s

/-- REQUEST_TIMEOUT (R479): a request unanswered for 20 ms raises kind 0x06 at its issuer; a launch counts as refused. -/
def execRequestTimeout (id : Nat) (s : State) : Host.Outcome State Fault Refusal :=
  let t := look 0 s.links.sentAt id
  let ea := match look none s.mem.away id with
    | some r => r.ea
    | none => match s.brass.asks.find? (·.id == id) with
      | some k => k.va
      | none => 0
  let launch := s.seqs.any fun e => (e.2.wait.bind (·.id)) == some id && (look none s.mem.away id).isNone
  .next (if t = 0 ∨ s.mgmt.podTime.toNat + 1 < t + 20000000 then s
    else if launch then s.takeLaunchAnswer id 15 (-1)
    else s.takeAnswer id { fault := some (0x06, ea) })

/-! ### Pod time (R384) -/

/-- POD_TIME_SYNC (R384): the rate changes by at most 100 ppm; the master's does not. -/
def execPodTimeSync (ppm : Int) (s : State) : Host.Outcome State Fault Refusal :=
  let r := if ppm < -100 then -100 else if 100 < ppm then 100 else ppm
  .next (if s.links.master ∨ !(s.links.ports.any (·.2.up)) then s else { s with mgmt := { s.mgmt with ppm := r } })

end Sys2Proof.Machine
end

