-- ==== Sys2Proof/Machine/Registers.lean ====
section
/-! DEFINITION. The registers that the host and the board management controller write, and what a read of each gives (R6, R7, R318, R344,
R361, R368 to R371, R375, R393, R394, R396, R435, R445, R462, R464). -/

namespace Sys2Proof.Machine

/-! ### Registers of Brass -/

/-- R369: whether BR_FNPART of a function may be written: it has no enabled ring and no assigned queue, and is not quiescing. -/
def State.mayBind (s : State) (f : Nat) : Bool :=
  decide (f ≤ 1024) && !(s.fn f).qsc && !((s.fn f).rings.any (·.2.en)) && !(s.brass.queues.any fun e => f != 0 && e.2.fn == f)

/-- R369, R463: whether a queue may be assigned by this value of BR_QVF. -/
def State.mayAssign (s : State) (q : Nat) (v : BitVec 17) : Bool :=
  let f := (v.setWidth 11 : BitVec 11).toNat
  f == 0 || (decide (f ≤ 1024) && !(s.fn f).qsc && (s.fn f).bound == some (s.queue q).part &&
    !(s.brass.queues.any fun e => e.1 != q && e.2.qvf == v))

/-- R361: the sum of one share over all partitions but one. -/
def State.otherShares (s : State) (p : Nat) (share : Part → BitVec 8) : Nat :=
  ((s.brass.parts.filter (·.1 != p)).map fun e => (share e.2).toNat).sum

/-- R90: the L2 ways of all partitions but one. Masks are disjoint: a write that names one of them is ignored (log 145). -/
def State.otherWays (s : State) (p : Nat) : BitVec 15 :=
  s.brass.parts.foldl (fun (m : BitVec 15) e => if e.1 = p then m else m ||| e.2.ways) 0

/-- A register of a queue. -/
def State.writeQueue (s : State) (q : Nat) (f : Queue → Queue) : State := if q < 4096 then s.setQueue q (f (s.queue q)) else s

/-- A register of a partition. -/
def State.writePart (s : State) (p : Nat) (f : Part → Part) : State :=
  if p < 128 then s.setPart (BitVec.ofNat 7 p) (f (s.part (BitVec.ofNat 7 p))) else s

/-! ### Registers of the host port -/

/-- R371 HP_DCFG; EN stays 0 when LSZ is above 12, or where HP_DRING or HP_DCMP has not been written (R8). Clearing EN cancels (R374). -/
def State.writeDcfg (s : State) (f r : Nat) (v : W64) : State :=
  let x := s.ring f r
  let lsz : BitVec 4 := v.extractLsb' 56 4
  let en := v.getLsbD 63 && decide (lsz.toNat ≤ 12) && x.ringSet && x.cmpSet
  let s1 := s.setRing f r { x with lsz := lsz, vec := v.setWidth 6, en := en }
  if x.en && !en then s1.disableRing f r else s1

/-- R344: eight bytes of CB_MBUF. -/
def State.writeMbuf (s : State) (f off : Nat) (v : W64) : State :=
  let x := s.box f
  if x.busy ∨ off % 8 ≠ 0 ∨ 4096 ≤ off then s
  else s.setBox f { x with written := true, buf := (List.range 8).foldl (fun (t : Tab Byte) k => put 0 t (off + k) (v.extractLsb' (8 * k) 8)) x.buf }

/-! ### Writes (R6) -/

/-- R375: CL_PCTL: a port that is disabled goes down; ROT asks for a rotation. A session follows by PORT_ENABLE or SPDM_RETRY. -/
def State.writePctl (s : State) (n : Nat) (v : W64) : State :=
  if 16 ≤ n then s
  else
    let s1 := if v.getLsbD 0 then s else s.portDown n
    let p := s1.couri n
    let q : CouriPort := { p with en := v.getLsbD 0 }
    s1.setCouri n (if v.getLsbD 1 ∧ q.up then q.rotateTx else q)

/-- A write to a register of the PF's BAR. -/
def State.writePf (s : State) (reg : Reg) (v : W64) : State :=
  match reg with
  | .brAsidbase => { s with host := { s.host with asidBase := v } }
  | .brFnpart f => if s.mayBind f then s.setFn f { s.fn f with part := v.setWidth 8 } else s
  | .brQcfg q => if q < 4096 then settleTo s (execQueueEnable q v s) else s
  | .brQring q => s.writeQueue q fun x => { x with ring := v &&& 0x7FFFFFFFFFFC0, ringSet := true }
  | .brQdb q => s.writeQueue q fun x => { x with db := v &&& 0x7FFFFFFFFFFC0, dbSet := true }
  | .brQvf q => if s.mayAssign q (v.setWidth 17) then s.writeQueue q fun x => { x with qvf := v.setWidth 17 } else s
  | .brTwgt t => if t < 1024 then s.setBrass { s.brass with weights := put 0 s.brass.weights t (v.setWidth 16) } else s
  | .brPshr p =>
    if s.otherShares p (·.lshr) + (v.extractLsb' 8 8).toNat ≤ 256 ∧ s.otherShares p (·.mshr) + (v.setWidth 8 : BitVec 8).toNat ≤ 256 then
      s.writePart p fun x => { x with lshr := v.extractLsb' 8 8, mshr := v.setWidth 8 }
    else s
  | .brPfbase p => s.writePart p fun x => { x with pfBase := v }
  | .brPftop p => (s.writePart p fun x => { x with pfTop := v }).settleL2
  | .brPway p => if s.otherWays p &&& v.setWidth 15 = 0 then s.writePart p fun x => { x with ways := v.setWidth 15 } else s
  | .brLtbase t => if t < 1024 then s.setBrass { s.brass with ltBase := put 0 s.brass.ltBase t v } else s
  | .brLtcnt t => if t < 1024 then s.setBrass { s.brass with ltCnt := put 0 s.brass.ltCnt t v } else s
  | .clPctl n => s.writePctl n v
  | .clChipid => if s.links.ports.any (·.2.up) then s else { s with links := { s.links with chip := v.setWidth 12 } }
  | .clPtctl => { s with links := { s.links with master := v.getLsbD 0 } }
  | .clRtab c =>
    if c < 4096 then
      s.setChipRoute c { s.chipRoute c with v := v.getLsbD 63, av := v.getLsbD 8, aport := v.extractLsb' 4 4, pport := v.setWidth 4 }
    else s
  | _ => s

/-- R318: BR_QSTAT, which the PF and the function that owns the queue write. -/
def State.writeQstat (s : State) (q : Nat) (v : W64) : State :=
  let x := s.queue q
  (s.writeQueue q fun x => { x with ovf := x.ovf && !v.getLsbD 7, badr := x.badr && !v.getLsbD 6, cmpf := x.cmpf && !v.getLsbD 5 }).refreshLevels
    x.part

/-- A write to a register of a function's own BAR. -/
def State.writeFn (s : State) (reg : Reg) (v : W64) : State :=
  match reg with
  | .hpDcfg f r => if s.ringOpen f r then s.writeDcfg f r v else s
  | .hpDring f r => if s.ringOpen f r then s.setRing f r { s.ring f r with ring := v &&& ~~~(63#64), ringSet := true } else s
  | .hpDcmp f r => if s.ringOpen f r then s.setRing f r { s.ring f r with cmp := v &&& ~~~(15#64), cmpSet := true } else s
  | .hpDstat f r =>
    if s.ringOpen f r then
      s.setRing f r { s.ring f r with ovf := (s.ring f r).ovf && !v.getLsbD 2, err := (s.ring f r).err && !v.getLsbD 1 }
    else s
  | .cbMstat f => if s.boxOpen f then s.setBox f { s.box f with done := (s.box f).done && !v.getLsbD 1 } else s
  | .cbMbuf f off => if s.boxOpen f then s.writeMbuf f off v else s
  | _ => s

/-! ### What stands where in the BARs (R368, R370) -/

/-- R370: the queue that a window of a VF shows. -/
def State.windowQueue (s : State) (f slot : Nat) : Option Nat :=
  (s.brass.queues.find? fun e => e.2.fn == f && (e.2.qvf.extractLsb' 11 6).toNat == slot).map (·.1)

/-- The register of a DMA ring at an offset of its 64 bytes (R371). -/
def ringReg (f r off : Nat) : Reg :=
  match off with
  | 0 => .hpDcfg f r
  | 8 => .hpDring f r
  | 16 => .hpDcmp f r
  | 40 => .hpDstat f r
  | _ => .unassigned

/-- The register of a queue at an offset of its 64 bytes (R318). -/
def queueReg (q off : Nat) : Reg :=
  match off with
  | 0 => .brQcfg q
  | 8 => .brQring q
  | 16 => .brQdb q
  | 40 => .brQstat q
  | 48 => .brQvf q
  | _ => .unassigned

/-- The register of a mailbox at an offset of its block (R344). -/
def boxReg (f off : Nat) : Reg :=
  if off = 8 then .cbMstat f else if 0x1000 ≤ off ∧ off < 0x2000 then .cbMbuf f (off - 0x1000) else .unassigned

/-- R368 Table 2: the register of the PF's BAR0 at an offset whose write is no event of its own. -/
def pfReg (a : Nat) : Reg :=
  if a % 8 ≠ 0 then .unassigned
  else if a = 0 then .brAsidbase
  else if 0x1000 ≤ a ∧ a ≤ 0x1000 + 8 * 1024 then .brFnpart ((a - 0x1000) / 8)
  else if 0x100000 ≤ a ∧ a < 0x102000 then boxReg 0 (a - 0x100000)
  else if 0x200000 ≤ a ∧ a < 0x201000 then (if a % 0x100 = 0 then .clPctl ((a - 0x200000) / 0x100) else .unassigned)
  else if a = 0x210000 then .clChipid
  else if a = 0x210008 then .clPtctl
  else if 0x220000 ≤ a ∧ a < 0x228000 then .clRtab ((a - 0x220000) / 8)
  else if 0x400000 ≤ a ∧ a < 0x400100 then ringReg 0 ((a - 0x400000) / 64) (a % 64)
  else if 0x1000000 ≤ a ∧ a < 0x1040000 then queueReg ((a - 0x1000000) / 64) (a % 64)
  else if 0x1040000 ≤ a ∧ a < 0x1042000 then .brTwgt ((a - 0x1040000) / 8)
  else if 0x1042000 ≤ a ∧ a < 0x1043000 then
    let p := (a - 0x1042000) / 32
    (match a % 32 with
    | 0 => .brPshr p
    | 8 => .brPfbase p
    | 16 => .brPftop p
    | _ => .brPway p)
  else if 0x1043000 ≤ a ∧ a < 0x1047000 then (if a % 16 = 0 then .brLtbase ((a - 0x1043000) / 16) else .brLtcnt ((a - 0x1043000) / 16))
  else .unassigned

/-- R370 Table 3: the same for a VF's BAR0; a queue window shows BR_QTAIL and BR_QSTAT. -/
def State.vfReg (s : State) (f a : Nat) : Reg :=
  if a % 8 ≠ 0 then .unassigned
  else if a < 0x2000 then boxReg f a
  else if a < 0x2100 then ringReg f ((a - 0x2000) / 64) (a % 64)
  else if 0x4000 ≤ a ∧ a < 0x5000 ∧ a % 64 = 40 then ((s.windowQueue f ((a - 0x4000) / 64)).map Reg.brQstat).getD .unassigned
  else .unassigned

/-- R344 GO; R371 HP_DTAIL. -/
def State.boxGo (s : State) (f : Nat) (v : W64) : State := if v.getLsbD 0 then settleTo s (execMailboxGo f s) else s

def State.ringTail (s : State) (f a : Nat) (v : W64) : State :=
  if a % 64 = 24 ∧ a < 256 then settleTo s (execHpDtailWrite f (a / 64) v s) else s

/-- A write to a register whose write is no event of its own. -/
def State.writeReg (s : State) (reg : Reg) (v : W64) : State :=
  match reg with
  | .cbThrstat => { s with mgmt := { s.mgmt with hot := s.mgmt.hot && !v.getLsbD 2 } }
  | .brQstat q => if s.barOpen then s.writeQstat q v else s
  | .unassigned => s
  | r => (if s.barOpen then s.writePf r v else s).writeFn r v

/-- R368: a write to the PF's BAR0. -/
def State.writeBar (s : State) (a : Nat) (v : W64) : State :=
  if a = 0x10 then settleTo s (execBrL2reqWrite v s)
  else if a = 0x100000 then s.boxGo 0 v
  else if 0x400000 ≤ a ∧ a < 0x400100 ∧ a % 64 = 24 then s.ringTail 0 (a - 0x400000) v
  else if 0x1000000 ≤ a ∧ a < 0x1040000 ∧ a % 64 = 24 then settleTo s (execBrQtailWrite ((a - 0x1000000) / 64) v s)
  else if a = 0x1051008 then settleTo s (execBrErrpopWrite v s)
  else if 0x1052000 ≤ a ∧ a < 0x1052400 ∧ a % 8 = 0 then
    let p := (a - 0x1052000) / 8
    if v.getLsbD 62 then settleTo s (execSaveEnd p s) else if v.getLsbD 61 then settleTo s (execSaveCancel p s) else s
  else s.writeReg (pfReg a) v

/-- R370: a write to a VF's BAR0. -/
def State.writeVf (s : State) (f a : Nat) (v : W64) : State :=
  if s.mgmt.stage ≠ 2 ∨ (s.fn f).qsc then s
  else if a = 0 then s.boxGo f v
  else if 0x2000 ≤ a ∧ a < 0x2100 ∧ a % 64 = 24 then s.ringTail f (a - 0x2000) v
  else if 0x4000 ≤ a ∧ a < 0x5000 ∧ a % 64 = 24 then
    match s.windowQueue f ((a - 0x4000) / 64) with
    | some q => settleTo s (execBrQtailWrite q v s)
    | none => s
  else s.writeReg (s.vfReg f a) v

/-! ### Fuses (R343, R483) -/

/-- Programs a fuse bit: 0 to 63 the first bits of the pairs, 64 to 127 the second; a bit that does not take programming stays. -/
def Fuses.burn (x : Fuses) (k : Nat) : Fuses :=
  if x.broken.getLsbD k then x
  else if k < 64 then { x with first := x.first ||| (1#64 <<< k) }
  else { x with second := x.second ||| (1#64 <<< (k - 64)) }

/-- Whether either bit of a pair is programmed. -/
def Fuses.counts (x : Fuses) (k : Nat) : Bool := (x.first ||| x.second).getLsbD k

/-- R343: programs the missing bit of each pair that has exactly one. -/
def Fuses.complete (x : Fuses) : Fuses :=
  (List.range 64).foldl (fun (y : Fuses) k => if y.counts k then (y.burn k).burn (64 + k) else y) x

/-- R341, R343, R483: advances the counter pair by pair; a pair whose two bits both fail stops it. -/
def Fuses.advance (x : Fuses) (k svn : Nat) : Nat → Fuses
  | 0 => x
  | fuel + 1 =>
    if svn ≤ k then x
    else
      let y := (x.burn k).burn (64 + k)
      if y.counts k then y.advance (k + 1) svn fuel else y

/-- R483: the fuse bits that a boot programs, in order: those of the pairs that have one, then those of an advance, up to a pair whose two
bits both fail. -/
def Fuses.plan (x : Fuses) (svn : Nat) : List Nat :=
  let pairs := (List.range 64).filter x.counts
  let more := ((List.range 64).filter fun k => decide (x.complete.svn ≤ k ∧ k < svn)).takeWhile fun k =>
    !(x.broken.getLsbD k && x.broken.getLsbD (64 + k))
  (pairs ++ more).flatMap fun k => [k, 64 + k]

/-! ### Firmware images (R391) -/

/-- Bytes of an image slot. -/
def Fuses.image (x : Fuses) (slot o n : Nat) : List Byte := (List.range n).map fun k => look 0 x.flash (2 ^ 32 * slot + o + k)

def imageLen (h : BitVec 512) : Nat := (h.extractLsb' 128 32).toNat
def imageSvn (h : BitVec 512) : Nat := (h.extractLsb' 48 8).toNat

/-- R391: the header's fixed and reserved bits and its length. -/
def imageHeaderOk (h : BitVec 512) : Bool :=
  h.setWidth 32 == 0x4F565946#32 && h.extractLsb' 160 352 == 0 && h.extractLsb' 57 7 == 0 && h.extractLsb' 32 16 == 0 &&
  decide (imageLen h % 64 = 0) && decide (128 ≤ imageLen h) && decide (imageSvn h ≤ 64)

def Fuses.header (x : Fuses) (slot : Nat) : BitVec 512 := ofBytes 512 (x.image slot 0 64)

/-- R341: whether ROM boots the image of a slot. -/
def Fuses.boots (x : Fuses) (slot : Nat) : Bool :=
  let h := x.header slot
  let len := imageLen h
  imageHeaderOk h && decide (x.svn ≤ imageSvn h) &&
  Config.sm2Verify Config.firmwareKey (Config.sm3 (x.image slot 0 (len - 64))) (ofBytes 512 (x.image slot (len - 64) 64))

/-- R343: the SVN that a boot would commit: that of the image found, where it sets COMMIT. -/
def Fuses.target (x : Fuses) : Nat := match [0, 1].find? x.complete.boots with
  | some slot => if (x.complete.header slot).getLsbD 56 then imageSvn (x.complete.header slot) else 0
  | none => 0

/-- R343, R483: the fuses after `m` of the bits that ROM programs have been programmed. -/
def Fuses.programmed (x : Fuses) (m : Nat) : Fuses := ((x.plan x.target).take m).foldl Fuses.burn x

/-- R389, R483: the fuses that a package reset leaves: in stage 0 it interrupts ROM after a free number of the bits that it programs. -/
def State.fusesLeft (s : State) : Fuses :=
  if s.mgmt.stage = 0 ∧ !s.mgmt.held then s.sec.fuses.programmed (Config.freeWord s.free).toNat else s.sec.fuses

/-! ### Package resets (R388, R389) -/

/-- R389: a package reset: every register and all context state at its reset value; fuses, as far as they have been programmed, and boot
flash stay. What the environment has scheduled, and the count of free values, are no state of the package. -/
def State.packageReset (s : State) (cause : BitVec 8) (held : Bool) : State :=
  { State.reset with
    turns := s.turns
    free := s.free + 1
    sec := { State.reset.sec with fuses := s.fusesLeft }
    mgmt := { State.reset.mgmt with cause := cause, held := held } }

/-! ### Power (R393, R394, R396) -/

/-- D3HOT_WRITE (R393): refused while a queue is enabled or a task is resident. -/
def execD3hotWrite (d3 : Bool) (s : State) : Host.Outcome State Fault Refusal :=
  let busy := (s.brass.queues.any (·.2.en)) || s.anyRunning
  .next { s with mgmt := { s.mgmt with d3hot := d3 && !busy } }

/-- CB_PWRLIM_WRITE (R394, R396): clamped to 600 to 2200 W. -/
def execCbPwrlimWrite (v : BitVec 64) (s : State) : Host.Outcome State Fault Refusal :=
  let w : BitVec 12 := v.setWidth 12
  .next { s with mgmt := { s.mgmt with pwrLim := if w.ult 600 then 600 else if (2200#12).ult w then 2200 else w } }

/-- R396: a write to a management register by its number. -/
def State.writeSideband (s : State) (n : Nat) (v : W64) : State :=
  match n with
  | 2 => settleTo s (execCbPwrlimWrite v s)
  | 5 => s.writeReg .cbThrstat v
  | 6 => if v.getLsbD 0 then s.packageReset 3 false else s
  | _ => s

/-- REGISTER_WRITE (R6): reserved fields are left out of what is written (R7), read-only ones ignore it. -/
def execRegisterWrite (reg : Reg) (v : BitVec 64) (s : State) : Host.Outcome State Fault Refusal :=
  .next <| match reg with
  | .bar 0 a => s.writeBar a v
  | .bar f a => if f ≤ 1024 then s.writeVf f a v else s
  | .sideband n => s.writeSideband n v
  | r => s.writeReg r v

/-! ### Reads (R6): what the host and the board management controller see -/

/-- R7: a register's bits from its fields, each with its lowest bit. -/
def fields (l : List (Nat × Nat)) : W64 := l.foldl (fun (x : W64) f => x ||| BitVec.ofNat 64 (f.2 * 2 ^ f.1)) 0

/-- R318: BR_QSTAT. -/
def State.qstat (s : State) (q : Nat) : W64 :=
  let x := s.queue q
  let mine (p : TaskState → Bool) : Bool := (s.tasksOf q).any fun e => p e.2.state
  fields [(7, x.ovf.toNat), (6, x.badr.toNat), (5, x.cmpf.toNat), (1, (mine (· == .pending)).toNat), (0, (mine (· == .resident)).toNat)]

/-- R318, R369: the registers of a queue block. -/
def State.queueRead (s : State) (q off : Nat) : W64 :=
  let x := s.queue q
  match off with
  | 0 => x.cfg
  | 8 => x.ring
  | 16 => x.db
  | 24 => x.tail
  | 32 => x.head
  | 40 => s.qstat q
  | 48 => x.qvf.setWidth 64
  | _ => 0

/-- R371 Table 4: the registers of a ring. -/
def State.ringRead (s : State) (f r off : Nat) : W64 :=
  let x := s.ring f r
  match off with
  | 0 => fields [(63, x.en.toNat), (56, x.lsz.toNat), (0, x.vec.toNat)]
  | 8 => x.ring
  | 16 => x.cmp
  | 24 => x.tail
  | 32 => x.head
  | 40 => fields [(2, x.ovf.toNat), (1, x.err.toNat), (0, x.busy.toNat)]
  | _ => 0

/-- R344: the registers of a mailbox; in stages 0 and 1 BUSY reads 1 (R390). -/
def State.mailboxRead (s : State) (f off : Nat) : W64 :=
  let x := s.box f
  if !s.boxOpen f then (if f = 0 ∧ off = 8 ∧ (s.mgmt.stage = 0 ∨ s.mgmt.stage = 1) then 1 else 0)
  else if off = 8 then fields [(1, x.done.toNat), (0, x.busy.toNat)]
  else if 0x1000 ≤ off ∧ off < 0x2000 ∧ off % 8 = 0 ∧ !x.busy then ofBytes 64 (msgBytes x.buf (off - 0x1000) 8)
  else 0

/-- R375 Table 5. -/
def State.portRead (s : State) (n off : Nat) : W64 :=
  let p := s.couri n
  match off with
  | 0 => fields [(0, p.en.toNat)]
  | 8 => fields [(48, p.txEpoch.toNat), (32, p.authErr.toNat), (16, p.crcErr.toNat), (4, p.peer.toNat), (3, p.dup.toNat), (2, p.auth.toNat), (1, p.up.toNat)]
  | _ => 0

def State.routeRead (s : State) (c : Nat) : W64 :=
  let r := s.chipRoute c
  fields [(63, r.v.toNat), (9, r.use.toNat), (8, r.av.toNat), (4, r.aport.toNat), (0, r.pport.toNat)]

/-- R435 BR_RPQ: the oldest parked store of a partition. -/
def State.rpqRead (s : State) (p : BitVec 7) : W64 :=
  let all := (s.seqs.flatMap fun e => if e.2.part = p then e.2.replay else []) ++
    (s.cores.flatMap fun e => if s.partOf e.1 = some p then e.2.ve.replay else []) ++
    (s.brass.tasks.flatMap fun e => match e.2 with
      | some x => if x.part = p then (match x.saved with
          | some v => (v.seqs.flatMap (·.2.replay)) ++ (v.cores.flatMap (·.2.ve.replay))
          | none => []) else []
      | none => [])
  match all.foldl (fun (m : Option Parked) x => match m with
    | some y => if x.born < y.born then some x else m
    | none => some x) none with
  | some x => fields [(63, 1), (62, x.denied.toNat), (46, x.asid.toNat), (0, x.va.toNat / 32768 % 2 ^ 36)]
  | none => 0

/-- R445: the error log. -/
def State.errRead (s : State) (off : Nat) : W64 :=
  match off, s.mem.log with
  | 0, e :: _ => fields [(63, 1), (60, e.reason.toNat), (53, e.part.toNat), (0, e.addr.toNat)]
  | 0x10, l => fields [(32, s.mem.corr.toNat), (16, s.mem.lost.toNat), (0, l.length)]
  | _, _ => 0

/-- R464 BR_SVFLT. -/
def State.svfltRead (s : State) (p : BitVec 7) : W64 :=
  match (s.part p).wait with
  | some (t, placing, need, held) => fields [(63, 1), (60, placing.toNat), (32, need), (16, held), (0, ((s.task t).map (·.queue)).getD 0)]
  | none => 0

/-- R462 BR_FNQS. -/
def State.fnqsRead (s : State) (f : Nat) : W64 :=
  let (dwr, ord, rrs) := s.quiesceCounts f
  fields [(63, (s.fn f).qsc.toNat), (32, dwr), (16, ord), (0, rrs)]

/-- R368: a read of the PF's BAR0. -/
def State.pfRead (s : State) (a : Nat) : W64 :=
  if 0x100000 ≤ a ∧ a < 0x102000 then s.mailboxRead 0 (a - 0x100000)
  else if !s.barOpen then 0
  else if a = 0 then s.host.asidBase
  else if a = 8 then fields [(0, s.mem.l2mode.toNat)]
  else if a = 0x10 then s.host.l2req.setWidth 64
  else if 0x1000 ≤ a ∧ a ≤ 0x1000 + 8 * 1024 ∧ a % 8 = 0 then (s.fn ((a - 0x1000) / 8)).part.setWidth 64
  else if 0x200000 ≤ a ∧ a < 0x201000 then s.portRead ((a - 0x200000) / 0x100) (a % 0x100)
  else if a = 0x210000 then s.links.chip.setWidth 64
  else if a = 0x210008 then fields [(0, s.links.master.toNat)]
  else if 0x220000 ≤ a ∧ a < 0x228000 ∧ a % 8 = 0 then s.routeRead ((a - 0x220000) / 8)
  else if 0x400000 ≤ a ∧ a < 0x400100 then s.ringRead 0 ((a - 0x400000) / 64) (a % 64)
  else if 0x1000000 ≤ a ∧ a < 0x1040000 then s.queueRead ((a - 0x1000000) / 64) (a % 64)
  else if 0x1040000 ≤ a ∧ a < 0x1042000 ∧ a % 8 = 0 then (look 0 s.brass.weights ((a - 0x1040000) / 8)).setWidth 64
  else if 0x1042000 ≤ a ∧ a < 0x1043000 then
    let p := s.part (BitVec.ofNat 7 ((a - 0x1042000) / 32))
    match a % 32 with
    | 0 => fields [(8, p.lshr.toNat), (0, p.mshr.toNat)]
    | 8 => p.pfBase
    | 16 => p.pfTop
    | 24 => p.ways.setWidth 64
    | _ => 0
  else if 0x1043000 ≤ a ∧ a < 0x1047000 ∧ a % 8 = 0 then
    look 0 (if a % 16 = 0 then s.brass.ltBase else s.brass.ltCnt) ((a - 0x1043000) / 16)
  else if 0x1050000 ≤ a ∧ a < 0x1050400 ∧ a % 8 = 0 then s.rpqRead (BitVec.ofNat 7 ((a - 0x1050000) / 8))
  else if 0x1051000 ≤ a ∧ a < 0x1051018 then s.errRead (a - 0x1051000)
  else if 0x1052000 ≤ a ∧ a < 0x1052400 ∧ a % 8 = 0 then s.svfltRead (BitVec.ofNat 7 ((a - 0x1052000) / 8))
  else if 0x1053000 ≤ a ∧ a ≤ 0x1053000 + 8 * 1024 ∧ a % 8 = 0 then s.fnqsRead ((a - 0x1053000) / 8)
  else 0

/-- R370: a read of a VF's BAR0. -/
def State.vfRead (s : State) (f a : Nat) : W64 :=
  if s.mgmt.stage ≠ 2 ∨ (s.fn f).qsc then 0
  else if a < 0x2000 then s.mailboxRead f a
  else if a < 0x2100 then s.ringRead f ((a - 0x2000) / 64) (a % 64)
  else if 0x4000 ≤ a ∧ a < 0x5000 then
    match s.windowQueue f ((a - 0x4000) / 64) with
    | some q => if a % 64 = 24 ∨ a % 64 = 32 ∨ a % 64 = 40 then s.queueRead q (a % 64) else 0
    | none => 0
  else 0

/-- R396: a read of a management register. -/
def State.sidebandRead (s : State) (n : Nat) : W64 :=
  let m := s.mgmt
  match n with
  | 0 => m.cause.setWidth 64
  | 1 => fields [(8, m.slot.toNat), (0, m.stage.toNat)]
  | 2 => m.pwrLim.setWidth 64
  | 3 => fields [(12, m.duty.toNat), (0, m.watts.toNat)]
  | 4 => m.temp.setWidth 64
  | 5 => fields [(2, m.hot.toNat), (1, m.therm.toNat), (0, m.pwr.toNat)]
  | _ => 0

end Sys2Proof.Machine
end

