-- ==== Sys2Proof/Machine/Resets.lean ====
section
/-! DEFINITION. Resets, bring-up, power and temperature (R341, R343, R388 to R397, R444, R483). -/

namespace Sys2Proof.Machine

/-! ### Package resets (R388, R389) -/

/-- POWER_ON_RESET (R388). -/
def execPowerOnReset (s : State) : Host.Outcome State Fault Refusal := .next (s.packageReset 1 false)

/-- PERST (R388). -/
def execPerst (s : State) : Host.Outcome State Fault Refusal := .next (s.packageReset 2 false)

/-- SIDEBAND_RESET (R396). -/
def execSidebandReset (s : State) : Host.Outcome State Fault Refusal := .next (s.packageReset 3 false)

/-- THERMAL_TRIP (R395): held until cooled. -/
def execThermalTrip (s : State) : Host.Outcome State Fault Refusal := .next (s.packageReset 4 true)

/-- WATCHDOG_RESET (R388). -/
def execWatchdogReset (s : State) : Host.Outcome State Fault Refusal := .next (s.packageReset 5 false)

/-- THERMAL_TRIP_COOLED (R388): bring-up begins. -/
def execThermalTripCooled (s : State) : Host.Outcome State Fault Refusal := .next { s with mgmt := { s.mgmt with held := false } }

/-! ### Keys (R340, R341) -/

/-- HMAC-SM3 of a message under a 32-byte key. -/
def hmacSm3 (key : BitVec 256) (msg : List Byte) : BitVec 256 :=
  let pad (x : Byte) : List Byte := (digestBytes key ++ List.replicate 32 0).map (· ^^^ x)
  Config.sm3 (pad 0x5C ++ digestBytes (Config.sm3 (pad 0x36 ++ msg)))

/-- The order of the SM2 curve. -/
def sm2Order : Nat := 0xFFFFFFFEFFFFFFFFFFFFFFFFFFFFFFFF7203DF6B21C6052B53BBF40939D54123

/-- R341: an SM2 private scalar from an HMAC output, read big-endian. -/
def sm2Scalar (x : BitVec 256) : BitVec 256 :=
  let v := (digestBytes x).foldl (fun (a : Nat) b => 256 * a + b.toNat) 0
  BitVec.ofNat 256 (v % (sm2Order - 1) + 1)

/-- The bytes of the labels of Table 2: "OVY-DEVID", "OVY-ALIAS" and "OVY-SEAL". -/
def labelDevid : List Byte := [0x4F, 0x56, 0x59, 0x2D, 0x44, 0x45, 0x56, 0x49, 0x44]
def labelAlias : List Byte := [0x4F, 0x56, 0x59, 0x2D, 0x41, 0x4C, 0x49, 0x41, 0x53]
def labelSeal : List Byte := [0x4F, 0x56, 0x59, 0x2D, 0x53, 0x45, 0x41, 0x4C]

/-- R341 Table 2: the keys of a boot from UDS and the two measurements. -/
def Sec.derive (x : Sec) (m0 m1 : BitVec 256) : Sec :=
  let cdi := hmacSm3 x.fuses.uds (digestBytes m0 ++ digestBytes m1)
  { x with cdi := cdi, devKey := sm2Scalar (hmacSm3 x.fuses.uds (labelDevid ++ digestBytes m0)),
           aliasKey := sm2Scalar (hmacSm3 cdi labelAlias), sealKey := sm2Scalar (hmacSm3 cdi labelSeal) }

/-! ### Bring-up (R341, R390) -/

/-- ROM_BOOT (R341 stage 1, R390 stage 0): without an image that passes, ROM enters recovery. -/
def execRomBoot (s : State) : Host.Outcome State Fault Refusal :=
  .next <| if s.mgmt.stage ≠ 0 ∨ s.mgmt.held then s
  else
    let m0 := Config.sm3 Config.rom
    let f := s.sec.fuses.complete
    let sec1 : Sec := { s.sec with meas := put 0 s.sec.meas 0 m0, fuses := f, bootId := (Config.freeDraw s.free).setWidth 128 }
    let s1 := { s with free := s.free + 1, sec := sec1 }
    match [0, 1].find? f.boots with
    | none => { s1 with mgmt := { s1.mgmt with stage := 0x80 } }
    | some slot =>
      let h := f.header slot
      let m1 := Config.sm3 (f.image slot 0 (imageLen h))
      let g := if h.getLsbD 56 then f.advance f.svn (imageSvn h) 64 else f
      let sec2 : Sec := { sec1.derive m0 m1 with meas := put 0 sec1.meas 1 m1, fuses := g }
      { s1 with sec := sec2, mgmt := { s1.mgmt with stage := 1, slot := slot == 1 } }

/-- FIRMWARE_BOOT (R341 stage 2, R390 stage 1, R444): the firmware measures Brass and the link firmware, reloads the retirement table, and
sets the boot lock. -/
def execFirmwareBoot (s : State) : Host.Outcome State Fault Refusal :=
  .next <| if s.mgmt.stage ≠ 1 then s
  else
    let slot := s.mgmt.slot.toNat
    let h := s.sec.fuses.header slot
    let offb := (h.extractLsb' 96 32).toNat
    let offl := (h.extractLsb' 64 32).toNat
    let m2 := Config.sm3 (s.sec.fuses.image slot offb (offl - offb))
    let m3 := Config.sm3 (s.sec.fuses.image slot offl (imageLen h - 64 - offl))
    { s with sec := { s.sec with meas := put 0 (put 0 s.sec.meas 2 m2) 3 m3, bootLock := true, svn := imageSvn h }
             mem := { s.mem with retired := s.sec.fuses.retired }
             mgmt := { s.mgmt with stage := 2 } }

/-! ### Power and temperature (R394, R395, R397) -/

/-- R397: DUTY takes the lower of the two demands. -/
def Mgmt.setDuty (m : Mgmt) : Mgmt := { m with duty := if m.wantPwr.ult m.wantTherm then m.wantPwr else m.wantTherm }

/-- POWER_DUTY_ADJUST (R394): the power controller's average and its demand. -/
def execPowerDutyAdjust (watts : BitVec 12) (duty : BitVec 7) (s : State) : Host.Outcome State Fault Refusal :=
  let d : BitVec 7 := if duty = 0 then 1 else if (64#7).ult duty then 64 else duty
  .next { s with mgmt := { s.mgmt with watts := watts, wantPwr := d, pwr := d.ult 64 }.setDuty }

/-- THERMAL_THROTTLE (R395): the hottest die's temperature, in 1/16 °C. From 95 °C on, until it has fallen to 90 °C, the controller lowers
DUTY; how far is not stated. -/
def execThermalThrottle (temp : BitVec 12) (s : State) : Host.Outcome State Fault Refusal :=
  let m := s.mgmt
  let reached := decide (1520 ≤ temp.toNat)
  let on := reached || (m.therm && decide (1440 < temp.toNat))
  let lower := BitVec.ofNat 7 (1 + (Config.freeWord s.free).toNat % Nat.max 1 (m.duty.toNat - 1))
  let m1 : Mgmt := { m with temp := temp, hot := m.hot || reached, therm := on, wantTherm := if on then lower else 64 }
  .next { s with free := s.free + 1, mgmt := m1.setDuty }

end Sys2Proof.Machine
end

