-- ==== Sys2Proof/Machine/Dispatch.lean ====
section
/-! DEFINITION. One arm for each instruction: a direct call of its meaning. -/

namespace Sys2Proof.Machine

/-- The meaning of each instruction and event. -/
def exec (i : Instr) (s : State) : Host.Outcome State Fault Refusal :=
  match i with
  | .nop x0 => Sys2Proof.Machine.execNop x0 s
  | .idle x0 => Sys2Proof.Machine.execIdle x0 s
  | .b x0 x1 => Sys2Proof.Machine.execB x0 x1 s
  | .bi x0 x1 => Sys2Proof.Machine.execBi x0 x1 s
  | .call x0 x1 => Sys2Proof.Machine.execCall x0 x1 s
  | .calli x0 x1 => Sys2Proof.Machine.execCalli x0 x1 s
  | .ret x0 => Sys2Proof.Machine.execRet x0 s
  | .loop x0 x1 => Sys2Proof.Machine.execLoop x0 x1 s
  | .waitt x0 => Sys2Proof.Machine.execWaitt x0 s
  | .csrr x0 x1 => Sys2Proof.Machine.execCsrr x0 x1 s
  | .csrw x0 x1 x2 => Sys2Proof.Machine.execCsrw x0 x1 x2 s
  | .csrs x0 x1 x2 => Sys2Proof.Machine.execCsrs x0 x1 x2 s
  | .csrc x0 x1 x2 => Sys2Proof.Machine.execCsrc x0 x1 x2 s
  | .fence x0 x1 => Sys2Proof.Machine.execFence x0 x1 s
  | .rstpt x0 x1 => Sys2Proof.Machine.execRstpt x0 x1 s
  | .trap x0 x1 => Sys2Proof.Machine.execTrap x0 x1 s
  | .tack x0 => Sys2Proof.Machine.execTack x0 s
  | .tret x0 => Sys2Proof.Machine.execTret x0 s
  | .svc x0 x1 => Sys2Proof.Machine.execSvc x0 x1 s
  | .scanr x0 x1 x2 => Sys2Proof.Machine.execScanr x0 x1 x2 s
  | .add x0 x1 x2 x3 x4 x5 x6 => Sys2Proof.Machine.execAdd x0 x1 x2 x3 x4 x5 x6 s
  | .sub x0 x1 x2 x3 x4 x5 => Sys2Proof.Machine.execSub x0 x1 x2 x3 x4 x5 s
  | .mul x0 x1 x2 x3 x4 x5 => Sys2Proof.Machine.execMul x0 x1 x2 x3 x4 x5 s
  | .mulh x0 x1 x2 x3 x4 x5 => Sys2Proof.Machine.execMulh x0 x1 x2 x3 x4 x5 s
  | .mulhu x0 x1 x2 x3 x4 x5 => Sys2Proof.Machine.execMulhu x0 x1 x2 x3 x4 x5 s
  | .div x0 x1 x2 x3 x4 x5 => Sys2Proof.Machine.execDiv x0 x1 x2 x3 x4 x5 s
  | .rem x0 x1 x2 x3 x4 x5 => Sys2Proof.Machine.execRem x0 x1 x2 x3 x4 x5 s
  | .and x0 x1 x2 x3 x4 x5 x6 => Sys2Proof.Machine.execAnd x0 x1 x2 x3 x4 x5 x6 s
  | .or x0 x1 x2 x3 x4 x5 x6 => Sys2Proof.Machine.execOr x0 x1 x2 x3 x4 x5 x6 s
  | .xor x0 x1 x2 x3 x4 x5 x6 => Sys2Proof.Machine.execXor x0 x1 x2 x3 x4 x5 x6 s
  | .andn x0 x1 x2 x3 x4 x5 => Sys2Proof.Machine.execAndn x0 x1 x2 x3 x4 x5 s
  | .shl x0 x1 x2 x3 x4 x5 => Sys2Proof.Machine.execShl x0 x1 x2 x3 x4 x5 s
  | .shr x0 x1 x2 x3 x4 x5 => Sys2Proof.Machine.execShr x0 x1 x2 x3 x4 x5 s
  | .sra x0 x1 x2 x3 x4 x5 => Sys2Proof.Machine.execSra x0 x1 x2 x3 x4 x5 s
  | .rot x0 x1 x2 x3 x4 x5 => Sys2Proof.Machine.execRot x0 x1 x2 x3 x4 x5 s
  | .min x0 x1 x2 x3 x4 x5 x6 => Sys2Proof.Machine.execMin x0 x1 x2 x3 x4 x5 x6 s
  | .max x0 x1 x2 x3 x4 x5 x6 => Sys2Proof.Machine.execMax x0 x1 x2 x3 x4 x5 x6 s
  | .minu x0 x1 x2 x3 x4 x5 x6 => Sys2Proof.Machine.execMinu x0 x1 x2 x3 x4 x5 x6 s
  | .maxu x0 x1 x2 x3 x4 x5 x6 => Sys2Proof.Machine.execMaxu x0 x1 x2 x3 x4 x5 x6 s
  | .abs x0 x1 x2 x3 x4 => Sys2Proof.Machine.execAbs x0 x1 x2 x3 x4 s
  | .neg x0 x1 x2 x3 x4 => Sys2Proof.Machine.execNeg x0 x1 x2 x3 x4 s
  | .adds x0 x1 x2 x3 x4 x5 x6 => Sys2Proof.Machine.execAdds x0 x1 x2 x3 x4 x5 x6 s
  | .subs x0 x1 x2 x3 x4 x5 x6 => Sys2Proof.Machine.execSubs x0 x1 x2 x3 x4 x5 x6 s
  | .clz x0 x1 x2 x3 x4 => Sys2Proof.Machine.execClz x0 x1 x2 x3 x4 s
  | .popc x0 x1 x2 x3 x4 => Sys2Proof.Machine.execPopc x0 x1 x2 x3 x4 s
  | .sel x0 x1 x2 x3 x4 x5 => Sys2Proof.Machine.execSel x0 x1 x2 x3 x4 x5 s
  | .addi x0 x1 x2 => Sys2Proof.Machine.execAddi x0 x1 x2 s
  | .andi x0 x1 x2 => Sys2Proof.Machine.execAndi x0 x1 x2 s
  | .ori x0 x1 x2 => Sys2Proof.Machine.execOri x0 x1 x2 s
  | .movi x0 x1 => Sys2Proof.Machine.execMovi x0 x1 s
  | .movhi x0 x1 x2 => Sys2Proof.Machine.execMovhi x0 x1 x2 s
  | .lea x0 x1 x2 x3 x4 => Sys2Proof.Machine.execLea x0 x1 x2 x3 x4 s
  | .cmp x0 x1 x2 x3 x4 x5 => Sys2Proof.Machine.execCmp x0 x1 x2 x3 x4 x5 s
  | .fcmp x0 x1 x2 x3 x4 x5 => Sys2Proof.Machine.execFcmp x0 x1 x2 x3 x4 x5 s
  | .plog x0 x1 x2 x3 x4 => Sys2Proof.Machine.execPlog x0 x1 x2 x3 x4 s
  | .prd x0 x1 => Sys2Proof.Machine.execPrd x0 x1 s
  | .pwr x0 x1 x2 => Sys2Proof.Machine.execPwr x0 x1 x2 s
  | .itset x0 x1 => Sys2Proof.Machine.execItset x0 x1 s
  | .itnxt x0 x1 x2 => Sys2Proof.Machine.execItnxt x0 x1 x2 s
  | .rndget x0 x1 x2 => Sys2Proof.Machine.execRndget x0 x1 x2 s
  | .rndset x0 x1 => Sys2Proof.Machine.execRndset x0 x1 s
  | .mkemit x0 x1 x2 x3 => Sys2Proof.Machine.execMkemit x0 x1 x2 x3 s
  | .mktst x0 x1 x2 x3 => Sys2Proof.Machine.execMktst x0 x1 x2 x3 s
  | .tagset x0 x1 x2 x3 x4 => Sys2Proof.Machine.execTagset x0 x1 x2 x3 x4 s
  | .tagchk x0 x1 x2 x3 => Sys2Proof.Machine.execTagchk x0 x1 x2 x3 s
  | .tagget x0 x1 x2 x3 => Sys2Proof.Machine.execTagget x0 x1 x2 x3 s
  | .fadd x0 x1 x2 x3 x4 x5 x6 x7 => Sys2Proof.Machine.execFadd x0 x1 x2 x3 x4 x5 x6 x7 s
  | .fsub x0 x1 x2 x3 x4 x5 x6 => Sys2Proof.Machine.execFsub x0 x1 x2 x3 x4 x5 x6 s
  | .fmul x0 x1 x2 x3 x4 x5 x6 => Sys2Proof.Machine.execFmul x0 x1 x2 x3 x4 x5 x6 s
  | .fma x0 x1 x2 x3 x4 x5 x6 x7 => Sys2Proof.Machine.execFma x0 x1 x2 x3 x4 x5 x6 x7 s
  | .fms x0 x1 x2 x3 x4 x5 x6 => Sys2Proof.Machine.execFms x0 x1 x2 x3 x4 x5 x6 s
  | .fnma x0 x1 x2 x3 x4 x5 x6 => Sys2Proof.Machine.execFnma x0 x1 x2 x3 x4 x5 x6 s
  | .fmin x0 x1 x2 x3 x4 x5 x6 => Sys2Proof.Machine.execFmin x0 x1 x2 x3 x4 x5 x6 s
  | .fmax x0 x1 x2 x3 x4 x5 x6 => Sys2Proof.Machine.execFmax x0 x1 x2 x3 x4 x5 x6 s
  | .fabs x0 x1 x2 x3 x4 => Sys2Proof.Machine.execFabs x0 x1 x2 x3 x4 s
  | .fneg x0 x1 x2 x3 x4 => Sys2Proof.Machine.execFneg x0 x1 x2 x3 x4 s
  | .fclamp x0 x1 x2 x3 x4 x5 => Sys2Proof.Machine.execFclamp x0 x1 x2 x3 x4 x5 s
  | .fsel x0 x1 x2 x3 x4 x5 x6 => Sys2Proof.Machine.execFsel x0 x1 x2 x3 x4 x5 x6 s
  | .frsum x0 x1 x2 x3 x4 x5 => Sys2Proof.Machine.execFrsum x0 x1 x2 x3 x4 x5 s
  | .frmax x0 x1 x2 x3 x4 => Sys2Proof.Machine.execFrmax x0 x1 x2 x3 x4 s
  | .frmin x0 x1 x2 x3 x4 => Sys2Proof.Machine.execFrmin x0 x1 x2 x3 x4 s
  | .frsqs x0 x1 x2 x3 x4 x5 => Sys2Proof.Machine.execFrsqs x0 x1 x2 x3 x4 x5 s
  | .vperm x0 x1 x2 x3 => Sys2Proof.Machine.execVperm x0 x1 x2 x3 s
  | .vbcast x0 x1 x2 x3 => Sys2Proof.Machine.execVbcast x0 x1 x2 x3 s
  | .vslide x0 x1 x2 x3 x4 => Sys2Proof.Machine.execVslide x0 x1 x2 x3 x4 s
  | .exp2 x0 x1 x2 x3 x4 => Sys2Proof.Machine.execExp2 x0 x1 x2 x3 x4 s
  | .log2 x0 x1 x2 x3 x4 => Sys2Proof.Machine.execLog2 x0 x1 x2 x3 x4 s
  | .rcp x0 x1 x2 x3 x4 => Sys2Proof.Machine.execRcp x0 x1 x2 x3 x4 s
  | .rsqrt x0 x1 x2 x3 x4 => Sys2Proof.Machine.execRsqrt x0 x1 x2 x3 x4 s
  | .tanh x0 x1 x2 x3 x4 => Sys2Proof.Machine.execTanh x0 x1 x2 x3 x4 s
  | .fsqrt x0 x1 x2 x3 x4 x5 => Sys2Proof.Machine.execFsqrt x0 x1 x2 x3 x4 x5 s
  | .fscale x0 x1 x2 x3 x4 x5 x6 => Sys2Proof.Machine.execFscale x0 x1 x2 x3 x4 x5 x6 s
  | .frint x0 x1 x2 x3 x4 x5 => Sys2Proof.Machine.execFrint x0 x1 x2 x3 x4 x5 s
  | .fcpys x0 x1 x2 x3 x4 x5 => Sys2Proof.Machine.execFcpys x0 x1 x2 x3 x4 x5 s
  | .cvt x0 x1 x2 x3 x4 x5 x6 x7 => Sys2Proof.Machine.execCvt x0 x1 x2 x3 x4 x5 x6 x7 s
  | .cvti x0 x1 x2 x3 x4 x5 x6 => Sys2Proof.Machine.execCvti x0 x1 x2 x3 x4 x5 x6 s
  | .qnt x0 x1 x2 x3 x4 x5 x6 x7 x8 => Sys2Proof.Machine.execQnt x0 x1 x2 x3 x4 x5 x6 x7 x8 s
  | .dqnt x0 x1 x2 x3 x4 x5 x6 x7 => Sys2Proof.Machine.execDqnt x0 x1 x2 x3 x4 x5 x6 x7 s
  | .qntr x0 x1 x2 x3 x4 x5 x6 x7 x8 => Sys2Proof.Machine.execQntr x0 x1 x2 x3 x4 x5 x6 x7 x8 s
  | .absmx x0 x1 x2 x3 x4 x5 => Sys2Proof.Machine.execAbsmx x0 x1 x2 x3 x4 x5 s
  | .pk4 x0 x1 x2 x3 x4 x5 => Sys2Proof.Machine.execPk4 x0 x1 x2 x3 x4 x5 s
  | .upk4 x0 x1 x2 x3 x4 => Sys2Proof.Machine.execUpk4 x0 x1 x2 x3 x4 s
  | .wclm x0 x1 => Sys2Proof.Machine.execWclm x0 x1 s
  | .wrel x0 x1 => Sys2Proof.Machine.execWrel x0 x1 s
  | .wstatMn x0 x1 x2 => Sys2Proof.Machine.execWstatMn x0 x1 x2 s
  | .wstatSeq x0 x1 x2 x3 => Sys2Proof.Machine.execWstatSeq x0 x1 x2 x3 s
  | .pxd x0 x1 x2 x3 => Sys2Proof.Machine.execPxd x0 x1 x2 x3 s
  | .mma x0 x1 x2 x3 x4 x5 x6 x7 x8 => Sys2Proof.Machine.execMma x0 x1 x2 x3 x4 x5 x6 x7 x8 s
  | .ldrs x0 x1 x2 => Sys2Proof.Machine.execLdrs x0 x1 x2 s
  | .ldcs x0 x1 x2 => Sys2Proof.Machine.execLdcs x0 x1 x2 s
  | .prom x0 x1 => Sys2Proof.Machine.execProm x0 x1 s
  | .adrn x0 x1 x2 x3 x4 x5 x6 => Sys2Proof.Machine.execAdrn x0 x1 x2 x3 x4 x5 x6 s
  | .azer x0 x1 => Sys2Proof.Machine.execAzer x0 x1 s
  | .arel x0 x1 => Sys2Proof.Machine.execArel x0 x1 s
  | .ptld x0 x1 x2 x3 => Sys2Proof.Machine.execPtld x0 x1 x2 x3 s
  | .ld x0 x1 x2 x3 x4 x5 => Sys2Proof.Machine.execLd x0 x1 x2 x3 x4 x5 s
  | .st x0 x1 x2 x3 x4 x5 => Sys2Proof.Machine.execSt x0 x1 x2 x3 x4 x5 s
  | .pref x0 x1 => Sys2Proof.Machine.execPref x0 x1 s
  | .ldl x0 x1 x2 x3 x4 x5 => Sys2Proof.Machine.execLdl x0 x1 x2 x3 x4 x5 s
  | .ldv x0 x1 x2 x3 x4 x5 x6 x7 => Sys2Proof.Machine.execLdv x0 x1 x2 x3 x4 x5 x6 x7 s
  | .stv x0 x1 x2 x3 x4 x5 x6 x7 => Sys2Proof.Machine.execStv x0 x1 x2 x3 x4 x5 x6 x7 s
  | .lde x0 x1 x2 x3 x4 x5 => Sys2Proof.Machine.execLde x0 x1 x2 x3 x4 x5 s
  | .vrd x0 x1 x2 x3 => Sys2Proof.Machine.execVrd x0 x1 x2 x3 s
  | .recl x0 x1 x2 => Sys2Proof.Machine.execRecl x0 x1 x2 s
  | .gath x0 x1 x2 x3 x4 x5 => Sys2Proof.Machine.execGath x0 x1 x2 x3 x4 x5 s
  | .scat x0 x1 x2 x3 x4 x5 => Sys2Proof.Machine.execScat x0 x1 x2 x3 x4 x5 s
  | .cpyl x0 x1 x2 x3 x4 => Sys2Proof.Machine.execCpyl x0 x1 x2 x3 x4 s
  | .zrol x0 x1 x2 => Sys2Proof.Machine.execZrol x0 x1 x2 s
  | .otjn x0 x1 x2 x3 x4 x5 x6 => Sys2Proof.Machine.execOtjn x0 x1 x2 x3 x4 x5 x6 s
  | .aadd x0 x1 x2 x3 x4 x5 x6 x7 => Sys2Proof.Machine.execAadd x0 x1 x2 x3 x4 x5 x6 x7 s
  | .aand x0 x1 x2 x3 x4 x5 x6 x7 => Sys2Proof.Machine.execAand x0 x1 x2 x3 x4 x5 x6 x7 s
  | .aor x0 x1 x2 x3 x4 x5 x6 x7 => Sys2Proof.Machine.execAor x0 x1 x2 x3 x4 x5 x6 x7 s
  | .axor x0 x1 x2 x3 x4 x5 x6 x7 => Sys2Proof.Machine.execAxor x0 x1 x2 x3 x4 x5 x6 x7 s
  | .aswp x0 x1 x2 x3 x4 x5 x6 x7 => Sys2Proof.Machine.execAswp x0 x1 x2 x3 x4 x5 x6 x7 s
  | .acas x0 x1 x2 x3 x4 x5 x6 x7 => Sys2Proof.Machine.execAcas x0 x1 x2 x3 x4 x5 x6 x7 s
  | .ammax x0 x1 x2 x3 x4 x5 x6 x7 => Sys2Proof.Machine.execAmmax x0 x1 x2 x3 x4 x5 x6 x7 s
  | .afadd x0 x1 x2 x3 x4 x5 x6 => Sys2Proof.Machine.execAfadd x0 x1 x2 x3 x4 x5 x6 s
  | .mcas x0 x1 x2 x3 x4 x5 x6 x7 => Sys2Proof.Machine.execMcas x0 x1 x2 x3 x4 x5 x6 x7 s
  | .enq x0 x1 x2 x3 x4 x5 x6 => Sys2Proof.Machine.execEnq x0 x1 x2 x3 x4 x5 x6 s
  | .chase x0 x1 x2 x3 x4 x5 x6 => Sys2Proof.Machine.execChase x0 x1 x2 x3 x4 x5 x6 s
  | .abar x0 x1 x2 x3 x4 x5 x6 x7 => Sys2Proof.Machine.execAbar x0 x1 x2 x3 x4 x5 x6 x7 s
  | .patw x0 x1 => Sys2Proof.Machine.execPatw x0 x1 s
  | .patr x0 x1 => Sys2Proof.Machine.execPatr x0 x1 s
  | .layw x0 x1 => Sys2Proof.Machine.execLayw x0 x1 s
  | .sgo x0 x1 x2 x3 x4 x5 x6 => Sys2Proof.Machine.execSgo x0 x1 x2 x3 x4 x5 x6 s
  | .scnl x0 => Sys2Proof.Machine.execScnl x0 s
  | .spos x0 x1 x2 => Sys2Proof.Machine.execSpos x0 x1 x2 s
  | .coll x0 x1 => Sys2Proof.Machine.execColl x0 x1 s
  | .rcpy x0 x1 x2 x3 x4 x5 => Sys2Proof.Machine.execRcpy x0 x1 x2 x3 x4 x5 s
  | .gopen x0 => Sys2Proof.Machine.execGopen x0 s
  | .gst x0 x1 x2 x3 x4 x5 x6 x7 => Sys2Proof.Machine.execGst x0 x1 x2 x3 x4 x5 x6 x7 s
  | .gcmt x0 x1 => Sys2Proof.Machine.execGcmt x0 x1 s
  | .gabrt x0 => Sys2Proof.Machine.execGabrt x0 s
  | .gstat x0 x1 => Sys2Proof.Machine.execGstat x0 x1 s
  | .lnch x0 x1 x2 x3 x4 => Sys2Proof.Machine.execLnch x0 x1 x2 x3 x4 s
  | .sig x0 => Sys2Proof.Machine.execSig x0 s
  | .gbar x0 => Sys2Proof.Machine.execGbar x0 s
  | .drain x0 => Sys2Proof.Machine.execDrain x0 s
  | .done x0 => Sys2Proof.Machine.execDone x0 s
  | .cfgld x0 x1 x2 => Sys2Proof.Machine.execCfgld x0 x1 x2 s
  | .bswap x0 x1 => Sys2Proof.Machine.execBswap x0 x1 s
  | .fold x0 => Sys2Proof.Machine.execFold x0 s
  | .rqsc x0 x1 x2 => Sys2Proof.Machine.execRqsc x0 x1 x2 s
  | .asids x0 => Sys2Proof.Machine.execAsids x0 s
  | .xinv x0 x1 x2 => Sys2Proof.Machine.execXinv x0 x1 x2 s
  | .l2md x0 x1 => Sys2Proof.Machine.execL2md x0 x1 s
  | .scrb x0 x1 x2 => Sys2Proof.Machine.execScrb x0 x1 x2 s
  | .khnd x0 x1 => Sys2Proof.Machine.execKhnd x0 x1 s
  | .kdel x0 => Sys2Proof.Machine.execKdel x0 s
  | .mext x0 x1 => Sys2Proof.Machine.execMext x0 x1 s
  | .ksign x0 x1 x2 => Sys2Proof.Machine.execKsign x0 x1 x2 s
  | .tokenArrival x0 x1 => Sys2Proof.Machine.execTokenArrival x0 x1 s
  | .fifoTokenArrival x0 x1 => Sys2Proof.Machine.execFifoTokenArrival x0 x1 s
  | .replyArrival x0 => Sys2Proof.Machine.execReplyArrival x0 s
  | .conversionReturn x0 x1 => Sys2Proof.Machine.execConversionReturn x0 x1 s
  | .cnvReturn x0 => Sys2Proof.Machine.execCnvReturn x0 s
  | .drainDelivery x0 => Sys2Proof.Machine.execDrainDelivery x0 s
  | .timingTrap x0 => Sys2Proof.Machine.execTimingTrap x0 s
  | .bankSwapEffect x0 => Sys2Proof.Machine.execBankSwapEffect x0 s
  | .rqscStop x0 => Sys2Proof.Machine.execRqscStop x0 s
  | .drainHold x0 => Sys2Proof.Machine.execDrainHold x0 s
  | .beginDecode x0 => Sys2Proof.Machine.execBeginDecode x0 s
  | .decodeEnd x0 => Sys2Proof.Machine.execDecodeEnd x0 s
  | .ptldComplete x0 => Sys2Proof.Machine.execPtldComplete x0 s
  | .slotFill x0 => Sys2Proof.Machine.execSlotFill x0 s
  | .pendingFillStart x0 x1 => Sys2Proof.Machine.execPendingFillStart x0 x1 s
  | .fillComplete x0 x1 => Sys2Proof.Machine.execFillComplete x0 x1 s
  | .homeAccess x0 => Sys2Proof.Machine.execHomeAccess x0 s
  | .chainApply x0 => Sys2Proof.Machine.execChainApply x0 s
  | .waitingLoadAnswer x0 => Sys2Proof.Machine.execWaitingLoadAnswer x0 s
  | .barrierWaitAnswer x0 => Sys2Proof.Machine.execBarrierWaitAnswer x0 s
  | .translationWalk x0 x1 x2 => Sys2Proof.Machine.execTranslationWalk x0 x1 x2 s
  | .parkedStoreRetry x0 => Sys2Proof.Machine.execParkedStoreRetry x0 s
  | .parkedStoreAgeExpiry x0 => Sys2Proof.Machine.execParkedStoreAgeExpiry x0 s
  | .correctableError => Sys2Proof.Machine.execCorrectableError s
  | .uncorrectableError x0 => Sys2Proof.Machine.execUncorrectableError x0 s
  | .bindingStart x0 => Sys2Proof.Machine.execBindingStart x0 s
  | .bindingComplete x0 => Sys2Proof.Machine.execBindingComplete x0 s
  | .streamRoundHoldRelease x0 => Sys2Proof.Machine.execStreamRoundHoldRelease x0 s
  | .collectiveComplete x0 => Sys2Proof.Machine.execCollectiveComplete x0 s
  | .groupStoreStaging x0 => Sys2Proof.Machine.execGroupStoreStaging x0 s
  | .gstAck x0 => Sys2Proof.Machine.execGstAck x0 s
  | .decisionRecordWrite x0 => Sys2Proof.Machine.execDecisionRecordWrite x0 s
  | .commitPacket x0 => Sys2Proof.Machine.execCommitPacket x0 s
  | .abortPacket x0 => Sys2Proof.Machine.execAbortPacket x0 s
  | .groupLifetimeExpiry x0 x1 => Sys2Proof.Machine.execGroupLifetimeExpiry x0 x1 s
  | .holdTimeoutResolve x0 x1 => Sys2Proof.Machine.execHoldTimeoutResolve x0 x1 s
  | .groupResolveQuery x0 x1 => Sys2Proof.Machine.execGroupResolveQuery x0 x1 s
  | .chipLost x0 => Sys2Proof.Machine.execChipLost x0 s
  | .eventFlagSet x0 => Sys2Proof.Machine.execEventFlagSet x0 s
  | .gangBarrierRelease x0 x1 => Sys2Proof.Machine.execGangBarrierRelease x0 x1 s
  | .sequencerCodeLoad x0 => Sys2Proof.Machine.execSequencerCodeLoad x0 s
  | .faultDelivery x0 => Sys2Proof.Machine.execFaultDelivery x0 s
  | .contextFault x0 => Sys2Proof.Machine.execContextFault x0 s
  | .tailUpdate x0 => Sys2Proof.Machine.execTailUpdate x0 s
  | .queueRecordRead x0 => Sys2Proof.Machine.execQueueRecordRead x0 s
  | .dependenceCheck x0 => Sys2Proof.Machine.execDependenceCheck x0 s
  | .taskSelect x0 => Sys2Proof.Machine.execTaskSelect x0 s
  | .levelStarved x0 x1 => Sys2Proof.Machine.execLevelStarved x0 x1 s
  | .sliceExpiry x0 => Sys2Proof.Machine.execSliceExpiry x0 s
  | .placement x0 => Sys2Proof.Machine.execPlacement x0 s
  | .stageStart x0 x1 => Sys2Proof.Machine.execStageStart x0 x1 s
  | .fullPreemption x0 => Sys2Proof.Machine.execFullPreemption x0 s
  | .saveResume x0 => Sys2Proof.Machine.execSaveResume x0 s
  | .restore x0 => Sys2Proof.Machine.execRestore x0 s
  | .stageRestart x0 x1 => Sys2Proof.Machine.execStageRestart x0 x1 s
  | .failedCoreRecovery x0 x1 => Sys2Proof.Machine.execFailedCoreRecovery x0 x1 s
  | .taskCompletion x0 => Sys2Proof.Machine.execTaskCompletion x0 s
  | .taskEnd x0 => Sys2Proof.Machine.execTaskEnd x0 s
  | .memberRequest x0 x1 x2 x3 x4 x5 => Sys2Proof.Machine.execMemberRequest x0 x1 x2 x3 x4 x5 s
  | .gangStartTime x0 => Sys2Proof.Machine.execGangStartTime x0 s
  | .gangSkewExpiry x0 => Sys2Proof.Machine.execGangSkewExpiry x0 s
  | .memberRequestTimeout x0 => Sys2Proof.Machine.execMemberRequestTimeout x0 s
  | .gangRetry x0 => Sys2Proof.Machine.execGangRetry x0 s
  | .remoteLaunch x0 x1 x2 x3 x4 => Sys2Proof.Machine.execRemoteLaunch x0 x1 x2 x3 x4 s
  | .memberUnreachable x0 x1 => Sys2Proof.Machine.execMemberUnreachable x0 x1 s
  | .gangChannelReplay x0 => Sys2Proof.Machine.execGangChannelReplay x0 s
  | .settleTimeout x0 => Sys2Proof.Machine.execSettleTimeout x0 s
  | .brQtailWrite x0 x1 => Sys2Proof.Machine.execBrQtailWrite x0 x1 s
  | .queueEnable x0 x1 => Sys2Proof.Machine.execQueueEnable x0 x1 s
  | .brL2reqWrite x0 => Sys2Proof.Machine.execBrL2reqWrite x0 s
  | .hpDtailWrite x0 x1 x2 => Sys2Proof.Machine.execHpDtailWrite x0 x1 x2 s
  | .dmaBlock x0 x1 x2 x3 x4 x5 => Sys2Proof.Machine.execDmaBlock x0 x1 x2 x3 x4 x5 s
  | .dmaRingDisable x0 x1 => Sys2Proof.Machine.execDmaRingDisable x0 x1 s
  | .functionLevelReset x0 => Sys2Proof.Machine.execFunctionLevelReset x0 s
  | .vfEnableClear => Sys2Proof.Machine.execVfEnableClear s
  | .quiesceEnd x0 => Sys2Proof.Machine.execQuiesceEnd x0 s
  | .hostReadTimeout x0 x1 => Sys2Proof.Machine.execHostReadTimeout x0 x1 s
  | .unexpectedCompletion x0 => Sys2Proof.Machine.execUnexpectedCompletion x0 s
  | .mailboxGo x0 => Sys2Proof.Machine.execMailboxGo x0 s
  | .attestation x0 => Sys2Proof.Machine.execAttestation x0 s
  | .sealInstall x0 => Sys2Proof.Machine.execSealInstall x0 s
  | .sessionOpen x0 => Sys2Proof.Machine.execSessionOpen x0 s
  | .usageReport x0 => Sys2Proof.Machine.execUsageReport x0 s
  | .teardown x0 => Sys2Proof.Machine.execTeardown x0 s
  | .partitionKeys x0 => Sys2Proof.Machine.execPartitionKeys x0 s
  | .certificateChain x0 => Sys2Proof.Machine.execCertificateChain x0 s
  | .handleDelete x0 => Sys2Proof.Machine.execHandleDelete x0 s
  | .measureExtend x0 => Sys2Proof.Machine.execMeasureExtend x0 s
  | .recoveryImageWrite => Sys2Proof.Machine.execRecoveryImageWrite s
  | .cobaltError => Sys2Proof.Machine.execCobaltError s
  | .brErrpopWrite x0 => Sys2Proof.Machine.execBrErrpopWrite x0 s
  | .saveEnd x0 => Sys2Proof.Machine.execSaveEnd x0 s
  | .saveCancel x0 => Sys2Proof.Machine.execSaveCancel x0 s
  | .portRotateRequest x0 => Sys2Proof.Machine.execPortRotateRequest x0 s
  | .portEnable x0 x1 x2 => Sys2Proof.Machine.execPortEnable x0 x1 x2 s
  | .d3hotWrite x0 => Sys2Proof.Machine.execD3hotWrite x0 s
  | .cbPwrlimWrite x0 => Sys2Proof.Machine.execCbPwrlimWrite x0 s
  | .registerWrite x0 x1 => Sys2Proof.Machine.execRegisterWrite x0 x1 s
  | .flitGroupReceive x0 x1 x2 x3 => Sys2Proof.Machine.execFlitGroupReceive x0 x1 x2 x3 s
  | .nakResend x0 x1 => Sys2Proof.Machine.execNakResend x0 x1 s
  | .ackReceive x0 x1 => Sys2Proof.Machine.execAckReceive x0 x1 s
  | .keyUpdate x0 => Sys2Proof.Machine.execKeyUpdate x0 s
  | .epochGroupLimit x0 => Sys2Proof.Machine.execEpochGroupLimit x0 s
  | .portDown x0 => Sys2Proof.Machine.execPortDown x0 s
  | .portUp x0 => Sys2Proof.Machine.execPortUp x0 s
  | .packetReceive x0 => Sys2Proof.Machine.execPacketReceive x0 s
  | .packetWaitExpiry x0 x1 => Sys2Proof.Machine.execPacketWaitExpiry x0 x1 s
  | .requestTimeout x0 => Sys2Proof.Machine.execRequestTimeout x0 s
  | .spdmRetry x0 x1 x2 => Sys2Proof.Machine.execSpdmRetry x0 x1 x2 s
  | .podTimeSync x0 => Sys2Proof.Machine.execPodTimeSync x0 s
  | .powerOnReset => Sys2Proof.Machine.execPowerOnReset s
  | .perst => Sys2Proof.Machine.execPerst s
  | .sidebandReset => Sys2Proof.Machine.execSidebandReset s
  | .watchdogReset => Sys2Proof.Machine.execWatchdogReset s
  | .thermalTrip => Sys2Proof.Machine.execThermalTrip s
  | .thermalThrottle x0 => Sys2Proof.Machine.execThermalThrottle x0 s
  | .powerDutyAdjust x0 x1 => Sys2Proof.Machine.execPowerDutyAdjust x0 x1 s
  | .romBoot => Sys2Proof.Machine.execRomBoot s
  | .firmwareBoot => Sys2Proof.Machine.execFirmwareBoot s
  | .illegalWordDecode x0 => Sys2Proof.Machine.execIllegalWordDecode x0 s
  | .groupDestinationAck x0 x1 => Sys2Proof.Machine.execGroupDestinationAck x0 x1 s
  | .hostReadCompletion x0 x1 => Sys2Proof.Machine.execHostReadCompletion x0 x1 s
  | .thermalTripCooled => Sys2Proof.Machine.execThermalTripCooled s
  | .decodeSpanDelivered x0 x1 => Sys2Proof.Machine.execDecodeSpanDelivered x0 x1 s
  | .recoverySkewExpiry x0 x1 => Sys2Proof.Machine.execRecoverySkewExpiry x0 x1 s

end Sys2Proof.Machine
end

