-- ==== Sys2Proof/Machine/Cycle.lean ====
section
/-! DEFINITION. One cycle of the clock: the slot of every island, and what the environment's turns run (R28 to R45, R394). -/

namespace Sys2Proof.Machine

/-- Executes a 32-bit word for the agent whose turn it is; a word that decodes to no instruction is illegal (R418). `mn` says that a
matrix node fetched it (R202). -/
def runWord (mn : Bool) (w : Word) (s : State) : Host.Outcome State Fault Refusal :=
  match decode mn w with
  | .ok i => exec i s
  | .bad _ => execIllegalWordDecode w s

/-- R233: whether a store of an issuer has found its replay queue full, and the queue still is. -/
def State.stuckOn (s : State) (a : Actor) : Bool :=
  decide (16 ≤ (s.replayOf a).length) && s.mem.flight.any fun r => r.stuck && r.iss.is a

/-- R117, R150, R154, R421: runs the word at a sequencer's pc. A pc that names no word of the instruction memory, reached by running past
its end or put there by a bad SQ_TVEC or SQ_TPC0, raises an instruction-fetch fault (log 124). It stalls while a store of it finds its replay
queue full (R233). -/
def runFetched (n : Nat) (s : State) : Host.Outcome State Fault Refusal :=
  let pc := (s.seq n).pc
  if s.stuckOn (.seq n) then .next s
  else if pc.setWidth 2 != (0 : BitVec 2) || decide (0xFFFC < pc.toNat) then .next (s.seqFault n 0x01 pc)
  else runWord false (look 0 (s.seq n).imem (pc.toNat / 4)) s

/-- R28: the VE and the MN of a core fire the row that their island's counter selects. -/
def State.fireCore (s : State) (c : Nat) : State :=
  let s1 := { s with actor := .ve c }
  let s2 := settleTo s1 (runWord false (s.veRow c).word s1)
  let s3 := { s2 with actor := .mn c }
  settleTo s3 (runWord true (s.mnRow c).word s3)

/-- R233: the stalls of VEs of an island whose replay queue is too full for a store. -/
def State.stuckStalls (s : State) (k : Nat) : List (BitVec 2 × Actor) :=
  ((islandCores k (s.island k)).filter fun c => s.stuckOn (.ve c)).map fun c => (0, .ve c)

/-- R28: the slot of an island: every VE and MN of it fires, in ascending core index, from the state at the start of the cycle. -/
def State.fireSlot (s : State) (k : Nat) : State :=
  (islandCores k (s.island k)).foldl (fun (t : State) c => t.fireCore c) { s with scratch := { stalls := s.stuckStalls k } }

/-- R30, R31: delivers the tokens of a slot at its end. -/
def State.deliverSends (s : State) : State :=
  s.scratch.sends.foldl (fun (t : State) x => settleTo t (execTokenArrival x.core x.port t)) s

/-- R423: the fault of a slot that the island raises: the first in the order of its units. -/
def firstFault (l : List (Nat × FaultRec)) : Option FaultRec :=
  (l.foldl (fun (m : Option (Nat × FaultRec)) x => match m with
    | some y => if x.1 < y.1 then some x else m
    | none => some x) none).map (·.2)

/-- R52 to R54: tokens steered in a frozen slot leave for the conversion element. -/
def State.applySteers (s : State) (k : Nat) (l : List (Nat × Nat × Token)) : State :=
  l.foldl (fun (t : State) x =>
    let t1 := t.setIsland k { t.island k with conv := (t.island k).conv ++ [x] }
    if x.2.1 = 17 then t1.setMn x.1 { t1.mn x.1 with act := none, actSteering := true }
    else
      let t2 := t1.take x.1 x.2.1
      t2.setVe x.1 { t2.ve x.1 with steering := (t2.ve x.1).steering ++ [x.2.1] }) s

/-- R75, R205: a claim that a pending fill keeps waiting was taken when it met that fill; a PTLD waits from its first frozen cycle on. -/
def State.applyWaits (s : State) (sc : Scratch) : State :=
  let s1 := sc.claims.foldl (fun (t : State) e =>
    t.setMn e.1 ((t.mn e.1).setSlot e.2.toNat { (t.mn e.1).slot e.2.toNat with claiming := true })) s
  sc.ptlds.foldl (fun (t : State) c => if (t.mn c).ptld = .none then t.setMn c { t.mn c with ptld := .waiting } else t) s1

/-- The stall source with the lowest code, and its unit. -/
def lowestStall (l : List (BitVec 2 × Actor)) : Option (BitVec 2 × Actor) :=
  l.foldl (fun (m : Option (BitVec 2 × Actor)) x => match m with
    | some y => if x.1.toNat < y.1.toNat then some x else m
    | none => some x) none

/-- R471: whether a core may wait for a gang channel of this chip: one into it is empty, or one out of it is full. -/
def State.waitsGang (s : State) (c : Nat) : Bool :=
  (List.range 4).any fun d =>
    ((s.chan (4 * c + d)).isSome && (s.fifo (4 * c + d)).isEmpty) ||
    match neighbour c d with
    | some n => (s.chan (4 * n + opposite d)).isSome && decide (32 ≤ (s.fifo (4 * n + opposite d)).length)
    | none => false

/-- R337, R382: whether a core may wait for a cross-chip channel that has not delivered a token: a port at the edge of its region that no
stream binding and no gang channel of this chip feeds. -/
def State.waitsAcross (s : State) (i : Island) (c : Nat) : Bool :=
  (List.range 4).any fun d =>
    (s.fifo (4 * c + d)).isEmpty && !i.heard.contains (4 * c + d) && (s.chan (4 * c + d)).isNone &&
    (match neighbour c d with
    | some n => s.regionOf n != s.regionOf c
    | none => true) &&
    !(s.streams.ports.any fun e => decide (e.1 < 10000) && portCore e.1 == (c, d) && !e.2.queue.isEmpty)

/-- R337, R471: whether a freeze does not count toward the budget: every stall of it is a wait for such a channel. -/
def State.excused (s : State) (i : Island) (l : List (BitVec 2 × Actor)) : Bool :=
  (i.waived || i.early) && l.all fun e => e.1 == 1 && match e.2 with
    | .ve c => (i.waived && s.waitsGang c) || (i.early && s.waitsAcross i c)
    | .mn c => (i.waived && s.waitsGang c) || (i.early && s.waitsAcross i c)
    | .seq _ => false

/-- R37, R41: a frozen slot. Its length counts the cycle; an island that had spent its budget already traps. -/
def State.freezeSlot (s : State) (k : Nat) (sc : Scratch) : State :=
  match lowestStall sc.stalls with
  | none => s
  | some (src, a) =>
    let i := s.island k
    if i.frozen ∧ descBudget i.desc ≤ i.frzLen.toNat then s.takeTimingTrap k a
    else
      let len := if s.excused i sc.stalls ∨ i.frzLen = 0xFFFFFFFF then i.frzLen else i.frzLen + 1
      let s1 := (s.setIsland k { i with frozen := true, frzLen := len, src := src }).applySteers k sc.steers |>.applyWaits sc
      let s2 := { s1 with scratch := { s1.scratch with tookX := [] } }
      if descBudget i.desc ≤ len.toNat then { s2 with scratch := { s2.scratch with spent := s2.scratch.spent ++ [(k, a)] } }
      else s2

/-- R211: an MMA keeps the array's occupancy mark through the slot after it. -/
def State.clearOccupied (s start : State) (k : Nat) : State :=
  (islandCores k (start.island k)).foldl (fun (t : State) c =>
    if (start.mn c).occupied then t.setMn c { t.mn c with occupied := false } else t) s

/-- R34: the counter moves on, and the freeze has ended. -/
def State.advanceCounter (s : State) (k : Nat) : State :=
  let i := s.island k
  let wraps := decide (descII i.desc ≤ i.cnt + 1)
  s.setIsland k { i with frozen := false, frzLen := 0, cnt := if wraps then 0 else i.cnt + 1,
                         iter := if wraps then i.iter + 1 else i.iter }

/-- R39: a freeze ends. -/
def State.thaw (s : State) (k : Nat) : State := s.setIsland k { s.island k with frozen := false, frzLen := 0 }

/-- R28 to R31, R37, R423: one slot of a running island: it fires whole, freezes, or raises a fault. -/
def State.slot (s : State) (k : Nat) : State :=
  let kept : Scratch := { spent := s.scratch.spent, drained := s.scratch.drained }
  let t := s.fireSlot k
  if !t.scratch.stalls.isEmpty then s.freezeSlot k t.scratch
  else
    let u := t.deliverSends
    match firstFault u.scratch.faults with
    | some f => s.thaw k |>.raise k f
    | none => ({ u with scratch := kept }.clearOccupied s k).advanceCounter k

/-- R224: completion entries at the head of a reply queue free once answered. -/
def State.freeCompletions (s : State) (c k : Nat) : State :=
  (List.range 8).foldl (fun (t : State) _ => match (t.ve c).replies with
    | e :: _ => if e.wantsX && e.fault.isNone then t else t.serveReply c k
    | [] => t) s

/-- R77, R214: the drain stage: its token is delivered, the one of this slot's ADRN moves up, and released slots return to the free list
once it is empty. -/
def State.moveDrain (s : State) (c k : Nat) : State :=
  let s0 := s.deliverDrain c k
  let s1 := match (s.mn c).drain with
    | some (_, row, iter) =>
      if (s0.mn c).drain.isNone then { s0 with scratch := { s0.scratch with drained := (c, row, iter) :: s0.scratch.drained } } else s0
    | none => s0
  let m := s1.mn c
  let m1 := if m.drain.isNone then { m with drain := m.drainIn, drainIn := none } else m
  let m2 := if m1.drain.isNone ∧ m1.drainIn.isNone then { m1 with free := m1.free ++ m1.returning, returning := [] } else m1
  s1.setMn c m2

/-- What ends a cycle for an island that is not held, frozen or not. A fault that one core's drain token or reply raises holds the island
from the next cycle, so every core's stage moves (R214). -/
def State.endSlot (s : State) (k : Nat) : State :=
  if (s.island k).hold.isSome then s
  else
    let s1 := (islandCores k (s.island k)).foldl (fun (t : State) c => (t.moveDrain c k).freeCompletions c k) s
    settleTo s1 (execDrainHold k s1)

/-- R37: the stall of the slot that is due, if it has one. -/
def State.slotStall (s : State) (k : Nat) : Option (BitVec 2 × Actor) := lowestStall (s.fireSlot k).scratch.stalls

/-- R41: of the islands that spent their budget in the cycle just past, those whose stall source the arrivals since have not cleared. -/
def State.stillSpent (s : State) : State :=
  { s with scratch := { s.scratch with spent := s.scratch.spent.filter fun e => (s.slotStall e.1).isSome } }

/-- R41, R410: a freeze that reached its budget in the cycle before a stop, with a stall source still present, traps. -/
def State.dueTrap (s : State) (k : Nat) : State :=
  let i := s.island k
  if i.frozen ∧ i.hold.isNone ∧ descBudget i.desc ≤ i.frzLen.toNat then
    match s.slotStall k with
    | some (_, a) => s.takeTimingTrap k a
    | none => s
  else s

/-- R295, R410: islands whose stopping cycle has come are held before they fire. -/
def State.stopDue (s : State) : State :=
  s.islands.foldl (fun (t : State) e => match e.2.stopAt with
    | some c => if c ≤ t.now then (settleTo (t.dueTrap e.1) (execRqscStop e.1 (t.dueTrap e.1))).settleAsk e.2.region else t
    | none => t) s

/-- R384, R394: a clock period passes in pod time: 5/6 ns, adjusted by the chip's rate. -/
def Mgmt.passPeriod (m : Mgmt) : Mgmt :=
  let part := m.podPart + (5 * (1000000 + m.ppm)).toNat
  { m with periods := m.periods + 1, podTime := m.podTime + BitVec.ofNat 64 (part / 6000000), podPart := part % 6000000 }

/-- R393, R394: whether the compute dies are gated in a clock period: in D3hot, and in the last 64 − DUTY of every 64 (log 19). -/
def Mgmt.skips (m : Mgmt) : Bool := m.d3hot || decide (m.duty.toNat ≤ m.periods % 64)

/-- One clock period: in one that is not skipped, every enabled island that is not held runs its slot, in ascending key (log 133). -/
def State.clockPeriod (s : State) : State :=
  let skip := s.mgmt.skips || s.mgmt.held
  let s1 := { s with mgmt := s.mgmt.passPeriod, scratch := {} }.linkPeriod
  if skip then s1
  else
    let s2 := s1.writeLeaving.stopDue
    let s3 := s2.islands.foldl (fun (t : State) e =>
      if (t.island e.1).enabled ∧ (t.island e.1).hold.isNone then (t.slot e.1).endSlot e.1 else t) s2
    { s3 with cycle := s3.cycle + 1 }

end Sys2Proof.Machine
end

