-- ==== Sys2Proof/Machine/Step.lean ====
section
/-! DEFINITION. One step of the machine: the next turn is taken, and a sequencer's turn runs the word at its pc. -/

namespace Sys2Proof.Machine

/-- The turn that comes when the environment has named none: the boot events, then the first sequencer that runs, else a cycle
(log 8). -/
def State.defaultTurn (s : State) : Turn :=
  if s.mgmt.stage = 0 then .event .romBoot
  else if s.mgmt.stage = 1 then .event .firmwareBoot
  else match s.seqs.find? (fun e => e.2.run == Run.running) with
    | some e => .seq e.1 false
    | none => .cycle

/-- A sequencer's turn: the word at its pc, if it runs. The sequencers of a compute die do nothing in D3hot (R393). -/
def State.seqTurn (s : State) (n : Nat) (post : Bool) : Host.Outcome State Fault Refusal :=
  let q := s.seq n
  if n ≤ 32 then
    if q.run = .running ∧ !(s.mgmt.d3hot && n != 32) then
      runFetched n { s with actor := .seq n, scratch := { post := post } }
    else .next s
  else .fault .noSuchAgent

/-- A turn. Only the trap of a spent freeze, and a token that reaches X, look back at the cycle before them. -/
def State.take1 (s : State) (t : Turn) : Host.Outcome State Fault Refusal :=
  match t with
  | .seq n post => s.seqTurn n post
  | .cycle => .next s.clockPeriod
  | .event i => exec i (match i with
    | .timingTrap _ => s.stillSpent
    | .replyArrival _ => s
    | .cnvReturn _ => s
    | _ => { s with scratch := {} })

/-- One step: takes the next turn. -/
def step (s : State) : Host.Outcome State Fault Refusal :=
  match s.turns with
  | t :: rest => { s with turns := rest }.take1 t
  | [] => s.take1 s.defaultTurn

/-- The bank row of core 0 that the next cycle fires. -/
def State.rowKey (s : State) : Nat := 32 * (if (s.core 0).bank then 1 else 0) + (s.island 0).cnt

/-- Makes an island of cores 0, 1, 12 and 13 the only one, running at row 0, and gives it the word, for the VE of core 0 or its MN. -/
def State.withRow (s : State) (mn : Bool) (w : Word) : State :=
  let s1 := { s with islands := [], turns := [.cycle], mgmt := { s.mgmt with duty := 64 } }
  let s2 := s1.setIsland 0 { desc := 0x4800_0000 + 0x7F000, region := 0, enabled := true }
  let c := s2.core 0
  if mn then s2.setMn 0 { c.mn with rows := put {} c.mn.rows s2.rowKey { word := w, tags := 0x7F } }
  else s2.setVe 0 { c.ve with rows := put {} c.ve.rows s2.rowKey { word := w, tags := 0x7F } }

/-- Sequencer `n` runs, with the word at its pc. -/
def State.withSeqWord (s : State) (n : Nat) (w : Word) : State :=
  let q := s.seq n
  { s.setSeq n { q with run := .running, imem := put 0 q.imem (q.pc.toNat / 4) w } with turns := [.seq n false] }

/-- The state with an instruction placed where the next step fetches (log 22): a word of a sequencer at the pc of sequencer 0, one of
Cobalt at its own pc, a fabric word in the row that core 0's island fires next. An event has no word: the turn is its own. -/
def State.withFetchWord (s : State) (_nbits w : Nat) : State :=
  let x := BitVec.ofNat 32 w
  match decode true x with
  | .ok i =>
    match formLegality i with
    | .cobalt => s.withSeqWord 32 x
    | .ve => s.withRow false x
    | .mn => s.withRow true x
    | .fabric => s.withRow false x
    | _ => s.withSeqWord 0 x
  | .bad _ => s.withSeqWord 0 x

end Sys2Proof.Machine
end

