-- ==== Sys2Proof/Safety.lean ====
section
/-! DEFINITION. What counts as a safe run, and the terms in which claims speak of a step: who runs a word, what a row finds, where an
access goes, and what a step leaves as it was. -/

namespace Sys2Proof.Machine

/-- The outcome is a next state. -/
def Goes (o : Host.Outcome State Fault Refusal) : Prop := ∃ t, o = .next t

/-- What every step keeps: memory is in canonical form. -/
structure State.Inv (s : State) : Prop where
  bytes : s.mem.wf

/-! ### Who runs a word -/

/-- It is the turn of sequencer `n`; the sequencer accepts the word, the guard `g` holds of its predicates, and its level may execute
the word. -/
structure SeqRuns (i : Instr) (g : BitVec 8 → Bool) (s : State) (n : Nat) : Prop where
  turn : s.actor = .seq n
  legal : i.wf (seqKind n) = true
  guard : g (s.seq n).preds = true
  level : formLegality i = .supervisor → (s.seq n).super = true

/-- It is the turn of the VE of core `c`, which accepts the word, and the guard holds. -/
structure VeRuns (i : Instr) (g : BitVec 8 → Bool) (s : State) (c : Nat) : Prop where
  turn : s.actor = .ve c
  legal : i.wf .ve = true
  guard : g (s.ve c).preds = true

/-- It is the turn of the MN of core `c`, which accepts the word, and the guard holds. -/
structure MnRuns (i : Instr) (g : BitVec 8 → Bool) (s : State) (c : Nat) : Prop where
  turn : s.actor = .mn c
  legal : i.wf .mn = true
  guard : g (s.mn c).preds = true

/-! ### What a row finds -/

/-- The reads of the row that is due at VE `c` give these operands: none waits or is empty, no route is full, none is a marker, and the
row accepts every tag. -/
structure Finds (s : State) (c : Nat) (reads : List Read) (r : BitVec 4) (ops : List Operand) : Prop where
  got : reads = ops.map .got
  room : s.routeStall c r = false
  data : ∀ o ∈ ops, o.real = true → isMarker o.tok = false
  tags : ∀ o ∈ ops, o.real = true → (s.veRow c).tags.getLsbD o.tok.tag.toNat = true

/-- A memory row at VE `c` need not wait: no acquire without its reply, room in the reply queue, and a release with every access
performed at its scope. -/
def State.veMayIssue (s : State) (c : Nat) (ord : BitVec 2) (scope : BitVec 3) : Prop := s.veMustWait c true ord scope = false

/-! ### Where an access of a sequencer goes -/

/-- The access `x` of sequencer `n` reaches the home of `t` on this chip at once: nothing of the sequencer is in its way, the address
resolves, and the home neither refuses nor holds it. -/
structure Open (s : State) (n : Nat) (x : Access) (t : Target) : Prop where
  free : s.copyHolds n = false
  resolved : s.resolve (s.seqIssuer n).cluster (s.seqIssuer n) x.ea x.align (opNeed x.op) = .ok t
  here : t.chip = s.chipId
  fits : x.hbmOnly = true → inHbm t.la = true
  apart : s.overlaps (s.seqIssuer n) (some t) x.ea (opWidth x.op) = false
  near : s.nearOverlap (s.seqIssuer n) t x.op = false
  unparked : s.pageParked (s.seqIssuer n) x.ea = false
  now : s.scratch.post = false
  accepted : s.homeRefusal t (s.seqIssuer n).part x.op = none
  unheld : look none s.mem.held (lineOf t.la) = none
  settled : s.mem.chain.contains (lineOf t.la) = false
  egress : s.egressWaits (s.seqIssuer n) t s.mem.flight = false
  arriving : s.arriveWaits t x.op = false

/-- The same for an instruction that begins with it. -/
structure Reaches (s : State) (n : Nat) (x : Access) (t : Target) : Prop extends Open s n x t where
  begins : (s.seq n).wait = none

/-- An access of Brass at `va` reaches the home of `t` on this chip at once: the address resolves, and the home neither refuses nor holds
it. -/
structure BrassOpen (s : State) (asid : BitVec 16) (part : BitVec 7) (va : W64) (op : MemOp) (t : Target) : Prop where
  resolved : s.resolve brassUnit (brassIssuer asid part) va (opWidth op) (opNeed op) = .ok t
  here : t.chip = s.chipId
  accepted : s.homeRefusal t part op = none
  unheld : look none s.mem.held (lineOf t.la) = none
  settled : s.mem.chain.contains (lineOf t.la) = false

/-- The same for a work that has asked nothing of another chip. -/
structure BrassReaches (s : State) (work : Nat) (asid : BitVec 16) (part : BitVec 7) (va : W64) (op : MemOp) (t : Target) : Prop
    extends BrassOpen s asid part va op t where
  asks : ∀ k ∈ s.brass.asks, k.work ≠ work
  form : va.extractLsb' 51 13 = 0

/-- What a read of Brass at `t` leaves. -/
def State.brassRead (s : State) (t : Target) (part : BitVec 7) : State := (s.noteVersions t).cache t part false

/-- R228: what a status form writes into its predicate. -/
def Seq.outcome (q : Seq) (t : Bool) (p : BitVec 3) (ok : Bool) : Seq := if t then { q with preds := predSet q.preds p ok } else q

/-- R226: an instruction with this ordering and scope need not wait for the sequencer's earlier accesses. -/
def State.mayRelease (s : State) (n : Nat) (ord : BitVec 2) (scope : BitVec 3) : Prop :=
  ord.getLsbD 1 = true → s.quiet (.seq n) scope.toNat = true

/-- R79: the versions of the lines of a target's frame are defined: they are those that the last access under VER = 1 left. -/
def State.versionsStand (s : State) (t : Target) : Prop :=
  inHbm t.la = true → t.ver = true → look false s.mem.unver (frameOf t.la) = false

/-- R79: the version that an access finds its line at: a free value where the line's version is undefined (log 32). -/
def State.foundVer (s : State) (t : Target) : BitVec 16 :=
  if inHbm t.la && t.ver && look false s.mem.unver (frameOf t.la) then Config.freeVersion (s.free + lineOf t.la % 512)
  else s.mem.ver (lineOf t.la)

/-! ### What a step leaves as it was -/

/-- `t` is `s` but for sequencer `n`, which is now `q`. -/
structure SeqBecomes (s t : State) (n : Nat) (q : Seq) : Prop where
  seq : t.seq n = q
  others : ∀ m, m ≠ n → t.seq m = s.seq m
  rest : t = { s with seqs := t.seqs }

/-- `t` is `s` but for the VE of core `c`, which is now `v`. -/
structure VeBecomes (s t : State) (c : Nat) (v : Ve) : Prop where
  core : t.core c = { s.core c with ve := v }
  others : ∀ e, e ≠ c → t.core e = s.core e
  rest : t = { s with cores := t.cores }

/-- `t` is `s` but for the MN of core `c`, which is now `m`. -/
structure MnBecomes (s t : State) (c : Nat) (m : Mn) : Prop where
  core : t.core c = { s.core c with mn := m }
  others : ∀ e, e ≠ c → t.core e = s.core e
  rest : t = { s with cores := t.cores }

/-- The bytes of `u` are those of `s`, but for the `w` bytes at `a`, which are the low bytes of `v`. -/
structure Writes (s u : State) (a w : Nat) (v : BitVec 512) : Prop where
  inside : ∀ x, a ≤ x → x < a + w → u.mem.byte x = byteAt v (x - a)
  outside : ∀ x, x < a ∨ a + w ≤ x → u.mem.byte x = s.mem.byte x

/-- Sequencer `n` has become `q` and has written the `w` low bytes of `v` at `t`; what waited on the line and the version of the line
apart, nothing else has changed (R81, R84). -/
structure Stores (s u : State) (n : Nat) (q : Seq) (t : Target) (w : Nat) (v : BitVec 512) : Prop where
  seq : u.seq n = q
  others : ∀ m, m ≠ n → u.seq m = s.seq m
  bytes : Writes s u t.la w v
  version : t.ver = true → inHbm t.la = true ∨ look false s.mem.bad (lineOf t.la) = false →
    u.mem.ver (lineOf t.la) = s.foundVer t + 1
  lines : ∀ l, l ≠ lineOf t.la → s.versionsStand t ∨ l / 512 ≠ frameOf t.la → u.mem.ver l = s.mem.ver l
  mem : u.mem = { s.mem with bytes := u.mem.bytes, vers := u.mem.vers, bad := u.mem.bad, unver := u.mem.unver, bells := u.mem.bells,
                             l2 := u.mem.l2, staged := u.mem.staged, due := u.mem.due, chain := u.mem.chain }
  rest : u = { s with mem := u.mem, seqs := u.seqs, free := u.free }

/-- Sequencer `n` has become `q` after an access at `t` that writes nothing: no byte has changed, and no version that stood; its frame's
undefined versions have become free values (R79), and when `cached` the line has been read into the cache where it may stand there (R89). -/
structure Reads (s u : State) (n : Nat) (q : Seq) (t : Target) (cached : Bool) : Prop where
  seq : u.seq n = q
  others : ∀ m, m ≠ n → u.seq m = s.seq m
  found : u.mem.ver (lineOf t.la) = s.foundVer t
  lines : ∀ l, s.versionsStand t ∨ l / 512 ≠ frameOf t.la → u.mem.ver l = s.mem.ver l
  l2 : u.mem.l2 = if cached then (s.cache t (s.seqIssuer n).part false).mem.l2 else s.mem.l2
  mem : u.mem = { s.mem with vers := u.mem.vers, unver := u.mem.unver, l2 := u.mem.l2 }
  rest : u = { s with mem := u.mem, seqs := u.seqs, free := u.free }

/-! ### What the tables of the spec give -/

/-- R160 Table 6: the forms of two operands that sequencers and VEs share, with what they make of a lane of each. -/
def laneForms (p : BitVec 3) (a b d r : BitVec 4) (u : Bool) (w : BitVec 2) :
    List (Instr × (BitVec (laneWidth w) → BitVec (laneWidth w) → BitVec (laneWidth w))) :=
  let n := laneWidth w
  let clamp (lo hi x : Int) : BitVec n := BitVec.ofInt n (max lo (min hi x))
  let both (f : Int → Int → Int) (x y : BitVec n) : BitVec n :=
    if u then clamp 0 (2 ^ n - 1) (f x.toNat y.toNat) else clamp (-(2 ^ (n - 1))) (2 ^ (n - 1) - 1) (f x.toInt y.toInt)
  [(.add a b d r p false w, fun x y => x + y),
   (.sub a b d r p w, fun x y => x - y),
   (.mul a b d r p w, fun x y => x * y),
   (.mulh a b d r p w, fun x y => BitVec.ofInt n (x.toInt * y.toInt / 2 ^ n)),
   (.mulhu a b d r p w, fun x y => BitVec.ofNat n (x.toNat * y.toNat / 2 ^ n)),
   (.and a b d r p false w, fun x y => x &&& y),
   (.or a b d r p false w, fun x y => x ||| y),
   (.xor a b d r p false w, fun x y => x ^^^ y),
   (.andn a b d r p w, fun x y => x &&& ~~~y),
   (.shl a b d r p w, fun x y => x <<< y.toNat),
   (.shr a b d r p w, fun x y => x >>> y.toNat),
   (.sra a b d r p w, fun x y => x.sshiftRight y.toNat),
   (.rot a b d r p w, fun x y => x.rotateLeft y.toNat),
   (.min a b d r p false w, fun x y => if x.toInt ≤ y.toInt then x else y),
   (.max a b d r p false w, fun x y => if x.toInt ≤ y.toInt then y else x),
   (.minu a b d r p false w, fun x y => if x.toNat ≤ y.toNat then x else y),
   (.maxu a b d r p false w, fun x y => if x.toNat ≤ y.toNat then y else x),
   (.adds a b d r p u w, both (· + ·)),
   (.subs a b d r p u w, both (· - ·))]

/-- R160 Table 6: the forms of one operand. -/
def laneForms1 (p : BitVec 3) (a d r : BitVec 4) (w : BitVec 2) : List (Instr × (BitVec (laneWidth w) → BitVec (laneWidth w))) :=
  let n := laneWidth w
  [(.abs a d r p w, fun x => if x.toInt < 0 then -x else x),
   (.neg a d r p w, fun x => -x),
   (.clz a d r p w, fun x => BitVec.ofNat n (if x = 0 then n else n - 1 - x.toNat.log2)),
   (.popc a d r p w, fun x => BitVec.ofNat n ((List.range n).filter x.getLsbD).length)]

/-- R161: the immediate forms: what they make of a 64-bit register and of a 32-bit lane. -/
def immediateForms (a d : BitVec 4) (i : BitVec 16) : List (Instr × (W64 → W64) × (Word → Word)) :=
  [(.addi a d i, fun x => x + i.signExtend 64, fun x => x + i.signExtend 32),
   (.andi a d i, fun x => x &&& i.signExtend 64, fun x => x &&& i.signExtend 32),
   (.ori a d i, fun x => x ||| i.setWidth 64, fun x => x ||| i.setWidth 32),
   (.movhi a d i, fun x => (x <<< 16) ||| i.setWidth 64, fun x => (x <<< 16) ||| i.setWidth 32)]

/-- R163: the condition that CMP names. -/
def laneCondition {w : Nat} (c : BitVec 3) (x y : BitVec w) : Prop :=
  match c.toNat with
  | 0 => x = y
  | 1 => x ≠ y
  | 2 => x.toInt < y.toInt
  | 3 => y.toInt ≤ x.toInt
  | 4 => x.toNat < y.toNat
  | 5 => y.toNat ≤ x.toNat
  | 6 => x.toInt ≤ y.toInt
  | _ => y.toInt < x.toInt

/-- R164: the function that PLOG names. -/
def predicateFn (f : BitVec 3) (x y : Bool) : Bool :=
  [x && y, x || y, xor x y, x && !y, x || !y, !(x && y), !(x || y), !(xor x y)][f.toNat]?.getD false

/-- R168, R170: the floating-point forms of two operands, with what they make of the codes of a lane of each: exact arithmetic on the
values, rounded once. -/
def floatForms2 (p : BitVec 3) (a b d r : BitVec 4) (f : Bool) (u : BitVec 2) (c : BitVec 2) : List (Instr × (Nat → Nat → Nat)) :=
  let fm := floatFmt f
  let rnd := roundIeee fm (rmOf u)
  [(.fadd a b d r p false f u, fun x y => rnd ((valOf fm x).add (rmOf u) (valOf fm y))),
   (.fsub a b d r p f u, fun x y => rnd ((valOf fm x).add (rmOf u) (valOf fm y).neg)),
   (.fmul a b d r p f u, fun x y => rnd ((valOf fm x).mul (valOf fm y))),
   (.fscale a b d r p f u, scaleCode fm (rmOf u)),
   (.fmin a b d r p false f, minMaxCode fm false),
   (.fmax a b d r p false f, minMaxCode fm true),
   (.fclamp a b d r p f, clampCode fm),
   (.fcpys a b d r p f, cpysCode fm),
   (.fsel a b d r p c f, selCode fm c)]

/-- R169: the forms of three operands: x, y and the addend c. -/
def floatForms3 (p : BitVec 3) (a b d r : BitVec 4) (f : Bool) (u : BitVec 2) : List (Instr × (Nat → Nat → Nat → Nat)) :=
  let fm := floatFmt f
  let rnd := roundIeee fm (rmOf u)
  [(.fma a b d r p false f u, fun x y c => rnd (((valOf fm x).mul (valOf fm y)).add (rmOf u) (valOf fm c))),
   (.fms a b d r p f u, fun x y c => rnd (((valOf fm x).mul (valOf fm y)).add (rmOf u) (valOf fm c).neg)),
   (.fnma a b d r p f u, fun x y c => rnd (((valOf fm x).mul (valOf fm y)).neg.add (rmOf u) (valOf fm c)))]

/-- R168, R172: the forms of one operand. -/
def floatForms1 (p : BitVec 3) (a d r : BitVec 4) (f : Bool) (u : BitVec 2) : List (Instr × (Nat → Nat)) :=
  let fm := floatFmt f
  [(.fabs a d r p f, absCode fm), (.fneg a d r p f, negCode fm), (.exp2 a d r p f, exp2Code fm), (.log2 a d r p f, log2Code fm),
   (.rcp a d r p f, rcpCode fm), (.rsqrt a d r p f, rsqrtCode fm), (.tanh a d r p f, tanhCode fm),
   (.fsqrt a d r p f u, sqrtCode fm (rmOf u)), (.frint a d r p f u, rintCode fm (rmOf u))]

/-- R171: the tree reductions, over the lanes widened to FP32. -/
def treeForms (p : BitVec 3) (a d r : BitVec 4) (f : Bool) (u : BitVec 2) : List (Instr × RMode × (List Nat → Nat)) :=
  let rm := rmOf u
  let top (op : Nat → Nat → Nat) (l : List Nat) : Nat := treeTop op (if f then 5 else 4) l
  [(.frsum a d r p f u, rm, top (addCode .fp32 rm)),
   (.frsqs a d r p f u, rm, fun l => top (addCode .fp32 rm) (l.map fun c => mulCode .fp32 rm c c)),
   (.frmax a d r p f, .rne, top (minMaxCode .fp32 true)),
   (.frmin a d r p f, .rne, top (minMaxCode .fp32 false))]

/-- R249 Table 3: the atomics that always write: operation, width, and the new value from the old one and the operand. -/
def atomicForms (a b d : BitVec 4) (o : BitVec 2) (sc w : BitVec 3) (t : Bool) (p : BitVec 3) :
    List (Instr × Atom × Nat × (W64 → W64 → W64)) :=
  let k := 2 ^ w.toNat
  [(.aadd a b d o sc w t p, .add, k, fun x v => x + v),
   (.aand a b d o sc w t p, .and, k, fun x v => x &&& v),
   (.aor a b d o sc w t p, .or, k, fun x v => x ||| v),
   (.axor a b d o sc w t p, .xor, k, fun x v => x ^^^ v),
   (.aswp a b d o sc w t p, .swap, k, fun _ v => v),
   (.afadd a b d o sc t p, .fadd, 4, fun x v =>
     BitVec.ofNat 64 (roundIeee .fp32 .rne ((valOf .fp32 (x.toNat % 2 ^ 32)).add .rne (valOf .fp32 (v.toNat % 2 ^ 32)))))]

/-- R221 to R256: the memory rows of a VE: what they read, ordering and scope, whether a reply returns, and their accesses: address,
operation and place in the reply. -/
def memoryRows (s : State) (c : Nat) (a b d : BitVec 4) (o : BitVec 2) (sc w p x : BitVec 3) (f : BitVec 8) (t : Bool) :
    List (Instr × List Read × BitVec 2 × BitVec 3 × Bool × (List Operand → List (W64 × MemOp × Nat))) :=
  let k := 2 ^ w.toNat
  let ea (ops : List Operand) : W64 := lane (opnd ops 0).data 64 0
  let far (ops : List Operand) : W64 := ea ops + BitVec.ofNat 64 (f.toNat * k)
  let low (ops : List Operand) (j : Nat) : BitVec 16 := lane (opnd ops j).data 16 0
  let elems (ops : List Operand) : List (Nat × W64) :=
    ((List.range 8).map fun i => (i, lane (opnd ops 0).data 64 i + lane (opnd ops 1).data 64 i)).filter fun e => e.2 != 0
  let one (op : List Operand → MemOp) (ops : List Operand) : List (W64 × MemOp × Nat) := [(ea ops, op ops, 0)]
  let two := [s.readSel c a, s.readSel c b]
  let atom (op : Atom) (n : Nat) := one fun ops => .atom op n (lane (opnd ops 1).data 64 0) 0
  [(.ld b d o sc w f, [s.readSel c b], o, sc, true, fun ops => [(far ops, .load k, 0)]),
   (.st b d o sc w f, [s.readSel c b, s.readData c d], o, sc, false, fun ops => [(far ops, .store k (opnd ops 1).data, 0)]),
   (.ldv a b d o sc w t p, two, o, sc, true, one fun ops => .loadVer k (low ops 1)),
   (.stv a b d o sc w t p, [s.readSel c a, s.readData c b, s.readSel c d], o, sc, t,
     one fun ops => .storeVer k (low ops 2) (opnd ops 1).data),
   (.lde a b d o sc w, two, o, sc, true, one fun ops => .loadExact k (low ops 1)),
   (.vrd a d o sc, [s.readSel c a], o, sc, true, one fun _ => .readVer),
   (.recl a b d, two, 0, 0, false, one fun ops => .reclaim (low ops 1)),
   (.gath a b d o sc w, two, o, sc, true, fun ops => (elems ops).map fun e => (e.2, .load k, e.1)),
   (.scat a b d o sc w, [s.readSel c a, s.readSel c b, s.readData c d], o, sc, false,
     fun ops => (elems ops).map fun e => (e.2, .store k ((opnd ops 2).data >>> (8 * k * e.1)), e.1)),
   (.cpyl a b d o sc, two, o, sc, false, fun ops => [(lane (opnd ops 1).data 64 0, .copy (ea ops), 0)]),
   (.zrol a o sc, [s.readSel c a], o, sc, false, one fun _ => .zero),
   (.aadd a b d o sc w t p, two, o, sc, true, atom .add k),
   (.aand a b d o sc w t p, two, o, sc, true, atom .and k),
   (.aor a b d o sc w t p, two, o, sc, true, atom .or k),
   (.axor a b d o sc w t p, two, o, sc, true, atom .xor k),
   (.aswp a b d o sc w t p, two, o, sc, true, atom .swap k),
   (.acas a b d o sc w t p, [s.readSel c a, s.readSel c b, s.readSel c d], o, sc, true,
     one fun ops => .atom .cas k (lane (opnd ops 1).data 64 0) (lane (opnd ops 2).data 64 0)),
   (.ammax a b d o sc w t p, two, o, sc, true, atom .maxu k),
   (.afadd a b d o sc t p, two, o, sc, true, atom .fadd 4),
   (.abar a b d o sc x t p, two, o, sc, true, one fun ops =>
     let v : BitVec 32 := lane (opnd ops 1).data 32 0
     if x = 0 then .arrive (v.setWidth 64) else if x = 1 then .expect (v.setWidth 64) else .phase (v.setWidth 16))]

/-- R223, R224: what a memory row of a VE leaves: a new entry `e` at the end of its reply queue, and its accesses on their way. -/
def State.issues (s : State) (c : Nat) (e : Entry) (reqs : List Req) : State :=
  (s.setVe c { s.ve c with replies := (s.ve c).replies ++ [e] }).setMem { s.mem with flight := s.mem.flight ++ reqs }

/-- R174: the source lane that result lane `k` converts, in part `q` of a conversion of `m` lanes to `n`; none where the old value of the
latch stands. -/
def sourceLane (m n q k : Nat) : Option Nat :=
  if n ≤ m then some (q * n + k) else if q * m ≤ k ∧ k < q * m + m then some (k - q * m) else none

/-- R174: whether part `q` exists. -/
def partExists (m n q : Nat) : Prop := if m = n then q = 0 else q < max m n / min m n

/-- R177: the scaled conversions: the sources each takes with a destination, the destination, the part and the saturation bit. -/
def scaledForms (a b d : BitVec 4) (g q : BitVec 2) (n : Bool) (u : BitVec 2) (p : Bool) (l : BitVec 4) :
    List (Instr × (Fmt → Bool) × Fmt × Nat × Bool) :=
  let narrow : Fmt := if g = 0 then .e4m3 else if g = 1 then .e5m2 else if g = 2 then .e2m1 else .i8
  let low := q.getLsbD 0
  let wide : BitVec 3 := BitVec.ofBool n ++ q
  [(.qnt a b d g q n u p l, fun f => f == .bf16 || (f == .fp32 && narrow != .e2m1), narrow, q.toNat, n),
   (.dqnt a b d low wide u p l, fun f => f == .e4m3 || f == .e5m2 || f == .e2m1 || f == .i8, if low then .bf16 else .fp32, wide.toNat, false),
   (.qntr a b d g low n u p l, fun f => f == .e4m3 || f == .e5m2 || f == .i8, narrow, low.toNat, n)]

/-- R148: the stateful forms but FMA: the tag of their results, the identity in every lane, and how a lane of an input joins the
accumulator's. -/
def statefulForms (a b d r : BitVec 4) (p : BitVec 3) (w : BitVec 2) (f : Bool) (u : BitVec 2) :
    List (Instr × BitVec 3 × BitVec 512 × (BitVec 512 → BitVec 512 → BitVec 512)) :=
  let n := laneWidth w
  let fm := floatFmt f
  let all (m k : Nat) : BitVec 512 := ofLanes 512 m fun _ => k
  let ints (k : Nat) (op : BitVec n → BitVec n → BitVec n) : BitVec 3 × BitVec 512 × (BitVec 512 → BitVec 512 → BitVec 512) :=
    (if w = 0 then 6 else 0, all n k, mapLanes n op)
  let floats (k : Nat) (op : Nat → Nat → Nat) : BitVec 3 × BitVec 512 × (BitVec 512 → BitVec 512 → BitVec 512) :=
    (if f then 2 else 1, all fm.bits k, fun x y => mapCodes fm (fun x y _ => op x y) x y 0)
  [(.add a b d r p true w, ints 0 fun x y => x + y),
   (.and a b d r p true w, ints (2 ^ n - 1) fun x y => x &&& y),
   (.or a b d r p true w, ints 0 fun x y => x ||| y),
   (.xor a b d r p true w, ints 0 fun x y => x ^^^ y),
   (.min a b d r p true w, ints (2 ^ (n - 1) - 1) fun x y => if x.toInt ≤ y.toInt then x else y),
   (.max a b d r p true w, ints (2 ^ (n - 1)) fun x y => if x.toInt ≤ y.toInt then y else x),
   (.minu a b d r p true w, ints (2 ^ n - 1) fun x y => if x.toNat ≤ y.toNat then x else y),
   (.maxu a b d r p true w, ints 0 fun x y => if x.toNat ≤ y.toNat then y else x),
   (.fadd a b d r p true f u, floats (2 ^ (fm.bits - 1)) fun x y => roundIeee fm (rmOf u) ((valOf fm x).add (rmOf u) (valOf fm y))),
   (.fmin a b d r p true f, floats fm.qnan (minMaxCode fm false)),
   (.fmax a b d r p true f, floats fm.qnan (minMaxCode fm true))]

/-- R148: the accumulator of stateful row `row`: the identity when the row is FRESH, else latch d. -/
def accumulator (v : Ve) (row : Nat) (d : BitVec 4) (ident : BitVec 512) : BitVec 512 :=
  if look false v.stale row then ((look none v.latches d.toNat).map (·.data)).getD 0 else ident

/-- R148: what a firing of stateful row `row` leaves in its element: the row's flags, and it is no longer FRESH. -/
def Ve.accumulates (v : Ve) (row : Nat) (d : BitVec 4) (t : Token) (seen : BitVec 8) : Ve :=
  { v with latches := put none v.latches d.toNat (some t), seen := put 0 v.seen row seen, stale := put false v.stale row true }

/-- R153 Tables 3 and 4: the sequencer CSRs that hold the sequencer's own state, the clock and the pod time, and what they read. -/
def csrValues (s : State) (n : Nat) : List (BitVec 12 × W64) :=
  let q := s.seq n
  [(0x000, q.islSel), (0x001, q.wake.setWidth 64),
   (0x402, (q.part.setWidth 64 <<< 25) ||| (BitVec.ofNat 5 n).setWidth 64 <<< 4 ||| (BitVec.ofNat 4 (n / 2)).setWidth 64),
   (0x403, if q.super then 1 else 0), (0x404, s.cycle), (0x405, s.mgmt.podTime), (0x406, q.tokens.setWidth 64),
   (0x407, (q.rstTag.setWidth 64 <<< 16) ||| q.rstPc.setWidth 64), (0x408, q.rstArg), (0x409, q.rstSp),
   (0x800, (if q.unack then 1 else 0) ||| (if q.r1v then 2 else 0)), (0x801, q.tvec), (0x802, q.ssp),
   (0x810, q.tcause0), (0x811, q.tpc0), (0x812, q.tval0), (0x813, q.tinfo0),
   (0xC10, q.tcause1), (0xC11, q.tpc1), (0xC12, q.tval1), (0xC13, q.tinfo1)]

/-- R153, R400: the CSRs that are written, and the sequencer after a write. Reserved bits stay zero, and of the locator of a class 2
fault in record 0 only DISP changes. -/
def csrWrites (q : Seq) (v : W64) : List (BitVec 12 × Seq) :=
  [(0x000, { q with islSel := v &&& 0x1F0F }), (0x001, { q with wake := v.setWidth 8 }),
   (0x800, q), (0x801, { q with tvec := v }), (0x802, { q with ssp := v }),
   (0x810, { q with tcause0 := v &&& 0x800000000000FFFF }), (0x811, { q with tpc0 := v }), (0x812, { q with tval0 := v }),
   (0x813, { q with tinfo0 :=
     if q.tcause0.extractLsb' 8 8 = 2 then v.extractLsb' 62 2 ++ q.tinfo0.extractLsb' 0 62 else v })]

/-- R150: a target that can be fetched. -/
def Fetchable (t : W64) : Prop := t.toNat % 4 = 0 ∧ t.toNat ≤ 0xFFFC

/-- R155: what trap entry leaves in a sequencer whose last trap has been acknowledged. -/
structure Traps (q q' : Seq) (cause : BitVec 16) (pc val info : W64) (mask : BitVec 8 := 0) : Prop where
  cause : q'.tcause0 = (if q.super then 1#64 <<< 63 else 0) ||| cause.setWidth 64
  pc : q'.tpc0 = pc
  val : q'.tval0 = val
  info : q'.tinfo0 = info
  unack : q'.unack = true
  super : q'.super = true
  fetch : q'.pc = q.tvec
  sp : q'.get 15 = if q.super then q.get 15 else q.ssp
  ssp : q'.ssp = if q.super then q.ssp else q.get 15
  regs : ∀ k, k ≠ 15 → q'.get k = q.get k
  performed : q'.tmask0 = mask
  begun : q'.begun = false
  rest : q' = { q with tcause0 := q'.tcause0, tpc0 := q'.tpc0, tval0 := q'.tval0, tinfo0 := q'.tinfo0, unack := q'.unack,
                       super := q'.super, pc := q'.pc, g := q'.g, ssp := q'.ssp, record0Isl := q'.record0Isl, lostIsls := q'.lostIsls,
                       tmask0 := q'.tmask0, begun := q'.begun }

/-- The instruction at pc of sequencer `n` has had these answers so far. -/
def State.begun (s : State) (n : Nat) (g : List Answer) : Prop := (s.seq n).wait = some { got := g }

/-- What a load of `w` bytes at `t` is answered. -/
def State.loaded (s : State) (t : Target) (w : Nat) : Answer := { data := s.mem.read t.la w, ver := s.foundVer t }

/-- What the last read of an instruction of several accesses leaves, at `t`, before the instruction's own effect. -/
def State.afterRead (s : State) (n : Nat) (t : Target) : State :=
  ((s.noteVersions t).cache t (s.seqIssuer n).part false).endWait n

/-! ### Words of the spec -/

/-- ALU and sequencer words, each with the line that it assembles from (see `specWords`). -/
def wordsVe : List (Bool × Word × Instr) :=
  [(false, 0x50BCF4E0, .fadd 11 12 15 4 7 false false 0), (false, 0x20123043, .add 1 2 3 0 2 false 3), (false, 0x3A44FFF8, .addi 4 4 0xFFF8),
   (false, 0xA0255308, .ld 2 5 1 2 3 8), (false, 0x02BFFFF8, .b 0xB 0xFFFF8), (false, 0xC0786A3B, .aadd 7 8 6 2 4 3 true 3),
   (false, 0x08050000, .waitt 5), (false, 0x0705FFFF, .loop 5 0xFFFF), (false, 0x3D050008, .movi 5 8), (false, 0x3AFFFFF0, .addi 15 15 0xFFF0),
   (false, 0xA1F10300, .st 15 1 0 0 3 0), (false, 0x09010810, .csrr 1 0x810), (false, 0x100000E0, .tack 7),
   (false, 0x404520F3, .cmp 4 5 2 7 4 3), (false, 0x82B04100, .qnt 11 0 4 0 1 false 0 false 0)]

/-- Matrix and window words, each with the line that it assembles from (see `specWords`). -/
def wordsMn : List (Bool × Word × Instr) :=
  [(false, 0x90070003, .wclm 7 3), (false, 0x91070003, .wrel 7 3), (true, 0x92020003, .wstatMn 2 0 3), (false, 0x930001A7, .pxd 3 false true 7),
   (false, 0x94801147, .mma 8 1 0 true false true 0 false 7), (false, 0x95800807, .ldrs 2 false 7), (false, 0x96800207, .ldcs 0 true 7),
   (false, 0x97001007, .prom 1 7), (false, 0x98001D07, .adrn 1 3 false true 0 false 7), (false, 0x99002007, .azer 2 7),
   (false, 0x9A002007, .arel 2 7), (false, 0x9B0002D7, .ptld 5 2 true 7), (false, 0x948006EF, .mma 8 0 3 false true true 2 true 7)]

/-- Memory and atomic words, each with the line that it assembles from (see `specWords`). -/
def wordsMem : List (Bool × Word × Instr) :=
  [(false, 0xA0240203, .ld 2 4 0 0 2 3), (false, 0xA196A300, .st 9 6 2 4 3 0), (false, 0xA0BF0602, .ld 11 15 0 0 6 2),
   (false, 0xA10E0601, .st 0 14 0 0 6 1), (false, 0xA42355B9, .ldv 2 3 5 1 3 3 true 1), (false, 0xA5789030, .stv 7 8 9 0 0 3 false 0),
   (false, 0xC545663A, .acas 4 5 6 1 4 3 true 2), (false, 0xC8951050, .mcas 9 5 1 0 0 5 false 0), (false, 0xCA56506A, .chase 5 6 5 0 0 true 2),
   (false, 0xAD28F4F2, .otjn 2 8 15 4 7 true 2), (false, 0x3D02A000, .movi 2 0xA000), (false, 0x3E220028, .movhi 2 2 0x28),
   (false, 0xCB234900, .abar 2 3 4 2 2 0 false 0), (false, 0xCB245520, .abar 2 4 5 1 2 2 false 0), (false, 0x010000E0, .idle 7)]

/-- Stream, group and launch words, each with the line that it assembles from (see `specWords`). -/
def wordsStream : List (Bool × Word × Instr) :=
  [(false, 0xD0200005, .patw 2 5), (false, 0xD1300005, .patr 3 5), (false, 0xD2200002, .layw 2 2),
   (false, 0xD3450281, .sgo 4 5 0 5 false false 1), (false, 0xD4090000, .scnl 9), (false, 0xD5006009, .spos 6 1 1),
   (false, 0xD6800002, .coll 8 2), (false, 0xD7456A83, .rcpy 4 5 6 2 5 3), (false, 0xD8000009, .gopen 9),
   (false, 0xD9456039, .gst 4 5 6 0 0 3 true 1), (false, 0xDA070009, .gcmt 7 9), (false, 0xDB000009, .gabrt 9), (false, 0xDC007009, .gstat 7 9),
   (false, 0xDD235009, .lnch 2 3 5 true 1), (false, 0xDE004000, .sig 4), (false, 0xDF000003, .gbar 3), (false, 0xE0040000, .drain 4),
   (false, 0xE1001000, .done 1)]

/-- System words, each with the line that it assembles from (see `specWords`). -/
def wordsSystem : List (Bool × Word × Instr) :=
  [(false, 0xF0237000, .cfgld 2 3 7), (false, 0xF1053000, .bswap 5 3), (false, 0xF2003000, .fold 3), (false, 0xF3053001, .rqsc 5 3 true),
   (false, 0xF4004000, .asids 4), (false, 0xF5450000, .xinv 4 5 0), (false, 0xF6074000, .l2md 7 4), (false, 0xF7457000, .scrb 4 5 7),
   (false, 0xF8407000, .khnd 4 7), (false, 0xF9004000, .kdel 4), (false, 0xFA450000, .mext 4 5), (false, 0xFB456000, .ksign 4 5 6),
   (false, 0xC6450AB0, .ammax 4 5 0 2 5 3 false 0)]

/-- Words of the examples, each with the line that it assembles from (see `specWords`). -/
def wordsExamples : List (Bool × Word × Instr) :=
  [(false, 0xA6DCF060, .lde 13 12 15 0 0 6), (false, 0x3FDE6040, .lea 13 14 6 0 64), (false, 0x4BF020E1, .tagset 15 2 0 7 1),
   (false, 0x802210E0, .cvt 2 2 1 0 7 0 false 0), (false, 0xA8405060, .recl 4 0 5), (false, 0x12001001, .svc 1 1),
   (false, 0xABD40060, .cpyl 13 4 0 0 0), (false, 0x110000E0, .tret 7), (false, 0x83CD0800, .dqnt 12 13 0 true 0 0 false 0),
   (false, 0x4A8010E2, .mktst 8 1 7 2), (false, 0x421120F8, .plog 1 1 2 7 6), (false, 0x5280F444, .fmul 8 0 15 4 2 true 0),
   (false, 0x508EF424, .fadd 8 14 15 4 1 false true 0), (false, 0x2F4C70E3, .min 4 12 7 0 7 false 3), (false, 0x2C7D60E3, .shr 7 13 6 0 7 3),
   (false, 0x3F577C40, .lea 5 7 7 6 64), (false, 0x39CC803C, .sel 12 12 8 0 1 7), (false, 0x45000002, .itset 0 2),
   (false, 0x98000609, .adrn 0 1 true false 0 true 1)]

/-- Words that the spec gives with the source line that each assembles from (R118 Table 2, and the examples of chapters 6, 8 to 10, 12, 15 and 16);
whether a matrix node reads the word, the word, and what it stands for. -/
def specWords : List (Bool × Word × Instr) :=
  wordsVe ++ wordsMn ++ wordsMem ++ wordsStream ++ wordsSystem ++ wordsExamples

end Sys2Proof.Machine
end

