-- ==== Sys2Proof/Certificates/Slice0/Obligations.lean ====
section
/-! DEFINITION. The statements for the provers: what the rules of spec/ say the machine does. -/

open Sys2Proof Sys2Proof.Machine

/-! ### Integer forms -/

/-- R145, R160: at a sequencer an integer form writes G[d] lane by lane, moves past its word, and changes nothing else; DIV truncates toward
zero, and by zero its quotient is all ones and the remainder of REM is x. -/
def Obligations.IntegerLanesAtSequencer : Prop :=
  (∀ (s : State) (n : Nat) (a b d : BitVec 4) (p : BitVec 3) (u : Bool) (w : BitVec 2),
     (∀ e ∈ laneForms p a b d 0 u w, SeqRuns e.1 (guarded p) s n →
       ∃ t v, exec e.1 s = .next t ∧ SeqBecomes s t n ((s.seq n).set d v).step ∧
         ∀ k < 64 / laneWidth w, lane v (laneWidth w) k = e.2 (lane ((s.seq n).get a) _ k) (lane ((s.seq n).get b) _ k)) ∧
     (∀ e ∈ laneForms1 p a d 0 w, SeqRuns e.1 (guarded p) s n →
       ∃ t v, exec e.1 s = .next t ∧ SeqBecomes s t n ((s.seq n).set d v).step ∧
         ∀ k < 64 / laneWidth w, lane v (laneWidth w) k = e.2 (lane ((s.seq n).get a) _ k))) ∧
  (∀ (s : State) (n : Nat) (a b d : BitVec 4) (p : BitVec 3) (u : Bool) (w : BitVec 2),
     (SeqRuns (.div a b d p u w) (guarded p) s n →
       ∃ t v, exec (.div a b d p u w) s = .next t ∧ SeqBecomes s t n ((s.seq n).set d v).step ∧
         ∀ k < 64 / laneWidth w,
           let x := lane ((s.seq n).get a) (laneWidth w) k
           let y := lane ((s.seq n).get b) (laneWidth w) k
           lane v (laneWidth w) k = if y = 0 then BitVec.allOnes _ else if u then x / y else x.sdiv y) ∧
     (SeqRuns (.rem a b d p u w) (guarded p) s n →
       ∃ t v, exec (.rem a b d p u w) s = .next t ∧ SeqBecomes s t n ((s.seq n).set d v).step ∧
         ∀ k < 64 / laneWidth w,
           let x := lane ((s.seq n).get a) (laneWidth w) k
           let y := lane ((s.seq n).get b) (laneWidth w) k
           lane v (laneWidth w) k = if y = 0 then x else if u then x % y else x.srem y))

/-- R145 to R147, R160: at a VE that finds its operands an integer form consumes them and sends the lanes of its result, with the tag of
R146 and the round of R47, to its target and routes. Where it rests on a choice of the model: log 10. -/
def Obligations.IntegerLanesAtVe : Prop :=
  ∀ (s : State) (c : Nat) (a b d r : BitVec 4) (p : BitVec 3) (u : Bool) (w : BitVec 2) (ops : List Operand),
    (∀ e ∈ laneForms p a b d r u w, VeRuns e.1 (guarded p) s c → Finds s c [s.readSel c a, s.readSel c b] r ops →
      ∃ v, exec e.1 s = .next ((s.consume c ops).emit c d r { data := v, tag := if w = 0 then 6 else 0, rnd := resultRound (s.ve c) ops }) ∧
        ∀ k < 512 / laneWidth w, lane v (laneWidth w) k = e.2 (lane (opnd ops 0).data _ k) (lane (opnd ops 1).data _ k)) ∧
    (∀ e ∈ laneForms1 p a d r w, VeRuns e.1 (guarded p) s c → Finds s c [s.readSel c a] r ops →
      ∃ v, exec e.1 s = .next ((s.consume c ops).emit c d r { data := v, tag := if w = 0 then 6 else 0, rnd := resultRound (s.ve c) ops }) ∧
        ∀ k < 512 / laneWidth w, lane v (laneWidth w) k = e.2 (lane (opnd ops 0).data _ k))

/-- R160 SEL, R161, R162: the forms that select, take an immediate or form an address, at a sequencer. -/
def Obligations.ImmediatesAtSequencer : Prop :=
  ∀ (s : State) (n : Nat) (a b d : BitVec 4) (i : BitVec 16) (p m : BitVec 3) (k : BitVec 3) (f : BitVec 9),
    (∀ e ∈ immediateForms a d i, SeqRuns e.1 always s n →
      ∃ t, exec e.1 s = .next t ∧ SeqBecomes s t n ((s.seq n).set d (e.2.1 ((s.seq n).get a))).step) ∧
    (SeqRuns (.movi d i) always s n →
      ∃ t, exec (.movi d i) s = .next t ∧ SeqBecomes s t n ((s.seq n).set d (i.signExtend 64)).step) ∧
    (SeqRuns (.lea a b d k f) always s n →
      ∃ t, exec (.lea a b d k f) s = .next t ∧
        SeqBecomes s t n ((s.seq n).set d ((s.seq n).get a + ((s.seq n).get b <<< k.toNat) + f.signExtend 64)).step) ∧
    (SeqRuns (.sel a b d 0 p m) (guarded p) s n →
      ∃ t, exec (.sel a b d 0 p m) s = .next t ∧
        SeqBecomes s t n ((s.seq n).set d (if predGet (s.seq n).preds m then (s.seq n).get a else (s.seq n).get b)).step)

/-- R146, R160 SEL, R161, R162: the same at a VE that finds its operands: 16 lanes of 32 bits, eight pairs for LEA, and for SEL the whole
operand with its tag. Where it rests on a choice of the model: log 10. -/
def Obligations.ImmediatesAtVe : Prop :=
  ∀ (s : State) (c : Nat) (a b d r : BitVec 4) (i : BitVec 16) (p m : BitVec 3) (k : BitVec 3) (f : BitVec 9) (ops : List Operand),
    (∀ e ∈ immediateForms a d i, VeRuns e.1 always s c → Finds s c [s.readSel c a] 0 ops →
      ∃ v, exec e.1 s = .next ((s.consume c ops).emit c d 0 { data := v, tag := 0, rnd := resultRound (s.ve c) ops }) ∧
        ∀ j < 16, lane v 32 j = e.2.2 (lane (opnd ops 0).data 32 j)) ∧
    (VeRuns (.movi d i) always s c →
      ∃ v, exec (.movi d i) s = .next (s.emit c d 0 { data := v, tag := 0, rnd := (s.ve c).rnd }) ∧ ∀ j < 16, lane v 32 j = i.signExtend 32) ∧
    (VeRuns (.lea a b d k f) always s c → Finds s c [s.readSel c a, s.readSel c b] 0 ops →
      ∃ v, exec (.lea a b d k f) s = .next ((s.consume c ops).emit c d 0 { data := v, tag := 0, rnd := resultRound (s.ve c) ops }) ∧
        ∀ j < 8, lane v 64 j = lane (opnd ops 0).data 64 j + (lane (opnd ops 1).data 64 j <<< k.toNat) + f.signExtend 64) ∧
    (VeRuns (.sel a b d r p m) (guarded p) s c → Finds s c [s.readSel c a, s.readSel c b] r ops →
      exec (.sel a b d r p m) s = .next ((s.consume c ops).emit c d r
        { opnd ops (if predGet (s.ve c).preds m then 0 else 1) with rnd := resultRound (s.ve c) ops }))

/-! ### Predicates, counters, rounds and tags -/

/-- R163, R164: CMP, FCMP, PLOG, PRD and PWR: the predicate or register they write, and nothing else; the reserved bits of PLOG. -/
def Obligations.PredicateForms : Prop :=
  ∀ (s : State) (n : Nat) (a b d : BitVec 4) (p c x y z : BitVec 3) (w e : BitVec 2) (f : Bool) (ops : List Operand) (word : Word) (mn : Bool),
    (word.extractLsb' 24 8 = 0x42#8 →
      word.getLsbD 23 = true ∨ word.getLsbD 19 = true ∨ word.getLsbD 15 = true ∨ word.extractLsb' 0 2 ≠ 0#2 →
      decode mn word = .bad .reservedBits) ∧
    (SeqRuns (.cmp a b d p c w) (guarded p) s n →
      ∃ t v, exec (.cmp a b d p c w) s = .next t ∧
        SeqBecomes s t n { s.seq n with preds := predSet (s.seq n).preds (d.setWidth 3) v }.step ∧
        (v = true ↔ if d.getLsbD 3 then
            ∃ k < 64 / laneWidth w, laneCondition c (lane ((s.seq n).get a) (laneWidth w) k) (lane ((s.seq n).get b) (laneWidth w) k)
          else ∀ k < 64 / laneWidth w, laneCondition c (lane ((s.seq n).get a) (laneWidth w) k) (lane ((s.seq n).get b) (laneWidth w) k))) ∧
    (VeRuns (.cmp a b d p c w) (guarded p) s n → Finds s n [s.readSel n a, s.readSel n b] 0 ops →
      ∃ v, exec (.cmp a b d p c w) s = .next ((s.consume n ops).vePred n (d.setWidth 3) v) ∧
        (v = true ↔ if d.getLsbD 3 then
            ∃ k < 512 / laneWidth w, laneCondition c (lane (opnd ops 0).data (laneWidth w) k) (lane (opnd ops 1).data (laneWidth w) k)
          else ∀ k < 512 / laneWidth w, laneCondition c (lane (opnd ops 0).data (laneWidth w) k) (lane (opnd ops 1).data (laneWidth w) k))) ∧
    (VeRuns (.fcmp a b d p e f) (guarded p) s n → Finds s n [s.readSel n a, s.readSel n b] 0 ops →
      let m := floatFmt f
      let holds (k : Nat) : Bool := floatCond m e (lane (opnd ops 0).data m.bits k).toNat (lane (opnd ops 1).data m.bits k).toNat
      ∃ v, exec (.fcmp a b d p e f) s = .next ((s.consume n ops).vePred n (d.setWidth 3) v) ∧
        (v = true ↔ if d.getLsbD 3 then ∃ k < m.lanes, holds k = true else ∀ k < m.lanes, holds k = true)) ∧
    (SeqRuns (.plog x y z p c) (guarded p) s n →
      ∃ t, exec (.plog x y z p c) s = .next t ∧ SeqBecomes s t n
        { s.seq n with preds := predSet (s.seq n).preds z (predicateFn c (predGet (s.seq n).preds x) (predGet (s.seq n).preds y)) }.step) ∧
    (VeRuns (.plog x y z p c) (guarded p) s n →
      ∃ t, exec (.plog x y z p c) s = .next t ∧ VeBecomes s t n
        { s.ve n with preds := predSet (s.ve n).preds z (predicateFn c (predGet (s.ve n).preds x) (predGet (s.ve n).preds y)) }) ∧
    (MnRuns (.plog x y z p c) (guarded p) s n →
      ∃ t, exec (.plog x y z p c) s = .next t ∧ MnBecomes s t n
        { s.mn n with preds := predSet (s.mn n).preds z (predicateFn c (predGet (s.mn n).preds x) (predGet (s.mn n).preds y)) }) ∧
    (SeqRuns (.prd d p) (guarded p) s n →
      ∃ t v, exec (.prd d p) s = .next t ∧ SeqBecomes s t n ((s.seq n).set d v).step ∧
        ∀ k < 64, v.getLsbD k = (decide (k < 8) && predGet (s.seq n).preds (BitVec.ofNat 3 k))) ∧
    (SeqRuns (.pwr a b p) (guarded p) s n →
      ∃ t v, exec (.pwr a b p) s = .next t ∧ SeqBecomes s t n { s.seq n with preds := v }.step ∧
        ∀ k < 8, v.getLsbD k =
          if k ≠ 7 ∧ ((s.seq n).get b).getLsbD k then ((s.seq n).get a).getLsbD k else (s.seq n).preds.getLsbD k)

/-- R165: the iteration counters of a VE and of an MN reset to 0 and a save keeps them; ITSET sets the limit and clears the count, with a and d[3:2] reserved; ITNXT
adds 1, and at the limit, where 0 stands for 65 536, starts again from 0 and sets its predicate; under a false guard it changes nothing. -/
def Obligations.IterationCounters : Prop :=
  ∀ (s : State) (c : Nat) (k : BitVec 2) (i : BitVec 16) (d p : BitVec 3) (w : Word) (mn : Bool) (e : Counter),
    let next (x : Counter) : Counter := { x with count := if x.count + 1 = x.limit then 0 else x.count + 1 }
    let steps (x : Counter) : Nat := if x.limit = 0 then 65536 else x.limit.toNat
    (State.reset.ve c).ics = [] ∧ (State.reset.mn c).ics = [] ∧ look {} ([] : Tab Counter) k.toNat = { count := 0, limit := 0 } ∧
    (s.savedCore c).ve.ics = (s.ve c).ics ∧ (s.savedCore c).mn.ics = (s.mn c).ics ∧
    (w.extractLsb' 24 8 = 0x45#8 → w.extractLsb' 18 6 ≠ 0#6 → decode mn w = .bad .reservedBits) ∧
    (VeRuns (.itset k i) always s c →
      ∃ t, exec (.itset k i) s = .next t ∧
        VeBecomes s t c { s.ve c with ics := put {} (s.ve c).ics k.toNat { count := 0, limit := i } }) ∧
    (MnRuns (.itset k i) always s c →
      ∃ t, exec (.itset k i) s = .next t ∧
        MnBecomes s t c { s.mn c with ics := put {} (s.mn c).ics k.toNat { count := 0, limit := i } }) ∧
    (VeRuns (.itnxt k d p) (guarded p) s c →
      let x : Counter := look {} (s.ve c).ics k.toNat
      ∃ t, exec (.itnxt k d p) s = .next t ∧ VeBecomes s t c
        { s.ve c with ics := put {} (s.ve c).ics k.toNat (next x), preds := predSet (s.ve c).preds d (x.count + 1 == x.limit) }) ∧
    (MnRuns (.itnxt k d p) (guarded p) s c →
      let x : Counter := look {} (s.mn c).ics k.toNat
      ∃ t, exec (.itnxt k d p) s = .next t ∧ MnBecomes s t c
        { s.mn c with ics := put {} (s.mn c).ics k.toNat (next x), preds := predSet (s.mn c).preds d (x.count + 1 == x.limit) }) ∧
    (e.count.toNat < steps e → (e.count + 1 = e.limit ↔ e.count.toNat + 1 = steps e)) ∧
    (s.actor = .ve c → Instr.wf .ve (.itnxt k d p) = true → guarded p (s.ve c).preds = false → exec (.itnxt k d p) s = .next s) ∧
    (s.actor = .mn c → Instr.wf .mn (.itnxt k d p) = true → guarded p (s.mn c).preds = false → exec (.itnxt k d p) s = .next s)

/-- R48, R147, R166, R167: rounds, markers and tags at a VE. The tests read without consuming, and a marker of a reserved kind is a fault.
Where it rests on a choice of the model: logs 10, 44, 129. -/
def Obligations.RoundsAndTags : Prop :=
  ∀ (s : State) (c : Nat) (a d r : BitVec 4) (p g x : BitVec 3) (k : BitVec 2) (o : Operand) (ops : List Operand),
    (VeRuns (.rndget d r p) (guarded p) s c → s.routeStall c r = false →
      exec (.rndget d r p) s = .next (s.emit c d r { data := (s.ve c).rnd.setWidth 512, tag := 0, rnd := (s.ve c).rnd })) ∧
    (VeRuns (.rndset a p) (guarded p) s c → Finds s c [s.readSel c a] 0 ops →
      ∃ t, exec (.rndset a p) s = .next t ∧
        VeBecomes (s.consume c ops) t c { (s.consume c ops).ve c with rnd := (opnd ops 0).data.setWidth 8 }) ∧
    (VeRuns (.mkemit d r p k) (guarded p) s c → s.routeStall c r = false →
      let m := marker (k.setWidth 8 + 1) (s.ve c).rnd
      exec (.mkemit d r p k) s = .next (if k = 0 then
          (s.emit c d r m).setVe c { (s.emit c d r m).ve c with rnd := ((s.emit c d r m).ve c).rnd + 1 }
        else s.emit c d r m)) ∧
    (VeRuns (.mktst a x p k) (guarded p) s c → s.readSel c a = .got o → reservedMarker o.tok = false →
      ∃ t, exec (.mktst a x p k) s = .next t ∧ VeBecomes s t c
        { s.ve c with preds := predSet (s.ve c).preds x (decide (o.tok.tag = 7 ∧ (k = 0 ∨ markerKind o.tok = k.setWidth 8))) }) ∧
    (VeRuns (.tagset a d r p g) (guarded p) s c → Finds s c [s.readSel c a] r ops →
      exec (.tagset a d r p g) s =
        .next ((s.consume c ops).emit c d r { data := (opnd ops 0).data, tag := g, rnd := resultRound (s.ve c) ops })) ∧
    (VeRuns (.tagchk a x p g) (guarded p) s c → s.readSel c a = .got o → reservedMarker o.tok = false →
      ∃ t, exec (.tagchk a x p g) s = .next t ∧
        VeBecomes s t c { s.ve c with preds := predSet (s.ve c).preds x (decide (o.tok.tag = g)) }) ∧
    (s.readSel c a = .got o → reservedMarker o.tok = true →
      (VeRuns (.mktst a x p k) (guarded p) s c → exec (.mktst a x p k) s = .next (s.addFault c false 0x14 (schedVal 7))) ∧
      (VeRuns (.tagchk a x p g) (guarded p) s c → exec (.tagchk a x p g) s = .next (s.addFault c false 0x14 (schedVal 7))) ∧
      (VeRuns (.tagget a d r p) (guarded p) s c → s.routeStall c r = false →
        exec (.tagget a d r p) s = .next (s.addFault c false 0x14 (schedVal 7)))) ∧
    (VeRuns (.tagget a d r p) (guarded p) s c → s.readSel c a = .got o → reservedMarker o.tok = false → s.routeStall c r = false →
      s.checkTags c [o] = none →
      ∃ v, exec (.tagget a d r p) s = .next ((s.consume c [o]).emit c d r { data := v, tag := 0, rnd := resultRound (s.ve c) [o] }) ∧
        lane v 32 0 = o.tok.tag.setWidth 32 ∧ lane v 32 1 = o.tok.rnd.setWidth 32 ∧ ∀ j < 16, 2 ≤ j → lane v 32 j = 0)

/-! ### Floating point -/

/-- R168 to R170, R172: at a VE that finds its operands a floating-point form computes each lane from the codes of its operands' lanes, in
the format that mod[2] names; the addend of FMA, FMS and FNMA is the old value of latch d, or −0.
Where it rests on a choice of the model: logs 5, 12. -/
def Obligations.FloatLanesAtVe : Prop :=
  ∀ (s : State) (c : Nat) (a b d r : BitVec 4) (p : BitVec 3) (f : Bool) (u q : BitVec 2) (ops : List Operand),
    let m := floatFmt f
    let code (x : BitVec 512) (k : Nat) : Nat := (lane x m.bits k).toNat
    let sends (i : Instr) (v : BitVec 512) : Prop :=
      exec i s = .next ((s.consume c ops).emit c d r { data := v, tag := if f then 2 else 1, rnd := resultRound (s.ve c) ops })
    (∀ e ∈ floatForms2 p a b d r f u q, VeRuns e.1 (guarded p) s c → Finds s c [s.readSel c a, s.readSel c b] r ops →
      ∃ v, sends e.1 v ∧ ∀ k < m.lanes, lane v m.bits k = BitVec.ofNat m.bits (e.2 (code (opnd ops 0).data k) (code (opnd ops 1).data k))) ∧
    (∀ e ∈ floatForms3 p a b d r f u, VeRuns e.1 (guarded p) s c → Finds s c [s.readSel c a, s.readSel c b] r ops →
      let z (k : Nat) : Nat := if d.toNat < 8 then code (((look none (s.ve c).latches d.toNat).map (·.data)).getD 0) k else 2 ^ (m.bits - 1)
      ∃ v, sends e.1 v ∧
        ∀ k < m.lanes, lane v m.bits k = BitVec.ofNat m.bits (e.2 (code (opnd ops 0).data k) (code (opnd ops 1).data k) (z k))) ∧
    (∀ e ∈ floatForms1 p a d r f u, VeRuns e.1 (guarded p) s c → Finds s c [s.readSel c a] r ops →
      ∃ v, sends e.1 v ∧ ∀ k < m.lanes, lane v m.bits k = BitVec.ofNat m.bits (e.2 (code (opnd ops 0).data k)))

/-- R109, R171, R173: the forms that combine lanes: the tree reductions give one value in every lane; VPERM, VBCAST and VSLIDE move elements
and keep the tag of a. -/
def Obligations.CrossLaneForms : Prop :=
  ∀ (s : State) (c : Nat) (a b d r : BitVec 4) (p : BitVec 3) (f : Bool) (u z : BitVec 2) (x : BitVec 6) (h : BitVec 7) (ops : List Operand),
    let m := floatFmt f
    let n := laneWidth z
    let moves (i : Instr) (v : BitVec 512) : Prop :=
      exec i s = .next ((s.consume c ops).emit c d 0 { data := v, tag := (opnd ops 0).tag, rnd := resultRound (s.ve c) ops })
    (∀ e ∈ treeForms p a d r f u, VeRuns e.1 (guarded p) s c → Finds s c [s.readSel c a] r ops →
      let top := e.2.2 (widened m (opnd ops 0).data)
      ∃ v, exec e.1 s =
          .next ((s.consume c ops).emit c d r { data := v, tag := if f then 2 else 1, rnd := resultRound (s.ve c) ops }) ∧
        ∀ k < m.lanes, lane v m.bits k = BitVec.ofNat m.bits (if f then Sys2Proof.Machine.cvt (valOf .fp32 top) .bf16 e.2.1 false else top)) ∧
    (VeRuns (.vperm a b d z) always s c → Finds s c [s.readSel c a, s.readSel c b] 0 ops →
      ∃ v, moves (.vperm a b d z) v ∧ ∀ k < 512 / n, lane v n k =
        let j := (byteAt (opnd ops 1).data k).toNat
        if j < 512 / n then lane (opnd ops 0).data n j else 0) ∧
    (VeRuns (.vbcast a d z x) always s c → Finds s c [s.readSel c a] 0 ops →
      ∃ v, moves (.vbcast a d z x) v ∧ ∀ k < 512 / n, lane v n k = lane (opnd ops 0).data n x.toNat) ∧
    (VeRuns (.vslide a b d z h) always s c → Finds s c [s.readSel c a, s.readSel c b] 0 ops →
      ∃ v, moves (.vslide a b d z h) v ∧ ∀ k < 512 / n, lane v n k =
        if k + h.toNat < 512 / n then lane (opnd ops 0).data n (k + h.toNat) else lane (opnd ops 1).data n (k + h.toNat - 512 / n))

/-! ### Conversions, stateful rows and targets -/

/-- R106, R174 to R177: CVT, CVTI and the scaled conversions at a VE that finds its operands: the lanes of the part named, the rest of
latch d kept; a part or a pairing that does not exist is an operand fault, and nothing else of the firing takes effect.
Where it rests on a choice of the model: log 120. -/
def Obligations.ConversionForms : Prop :=
  ∀ (s : State) (c : Nat) (a b d r l : BitVec 4) (b3 p : BitVec 3) (g q u : BitVec 2) (n pl t : Bool) (f h : Fmt) (ops : List Operand),
    let x := opnd ops 0
    let old : BitVec 512 := if d.toNat < 8 then ((look none (s.ve c).latches d.toNat).map (·.data)).getD 0 else 0
    let lanes (h : Fmt) (q : Nat) (conv : Nat → Nat) (v : BitVec 512) : Prop := ∀ k < h.lanes, lane v h.bits k =
      match sourceLane f.lanes h.lanes q k with
      | some j => BitVec.ofNat h.bits (conv j)
      | none => lane old h.bits k
    let sends (i : Instr) (r : BitVec 4) (tag : BitVec 3) (v : BitVec 512) : Prop :=
      exec i s = .next ((s.consume c ops).emit c d r { data := v, tag := tag, rnd := resultRound (s.ve c) ops })
    let fault (i : Instr) : Prop := exec i s = .next (s.addFault c false 0x05 ((wordOf i).setWidth 64))
    (VeRuns (.cvt a b3 d r p q n u) (guarded p) s c → Finds s c [s.readSel c a] r ops → fmtOfTag x.tag = some f → fmtOfTag b3 = some h →
      (partExists f.lanes h.lanes q.toNat ∧ f.lanes ≠ 8 * h.lanes ∧ h.lanes ≠ 8 * f.lanes →
        ∃ v, sends (.cvt a b3 d r p q n u) r b3 v ∧
          lanes h q.toNat (fun j => Sys2Proof.Machine.cvt (valOf f (lane x.data f.bits j).toNat) h (rmOf u) n) v) ∧
      (¬ (partExists f.lanes h.lanes q.toNat ∧ f.lanes ≠ 8 * h.lanes ∧ h.lanes ≠ 8 * f.lanes) → fault (.cvt a b3 d r p q n u))) ∧
    (∀ e ∈ scaledForms a b d g q n u pl l, VeRuns e.1 always s c → Finds s c [s.readSel c a, s.readSel c b] 0 ops →
      fmtOfTag x.tag = some f →
      let scale (j : Nat) : Val := valOf .fp32 (lane (opnd ops 1).data 32 (if pl then j % 16 else l.toNat)).toNat
      (partExists f.lanes e.2.2.1.lanes e.2.2.2.1 ∧ e.2.1 f = true → ∃ v, sends e.1 0 e.2.2.1.tag v ∧
        lanes e.2.2.1 e.2.2.2.1
          (fun j => Sys2Proof.Machine.cvt ((valOf f (lane x.data f.bits j).toNat).mul (scale j)) e.2.2.1 (rmOf u) e.2.2.2.2) v) ∧
      (¬ (partExists f.lanes e.2.2.1.lanes e.2.2.2.1 ∧ e.2.1 f = true) → fault e.1)) ∧
    (VeRuns (.cvti a b d r p t u) (guarded p) s c → Finds s c [s.readSel c a, s.readSel c b] r ops →
      let shift (k : Nat) : Int := max (-255) (min 255 (lane (opnd ops 1).data 32 k).toInt)
      let word (k : Nat) : Nat := (lane x.data 32 k).toNat
      ∃ v, sends (.cvti a b d r p t u) r (if t then 1 else 0) v ∧ ∀ k < 16, lane v 32 k = BitVec.ofNat 32
        (if t then Sys2Proof.Machine.cvt ((valOf .i32 (word k)).mul (.fin false 1 (-shift k))) .fp32 (rmOf u) false
         else Sys2Proof.Machine.cvt ((valOf .fp32 (word k)).mul (.fin false 1 (shift k))) .i32 (rmOf u) false))

/-- R178, R247: ABSMX, PK4, UPK4 and OTJN at a VE that finds its operands; a source of another format is an operand fault. OTJN passes a
unchanged, in wait mode once every earlier access of the VE has been performed at its scope. -/
def Obligations.PackingAndOrdering : Prop :=
  ∀ (s : State) (c : Nat) (a b d r : BitVec 4) (p sc : BitVec 3) (e u : BitVec 2) (h : Bool) (ops : List Operand),
    let x := opnd ops 0
    let y := opnd ops 1
    let two := [s.readSel c a, s.readSel c b]
    let byteFmt (t : BitVec 3) : Option Fmt := if t = 3 then some .e4m3 else if t = 4 then some .e5m2 else if t = 6 then some .i8 else none
    let m : Fmt := if e = 1 then .bf16 else .fp32
    let sends (i : Instr) (t : Token) : Prop := exec i s = .next ((s.consume c ops).emit c d r t)
    (VeRuns (.absmx a b d r p e) (guarded p) s c → Finds s c two r ops →
      let l := ((lane y.data 32 0).toNat, Fmt.fp32) :: (List.range m.lanes).map fun k => ((lane x.data m.bits k).toNat, m)
      ∃ v, sends (.absmx a b d r p e) { data := v, tag := 1, rnd := resultRound (s.ve c) ops } ∧
        (∀ k < 16, lane v 32 k = lane v 32 0) ∧
        ((∃ z ∈ l, (valOf z.2 z.1).isNan = true) → lane v 32 0 = 0x7FC00000) ∧
        ((∀ z ∈ l, (valOf z.2 z.1).isNan = false) →
          ∃ z ∈ l, lane v 32 0 = BitVec.ofNat 32 (roundIeee .fp32 .rne (valOf z.2 z.1).abs) ∧
            ∀ z' ∈ l, (valOf z.2 z.1).abs.cmp (valOf z'.2 z'.1).abs ≠ .lt)) ∧
    (VeRuns (.pk4 a b d r p u) (guarded p) s c → Finds s c two r ops →
      (∀ f g, byteFmt x.tag = some f → byteFmt y.tag = some g →
        ∃ v, sends (.pk4 a b d r p u) { data := v, tag := 5, rnd := resultRound (s.ve c) ops } ∧ ∀ k < 64,
          lane v 4 k = BitVec.ofNat 4 (Sys2Proof.Machine.cvt (valOf f (lane x.data 8 k).toNat) .e2m1 (rmOf u) false) ∧
          lane v 4 (64 + k) = BitVec.ofNat 4 (Sys2Proof.Machine.cvt (valOf g (lane y.data 8 k).toNat) .e2m1 (rmOf u) false)) ∧
      (byteFmt x.tag = none ∨ byteFmt y.tag = none →
        exec (.pk4 a b d r p u) s = .next (s.addFault c false 0x05 ((wordOf (.pk4 a b d r p u)).setWidth 64)))) ∧
    (VeRuns (.upk4 a d r p h) (guarded p) s c → Finds s c [s.readSel c a] r ops →
      (x.tag = 5 → ∃ v, sends (.upk4 a d r p h) { data := v, tag := 3, rnd := resultRound (s.ve c) ops } ∧ ∀ k < 64,
        lane v 8 k =
          BitVec.ofNat 8 (Sys2Proof.Machine.cvt (valOf .e2m1 (lane x.data 4 (64 * h.toNat + k)).toNat) .e4m3 .rne false)) ∧
      (x.tag ≠ 5 → exec (.upk4 a d r p h) s = .next (s.addFault c false 0x05 ((wordOf (.upk4 a d r p h)).setWidth 64)))) ∧
    (VeRuns (.otjn a b d r p h sc) (guarded p) s c → Finds s c two r ops → (h = true → s.quiet (.ve c) sc.toNat = true) →
      sends (.otjn a b d r p h sc) x)

/-- R51, R147, R148: a stateful row with both inputs on ports or X: a firing with two data tokens combines both into latch d; the firing
that brings the last marker sends the round's result on the routes; the firing after it reads nothing, sends the marker and opens the next
round. The flags and FRESH are the row's own. Where it rests on a choice of the model: logs 11, 13, 132. -/
def Obligations.StatefulRows : Prop :=
  ∀ (s : State) (c : Nat) (a b d r : BitVec 4) (p : BitVec 3) (w u : BitVec 2) (f : Bool) (x y : Operand),
    let v := s.ve c
    let row := s.dueRow c
    let seen := look 0 v.seen row
    let input (k : BitVec 4) : Prop := (8 ≤ k.toNat ∧ k.toNat < 12) ∨ k = 15
    let inputs : Prop := input a ∧ input b ∧ d.toNat < 8
    let inRound (o : Operand) : Prop := o.moving = true → o.tok.rnd = v.rnd
    let accepted (ops : List Operand) : Prop := ∀ o ∈ ops, o.real = true → (s.veRow c).tags.getLsbD o.tok.tag.toNat = true
    let fires (i : Instr) (tag : BitVec 3) (two one : BitVec 512) : Prop :=
      (VeRuns i (guarded p) s c → inputs → seen = 0 → s.readSel c a = .got x → s.readSel c b = .got y →
        inRound x → inRound y → isMarker x.tok = false → isMarker y.tok = false → accepted [x, y] →
        exec i s = .next ((s.consume c [x, y]).setVe c
          (((s.consume c [x, y]).ve c).accumulates row d { data := two, tag := tag, rnd := v.rnd } 0))) ∧
      (VeRuns i (guarded p) s c → inputs → seen = 1 → s.readSel c b = .got y → y.sel = b.toNat →
        y.tok = marker 1 v.rnd → s.routeStall c r = false →
        exec i s = .next (((s.consume c [y]).setVe c
          (((s.consume c [y]).ve c).accumulates row d { data := one, tag := tag, rnd := v.rnd } 3)).sendRoutes c r
            { data := one, tag := tag, rnd := v.rnd })) ∧
      (VeRuns i (guarded p) s c → inputs → seen = 3 → s.routeStall c r = false →
        let s' := s.sendRoutes c r (marker 1 v.rnd)
        exec i s = .next ((s'.setVe c
          { s'.ve c with seen := put 0 (s'.ve c).seen row 0, stale := put false (s'.ve c).stale row false, rnd := (s'.ve c).rnd + 1 }).restartPoint c v.rnd))
    let fm := floatFmt f
    (∀ e ∈ statefulForms a b d r p w f u,
      let acc := accumulator v row d e.2.2.1
      fires e.1 e.2.1 (e.2.2.2 (e.2.2.2 acc x.tok.data) y.tok.data) acc) ∧
    (let ident := ofLanes 512 fm.bits fun _ => 2 ^ (fm.bits - 1)
     let acc := accumulator v row d ident
     fires (.fma a b d r p true f u) (if f then 2 else 1)
       (mapCodes fm (fun x y z => roundIeee fm (rmOf u) (((valOf fm x).mul (valOf fm y)).add (rmOf u) (valOf fm z)))
         x.tok.data y.tok.data acc) acc)

/-- R48, R121, R179, R223: the targets of a result: a latch; the MN's activation port and a neighbour's input port at the end of the
cycle; SD, when it is empty; the conversion route, with the lowest tag of its lane-count class that the row accepts.
Where it rests on a choice of the model: log 9. -/
def Obligations.TargetsOfAResult : Prop :=
  ∀ (s : State) (c e q : Nat) (d : BitVec 4) (i : Fin 4) (t : Token),
    (d.toNat < 8 → ∃ u, s.emit c d 0 t = u ∧ VeBecomes s u c { s.ve c with latches := put none (s.ve c).latches d.toNat (some t) }) ∧
    (∃ f, s.emit c 8 0 t = { s with scratch := { s.scratch with sends := s.scratch.sends ++ [⟨c, 4, t, f⟩] } }) ∧
    ((s.ve c).sd = none → ∃ u, s.emit c 9 0 t = u ∧ VeBecomes s u c { s.ve c with sd := some t }) ∧
    ((s.ve c).sd ≠ none → s.emit c 9 0 t = s.addFault c false 0x14 (0x05#8 ++ (0#24 ++ (0#32)))) ∧
    (isMarker t = false → descConv (s.island ((s.islandOf c).getD 0)).desc ≠ 0x7F → (s.islandOf c).isSome → ∀ g,
      conversionTag (s.veRow c).tags t.tag = some g →
      ∃ u, s.emit c 10 0 t = u ∧ VeBecomes s u c { s.ve c with cnv := (s.ve c).cnv ++ [convertToken t g] }) ∧
    (s.emit c 15 0 t = s) ∧
    (s.route c i.val = .inside e q →
      ∃ f, s.emit c 15 (BitVec.ofNat 4 (2 ^ (3 - i.val))) t =
        { s with scratch := { s.scratch with sends := s.scratch.sends ++ [⟨e, q, t, f⟩] } }) ∧
    (s.route c i.val = .stream q →
      s.emit c 15 (BitVec.ofNat 4 (2 ^ (3 - i.val))) t = s.setPort q { s.port q with toks := (s.port q).toks ++ [t] }) ∧
    (s.route c i.val = .dropped → s.emit c 15 (BitVec.ofNat 4 (2 ^ (3 - i.val))) t = s) ∧
    (s.route c i.val = .nowhere → s.emit c 15 (BitVec.ofNat 4 (2 ^ (3 - i.val))) t = s.addFault c false 0x14 (0x02#8 ++ (0#24 ++ (0#32))))

/-! ### Memory, at a sequencer -/

/-- R225, R234, R236, R237, R240: LD, LDL, VRD and a satisfied LDV whose home is reached at once: the registers they write, and nothing
else but the cache and versions that R79 leaves undefined. Where it rests on a choice of the model: logs 32, 33, 141. -/
def Obligations.LoadsAtSequencer : Prop :=
  ∀ (s : State) (n : Nat) (a b d : BitVec 4) (o : BitVec 2) (sc w p : BitVec 3) (f : BitVec 8) (st : Bool) (t : Target),
    let k : Nat := 2 ^ w.toNat
    let base (x : BitVec 4) (m : Nat) : W64 := (s.seq n).get x + BitVec.ofNat 64 (f.toNat * m)
    (SeqRuns (.ld b d o sc w f) always s n → s.mayRelease n o sc → Reaches s n { ea := base b k, op := .load k, align := k } t →
      ∃ u, exec (.ld b d o sc w f) s = .next u ∧ Reads s u n ((s.seq n).set d ((s.mem.read t.la k).setWidth 64)).step t true) ∧
    (SeqRuns (.ldl b d o sc w f) always s n → s.mayRelease n o sc → Reaches s n { ea := base b 8, op := .load 8, align := 8 } t →
      let q := (s.seq n).set d ((s.mem.read t.la 8).setWidth 64)
      ∃ u, exec (.ldl b d o sc w f) s = .next u ∧ Reads s u n (q.set b (q.get d)).step t true) ∧
    (SeqRuns (.vrd a d o sc) always s n → s.mayRelease n o sc → Reaches s n { ea := (s.seq n).get a, op := .readVer, align := 64 } t →
      ∃ u, exec (.vrd a d o sc) s = .next u ∧ Reads s u n ((s.seq n).set d ((s.foundVer t).setWidth 64)).step t true) ∧
    (SeqRuns (.ldv a b d o sc w st p) always s n → s.mayRelease n o sc →
      Reaches s n { ea := (s.seq n).get a, op := .loadVer k (((s.seq n).get b).setWidth 16), align := k, status := st } t →
      (s.foundVer t - ((s.seq n).get b).setWidth 16).toNat < 32768 →
      ∃ u, exec (.ldv a b d o sc w st p) s = .next u ∧ Reads s u n
        (((((s.seq n).set d ((s.mem.read t.la k).setWidth 64)).set b ((s.foundVer t).setWidth 64)).outcome st p true).step) t true)

/-- R81, R82, R221, R234, R238, R246: ST, ZROL and STV with the next version: the bytes they write, the version of the line, and nothing
else of memory; STV with status writes the outcome code and its predicate. STV with a version already passed stores nothing.
Where it rests on a choice of the model: logs 32, 114, 141. -/
def Obligations.StoresAtSequencer : Prop :=
  ∀ (s : State) (n : Nat) (a b d : BitVec 4) (o : BitVec 2) (sc w p : BitVec 3) (f : BitVec 8) (st : Bool) (t : Target),
    let k : Nat := 2 ^ w.toNat
    let q := s.seq n
    let c := s.foundVer t
    let v : BitVec 16 := (q.get d).setWidth 16
    let y : Access := { ea := q.get a, op := .storeVer k v ((q.get b).setWidth 512), align := k, status := st }
    (SeqRuns (.st b d o sc w f) always s n → s.mayRelease n o sc →
      Reaches s n { ea := q.get b + BitVec.ofNat 64 (f.toNat * k), op := .store k ((q.get d).setWidth 512), align := k } t →
      ∃ u, exec (.st b d o sc w f) s = .next u ∧ Stores s u n q.step t k ((q.get d).setWidth 512)) ∧
    (SeqRuns (.zrol a o sc) always s n → s.mayRelease n o sc → Reaches s n { ea := q.get a, op := .zero, align := 64 } t →
      ∃ u, exec (.zrol a o sc) s = .next u ∧ Stores s u n q.step t 64 0) ∧
    (SeqRuns (.stv a b d o sc w st p) always s n → s.mayRelease n o sc → Reaches s n y t → v = c + 1 → t.ver = true →
      ∃ u, exec (.stv a b d o sc w st p) s = .next u ∧
        Stores s u n (((if st then q.set d 0 else q).outcome st p true).step) t k ((q.get b).setWidth 512)) ∧
    (SeqRuns (.stv a b d o sc w st p) always s n → s.mayRelease n o sc → Reaches s n y t → v = c ∨ 32768 < (v - c).toNat →
      ∃ u, exec (.stv a b d o sc w st p) s = .next u ∧
        Reads s u n (((if st then q.set d 2 else q).outcome st p true).step) t false)

/-- R249, R250, R252, R381: a single-word atomic and MCAS write what Table 3 gives, at one instant, when they write; G[d] receives the old
value, zero-extended; a comparison that fails and an AMMAX that does not raise the value leave memory alone. -/
def Obligations.AtomicsAtSequencer : Prop :=
  ∀ (s : State) (n : Nat) (a b d : BitVec 4) (o : BitVec 2) (sc w p : BitVec 3) (st : Bool) (t : Target),
    let q := s.seq n
    let at_ (i : Instr) (op : MemOp) (k : Nat) (fits : Bool) : Prop := SeqRuns i always s n ∧ s.mayRelease n o sc ∧
      Reaches s n { ea := q.get a, op := op, align := k, status := st, hbmOnly := fits } t
    (∀ e ∈ atomicForms a b d o sc w st p, at_ e.1 (.atom e.2.1 e.2.2.1 (q.get b) 0) e.2.2.1 false →
      let old : W64 := (s.mem.read t.la e.2.2.1).setWidth 64
      ∃ u, exec e.1 s = .next u ∧ Stores s u n (((q.set d old).outcome st p true).step) t e.2.2.1 ((e.2.2.2 old (q.get b)).setWidth 512)) ∧
    (at_ (.ammax a b d o sc w st p) (.atom .maxu (2 ^ w.toNat) (q.get b) 0) (2 ^ w.toNat) false →
      let old : W64 := (s.mem.read t.la (2 ^ w.toNat)).setWidth 64
      let v := (q.get b).toNat % 2 ^ (8 * 2 ^ w.toNat)
      let q' := ((q.set d old).outcome st p true).step
      ∃ u, exec (.ammax a b d o sc w st p) s = .next u ∧
        if old.toNat < v then Stores s u n q' t (2 ^ w.toNat) (BitVec.ofNat 512 v) else Reads s u n q' t true) ∧
    (at_ (.acas a b d o sc w st p) (.atom .cas (2 ^ w.toNat) (q.get b) (q.get d)) (2 ^ w.toNat) false →
      let old : W64 := (s.mem.read t.la (2 ^ w.toNat)).setWidth 64
      let same := decide (old.toNat = (q.get d).toNat % 2 ^ (8 * 2 ^ w.toNat))
      let q' := ((q.set d old).outcome st p same).step
      ∃ u, exec (.acas a b d o sc w st p) s = .next u ∧
        if same then Stores s u n q' t (2 ^ w.toNat) ((q.get b).setWidth 512) else Reads s u n q' t true) ∧
    (at_ (.mcas a b d o sc w st p) (.near (.mcas (2 ^ w.toNat / 8) (q.words b (2 ^ w.toNat / 8)) (q.words d (2 ^ w.toNat / 8))))
        (2 ^ w.toNat) true → s.homeRefusal t (s.seqIssuer n).part (.load 8) = none →
      let m := 2 ^ w.toNat / 8
      let cur := s.mem.read t.la (8 * m)
      let same := decide (cur = (q.words b m).setWidth 512)
      let q' := ((if same then q else q.setWords b m cur).outcome st p same).step
      ∃ u, exec (.mcas a b d o sc w st p) s = .next u ∧
        if same then Stores s u n q' t (8 * m) ((q.words d m).setWidth 512) else Reads s u n q' t true)

/-- R82, R87, R255, R256: RECL ends what waits on its line and sets its version; ABAR at a barrier line: arrivals that stay within PENDING,
expectations, and a wait whose phase is over; an arrival beyond PENDING changes nothing but the predicate of its status form. The cycle of
an expectation is kept for R257. Where it rests on a choice of the model: logs 32, 33. -/
def Obligations.BarriersAndReclaim : Prop :=
  ∀ (s : State) (n : Nat) (a b d : BitVec 4) (o : BitVec 2) (sc p : BitVec 3) (st : Bool) (t : Target),
    let q := s.seq n
    let l := lineOf t.la
    let pending := (s.mem.read (t.la + 4) 4).toNat
    let initial : BitVec 32 := (s.mem.read (t.la + 8) 4).setWidth 32
    let phase : BitVec 16 := (s.mem.read t.la 2).setWidth 16
    let kept : BitVec 16 := (s.mem.read (t.la + 2) 2).setWidth 16
    let m := (q.get b).toNat
    let bar (x : BitVec 3) (op : MemOp) : Prop := SeqRuns (.abar a b d o sc x st p) always s n ∧ s.mayRelease n o sc ∧
      Reaches s n { ea := q.get a, op := op, align := 64, status := st } t ∧ t.la % 64 = 0
    let q' := ((q.set d (phase.setWidth 64)).outcome st p true).step
    (bar 0 (.arrive (q.get b)) → m ≤ pending →
      let line : W64 := (if m = pending then initial else BitVec.ofNat 32 (pending - m)) ++
        (kept ++ (if m = pending then phase + 1 else phase))
      ∃ u, exec (.abar a b d o sc 0 st p) s = .next u ∧ Stores s u n q' t 8 (line.setWidth 512)) ∧
    (bar 0 (.arrive (q.get b)) → pending < m → st = true →
      ∃ u, exec (.abar a b d o sc 0 st p) s = .next u ∧ SeqBecomes s u n (q.outcome st p false).step) ∧
    (bar 1 (.expect (q.get b)) →
      let line : W64 := BitVec.ofNat 32 (min (pending + m) (2 ^ 32 - 1)) ++ (kept ++ phase)
      ∃ u, exec (.abar a b d o sc 1 st p) s = .next u ∧ u.mem.expected = put 0 s.mem.expected l (s.cycle.toNat + 1) ∧
        Stores s { u with mem := { u.mem with expected := s.mem.expected } } n q' t 8 (line.setWidth 512)) ∧
    (bar 2 (.phase ((q.get b).setWidth 16)) → (phase - ((q.get b).setWidth 16 + 1)).toNat < 32768 →
      ∃ u, exec (.abar a b d o sc 2 st p) s = .next u ∧ SeqBecomes s u n q') ∧
    (SeqRuns (.recl a b d) always s n → Reaches s n { ea := q.get a, op := .reclaim ((q.get b).setWidth 16), align := 64 } t →
      ∃ u, exec (.recl a b d) s = .next u ∧
        u.seq n = (q.set d (BitVec.ofNat 64 (s.mem.staged.filter fun e => e.line == l).length)).step ∧ (∀ k, k ≠ n → u.seq k = s.seq k) ∧
        u.mem.ver l = (q.get b).setWidth 16 ∧
        (∀ k, k ≠ l → s.versionsStand t ∨ k / 512 ≠ frameOf t.la → u.mem.ver k = s.mem.ver k) ∧
        u.mem.staged = s.mem.staged.filter (fun e => e.line != l) ∧ (∀ x, u.mem.byte x = s.mem.byte x) ∧
        u = { s with seqs := u.seqs, free := u.free,
                     mem := { s.mem with staged := u.mem.staged, due := u.mem.due, vers := u.mem.vers, unver := u.mem.unver,
                                         chain := u.mem.chain } })

/-- R251, R253: ENQ on a full list, on an empty one, and behind a tail: the descriptor's HEAD, TAIL and COUNT, the node's link and the old
tail's, and no other byte. Where it rests on a choice of the model: log 17. -/
def Obligations.EnqueueNode : Prop :=
  ∀ (s : State) (n : Nat) (a b d : BitVec 4) (o : BitVec 2) (sc p : BitVec 3) (st : Bool) (t x y : Target),
    let q := s.seq n
    let i : Instr := .enq a b d o sc st p
    let u : Nmu := { page := t, base := q.get a }
    let part := (s.seqIssuer n).part
    let head : W64 := (s.mem.read t.la 8).setWidth 64
    let tail : W64 := (s.mem.read (t.la + 8) 8).setWidth 64
    let count := (s.mem.read (t.la + 16) 4).toNat
    let limit := (s.mem.read (t.la + 20) 4).toNat
    let goes : Prop := SeqRuns i always s n ∧ s.mayRelease n o sc ∧
      Reaches s n { ea := q.get a, op := .near (.enq (q.get b)), align := 64, status := st, hbmOnly := true } t ∧
      s.homeRefusal t part (.load 8) = none
    let node (z : Target) : Prop := lineOf z.la ≠ lineOf t.la ∧ s.lineHeld z = false ∧ s.homeRefusal z part (.load 8) = none ∧
      s.mem.chain.contains (lineOf z.la) = false ∧ z.la % 8 = 0 ∧ inHbm z.la = true
    (goes → limit ≤ count → ∃ v, exec i s = .next v ∧ Reads s v n (q.outcome st p false).step t false) ∧
    (goes → count < limit → tail = 0 → u.at (q.get b) = some x → node x →
      ∃ v, exec i s = .next v ∧ v.seq n = ((q.set d 0).outcome st p true).step ∧ (∀ k, k ≠ n → v.seq k = s.seq k) ∧
        v.mem.read t.la 8 = (q.get b).setWidth 512 ∧ v.mem.read (t.la + 8) 8 = (q.get b).setWidth 512 ∧
        v.mem.read (t.la + 16) 4 = BitVec.ofNat 512 (count + 1) ∧ v.mem.read x.la 8 = 0 ∧
        (∀ k, (k < t.la ∨ t.la + 20 ≤ k) → (k < x.la ∨ x.la + 8 ≤ k) → v.mem.byte k = s.mem.byte k)) ∧
    (goes → count < limit → tail ≠ 0 → u.at (q.get b) = some x → node x → u.at tail = some y → node y → lineOf x.la ≠ lineOf y.la →
      ∃ v, exec i s = .next v ∧ v.seq n = ((q.set d tail).outcome st p true).step ∧ (∀ k, k ≠ n → v.seq k = s.seq k) ∧
        v.mem.read t.la 8 = head.setWidth 512 ∧ v.mem.read (t.la + 8) 8 = (q.get b).setWidth 512 ∧
        v.mem.read (t.la + 16) 4 = BitVec.ofNat 512 (count + 1) ∧ v.mem.read x.la 8 = 0 ∧ v.mem.read y.la 8 = (q.get b).setWidth 512 ∧
        (∀ k, (k < t.la ∨ t.la + 20 ≤ k) → (k < x.la ∨ x.la + 8 ≤ k) → (k < y.la ∨ y.la + 8 ≤ k) → v.mem.byte k = s.mem.byte k))

/-- R254: CHASE: a null pointer, a key found at the first node, a list that ends there, and a single hop: the pointer left in G[d], the
predicate, and nothing else but the cache and versions that R79 leaves undefined; a control with a reserved bit or a hop count out of range
is an operand fault. Where it rests on a choice of the model: logs 17, 32, 38, 141. -/
def Obligations.ChaseList : Prop :=
  ∀ (s : State) (n : Nat) (a b d : BitVec 4) (o : BitVec 2) (sc p : BitVec 3) (st : Bool) (t kt lt : Target),
    let q := s.seq n
    let i : Instr := .chase a b d o sc st p
    let ctl := q.get b
    let hops : BitVec 5 := ctl.setWidth 5
    let keyed := ctl.getLsbD 5
    let legal : Bool := ctl.extractLsb' 24 8 == 0 && ctl.extractLsb' 6 2 == 0 && hops != 0 && decide (hops.toNat ≤ 16)
    let u : Nmu := { page := t, base := q.get a }
    let free (z : Target) : Prop := s.lineHeld z = false ∧ s.homeRefusal z (s.seqIssuer n).part (.load 8) = none ∧
      s.mem.chain.contains (lineOf z.la) = false
    let begins : Prop := SeqRuns i always s n ∧ s.mayRelease n o sc
    let keyVa := q.get a + BitVec.ofNat 64 (4 * (ctl.extractLsb' 16 8).toNat)
    let linkVa := q.get a + BitVec.ofNat 64 (8 * (ctl.extractLsb' 8 8).toNat)
    let finds : Prop := begins ∧ legal = true ∧ q.get a ≠ 0 ∧ (q.get a).toNat % 8 = 0 ∧
      Reaches s n { ea := q.get a, op := .near (.chase ctl), align := 1, status := st, hbmOnly := true } t ∧
      u.at (q.get a) = some t ∧ (keyed = true → u.field keyVa = some kt ∧ free kt)
    let links : Prop := (if keyed then ({ page := kt, base := keyVa } : Nmu) else u).at linkVa = some lt ∧ free lt
    let leaves (v : State) (r : Seq) : Prop := v.seq n = r ∧ (∀ k, k ≠ n → v.seq k = s.seq k) ∧
      (s.versionsStand t → s.versionsStand kt → s.versionsStand lt → v.mem.vers = s.mem.vers) ∧
      v = { s with seqs := v.seqs, free := v.free,
                   mem := { s.mem with vers := v.mem.vers, unver := v.mem.unver, l2 := v.mem.l2 } }
    let found := keyed && (s.mem.read kt.la 4).setWidth 32 == ctl.extractLsb' 32 32
    let link : W64 := (s.mem.read lt.la 8).setWidth 64
    (begins → legal = false →
      exec i s = .next (s.setSeq n (q.trapEntry 0x0105 q.pc ((wordOf i).setWidth 64) 0))) ∧
    (begins → legal = true → q.get a = 0 → ∃ v, exec i s = .next v ∧ SeqBecomes s v n ((q.set d 0).outcome st p false).step) ∧
    (finds → found = true → ∃ v, exec i s = .next v ∧ leaves v ((q.set d (q.get a)).outcome st p true).step) ∧
    (finds → found = false → links → link = 0 → ∃ v, exec i s = .next v ∧ leaves v ((q.set d (q.get a)).outcome st p false).step) ∧
    (finds → found = false → links → link ≠ 0 → hops = 1 →
      ∃ v, exec i s = .next v ∧ leaves v ((q.set d link).outcome st p (!keyed)).step)

/-! ### Memory, at a vector element -/

/-- R221 to R224, R226: a memory row of a VE that finds its operands and need not wait takes the last entry of the reply queue and sends
its accesses; R236: LDL takes its address from the link register when that is valid; R235: PREF takes no entry, and asks the line's slice, here
or on another chip, to fetch it. Where it rests on a choice of the model: logs 34, 141. -/
def Obligations.MemoryRowsIssue : Prop :=
  ∀ (s : State) (c : Nat) (a b d : BitVec 4) (o : BitVec 2) (sc w p x : BitVec 3) (f : BitVec 8) (t : Bool) (ops : List Operand),
    let s' := s.consume c ops
    let v := s.ve c
    let sends (i : Instr) (reply link : Bool) (o : BitVec 2) (sc : BitVec 3) (l : List (W64 × MemOp × Nat)) : Prop :=
      ∃ e r, exec i s = .next (s'.issues c e r) ∧
        e.wantsX = reply ∧ e.acquire = o.getLsbD 0 ∧ e.link = link ∧ e.left = l.length ∧ e.tok = ⟨0, 0, resultRound v ops⟩ ∧
        (∀ y ∈ (s'.ve c).replies, y.num < e.num) ∧ r.map (fun q => (q.ea, q.op, q.elem)) = l ∧
        ∀ q ∈ r, q.iss = s'.veIssuer c ∧ q.entry = some e.num ∧ q.ord = o ∧ q.scope = sc
    let fetches (x u : State) (iss : Issuer) (ea : W64) : Prop :=
      u = { x with links := u.links, mem := { x.mem with l2 := u.mem.l2 } } ∧
      ((∀ t, x.resolve iss.cluster iss ea 64 { rd := true } = .ok t → inHbm t.la = false) → u = x) ∧
      ∀ t, x.resolve iss.cluster iss ea 64 { rd := true } = .ok t → inHbm t.la = true →
        (t.chip = x.chipId → u.links = x.links ∧
          u.mem.l2 = if x.homeRefusal t iss.part (.load 64) = none then (x.cache t iss.part false).mem.l2 else x.mem.l2) ∧
        (t.chip ≠ x.chipId → u.mem.l2 = x.mem.l2 ∧ (x.routed t.chip = false → u.links = x.links) ∧
          (x.routed t.chip = true → ∃ z id, (look {} u.links.pairs t.chip).waiting = (look {} x.links.pairs t.chip).waiting ++ [z] ∧
            z.1.dst = t.chip ∧ z.1.body = accessBody t iss.part .prefetch ea id))
    (∀ e ∈ memoryRows s c a b d o sc w p x f t, VeRuns e.1 always s c → s.veMayIssue c e.2.2.1 e.2.2.2.1 → Finds s c e.2.1 0 ops →
      sends e.1 e.2.2.2.2.1 false e.2.2.1 e.2.2.2.1 (e.2.2.2.2.2 ops)) ∧
    (VeRuns (.ldl b d o sc w f) always s c → s.veMayIssue c o sc → (∀ y ∈ v.replies, y.link = true → y.left = 0) →
      Finds s c (if v.linkValid then [] else [s.readSel c b]) 0 ops →
      let base : W64 := if v.linkValid then v.link else lane (opnd ops 0).data 64 0
      sends (.ldl b d o sc w f) true true o sc [(base + BitVec.ofNat 64 (f.toNat * 2 ^ w.toNat), .load (2 ^ w.toNat), 0)]) ∧
    let off := BitVec.ofNat 64 (f.toNat * 64)
    (VeRuns (.pref b f) always s c → s.veMustWait c false 0 0 = false → Finds s c [s.readSel c b] 0 ops →
      ∃ u, exec (.pref b f) s = .next u ∧ fetches s' u (s'.veIssuer c) (lane (opnd ops 0).data 64 0 + off)) ∧
    (SeqRuns (.pref b f) always s c →
      ∃ x u, exec (.pref b f) s = .next u ∧ fetches s x (s.seqIssuer c) ((s.seq c).get b + off) ∧ SeqBecomes x u c (s.seq c).step)

/-! ### Matrix node -/

/-- R75, R200, R202, R400: WCLM, WREL and WSTAT at an MN, and WSTAT at a sequencer, with its reserved bits; a sixteenth claim and a release
without a claim are slot faults. Where it rests on a choice of the model: log 40. -/
def Obligations.OperandSlotForms : Prop :=
  ∀ (s : State) (k : Nat) (c m : BitVec 3) (n : BitVec 5) (t : BitVec 2) (a d : BitVec 4) (h : Bool) (word : Word),
    let x := (s.mn k).slot n.toNat
    (word.extractLsb' 24 8 = 0x92#8 → word.extractLsb' 19 5 ≠ 0#5 ∨ word.extractLsb' 12 4 ≠ 0#4 → decode true word = .bad .reservedBits) ∧
    (word.extractLsb' 24 8 = 0x92#8 → word.extractLsb' 20 4 ≠ 0#4 ∨ word.extractLsb' 6 6 ≠ 0#6 → decode false word = .bad .reservedBits) ∧
    let becomes (i : Instr) (y : Slot) : Prop :=
      ∃ u, exec i s = .next u ∧ MnBecomes s u k { s.mn k with slots := put {} (s.mn k).slots n.toNat y }
    let fault (i : Instr) : Prop := exec i s = .next (s.addFault k true 0x18 (0#52 ++ (x.claims ++ (0#3 ++ n))))
    (MnRuns (.wclm c n) (cpHolds c) s k → x.pend = false → (x.state = 1 → x.claiming = false) →
      (x.claims ≠ 15 → becomes (.wclm c n) { x with claims := x.claims + 1, claiming := false }) ∧ (x.claims = 15 → fault (.wclm c n))) ∧
    (MnRuns (.wclm c n) (cpHolds c) s k → x.pend = true ∨ (x.state = 1 ∧ x.claiming = true) →
      let s1 := s.addStall 3
      exec (.wclm c n) s = .next { s1 with scratch := { s1.scratch with claims := s1.scratch.claims ++ [(k, n)] } }) ∧
    (MnRuns (.wrel c n) (cpHolds c) s k →
      (x.claims ≠ 0 → becomes (.wrel c n) { x with claims := x.claims - 1 }) ∧ (x.claims = 0 → fault (.wrel c n))) ∧
    (MnRuns (.wstatMn m t n) (cpHolds 7) s k → ∃ u, exec (.wstatMn m t n) s = .next u ∧ MnBecomes s u k
      { s.mn k with
        preds := predSet (s.mn k).preds m
          (if t = 0 then decide (x.state = 2 ∧ x.pend = false) else if t = 1 then x.pend else if t = 2 then decide (x.claims ≠ 0)
           else x.mirror) }) ∧
    (SeqRuns (.wstatSeq d a h n) always s k →
      let core := ((s.seq k).get a).toNat % 2048
      let y := (s.mn core).slot n.toNat
      let bits : BitVec 128 := 0#6 ++ (y.gpa ++ (y.kh ++ (0#5 ++ (BitVec.ofBool y.pend ++ (y.state ++ (y.claims ++
        (BitVec.ofBool y.mirror ++ (y.len ++ 0#26))))))))
      let v : BitVec 128 := if core < 1536 ∧ s.coreOwner core = (s.seq k).part then bits else 0
      ∃ u, exec (.wstatSeq d a h n) s = .next u ∧
        SeqBecomes s u k ((s.seq k).set d (if h then v.extractLsb' 64 64 else v.setWidth 64)).step)

/-- R194, R198, R201, R203, R205, R206: PXD queues a decode of its slot into a buffer that starts empty; PTLD fires when its load is done and
freezes until then; LDRS and LDCS load sixteen scales, or all of them, and consume act; a marker at act is
consumed in their place, and one of a reserved kind faults. Where it rests on a choice of the model: log 54. -/
def Obligations.DecodeAndScaleForms : Prop :=
  ∀ (s : State) (k : Nat) (n : BitVec 5) (b r h bc : Bool) (t q : BitVec 2) (c : BitVec 3) (o : Token),
    let m := s.mn k
    let x := m.slot n.toNat
    let held : Prop := m.act = some o ∧ m.actBack = none ∧ m.actSteering = false
    let accepts : Prop := isMarker o = false ∧ (s.mnRow k).tags.getLsbD o.tag.toNat = true
    let loaded (old new : Tab Word) : Prop := ∀ j < 64,
      look 0 new j = if bc then lane o.data 32 0 else if j / 16 = q.toNat then lane o.data 32 (j % 16) else look 0 old j
    (MnRuns (.pxd n b r c) (cpHolds c) s k → x.claims ≠ 0 → m.queue = [] → s.kernelBars k x.kh = false →
      ∃ u, exec (.pxd n b r c) s = .next u ∧ MnBecomes s u k
        { m with slots := put {} m.slots n.toNat { x with holds := x.holds + 1 }, queue := [{ slot := n, buf := b, rst := r }],
                 buffers := put {} m.buffers b.toNat { slot := n, kh := x.kh } }) ∧
    (MnRuns (.pxd n b r c) (cpHolds c) s k → x.claims = 0 →
      exec (.pxd n b r c) s = .next (s.addFault k true 0x18 (0#52 ++ (x.claims ++ (0#3 ++ n))))) ∧
    (MnRuns (.pxd n b r c) (cpHolds c) s k → x.claims ≠ 0 → 2 ≤ (m.queue.filter fun e => e.buf != b).length →
      exec (.pxd n b r c) s = .next (s.addStall 3)) ∧
    (MnRuns (.ptld n t h c) (cpHolds c) s k → m.ptld = .done →
      ∃ u, exec (.ptld n t h c) s = .next u ∧ MnBecomes s u k { m with ptld := .none }) ∧
    (MnRuns (.ptld n t h c) (cpHolds c) s k → m.ptld = .none ∨ m.ptld = .waiting → x.claims ≠ 0 → s.kernelBars k x.kh = false →
      let s1 := s.addStall 3
      exec (.ptld n t h c) s = .next { s1 with scratch := { s1.scratch with ptlds := s1.scratch.ptlds ++ [k] } }) ∧
    (MnRuns (.ldrs q bc c) (cpHolds c) s k → held → accepts →
      ∃ u l, exec (.ldrs q bc c) s = .next u ∧ MnBecomes s u k { m with act := none, rowScale := l } ∧ loaded m.rowScale l) ∧
    (MnRuns (.ldcs q bc c) (cpHolds c) s k → held → accepts →
      ∃ u l, exec (.ldcs q bc c) s = .next u ∧ MnBecomes s u k { m with act := none, colScale := l } ∧ loaded m.colScale l) ∧
    (MnRuns (.ldrs q bc c) (cpHolds c) s k → held → isMarker o = true → reservedMarker o = false →
      ∃ u, exec (.ldrs q bc c) s = .next u ∧
        MnBecomes s u k { m with act := none, rnd := if markerKind o = 1 then m.rnd + 1 else m.rnd }) ∧
    (MnRuns (.ldrs q bc c) (cpHolds c) s k → held → reservedMarker o = true →
      exec (.ldrs q bc c) s = .next (s.addFault k true 0x14 (schedVal 7)))

/-- R115, R194, R195, R208 to R211: an MMA whose waits and checks have passed consumes act and adds its products to the row that IC[i]
names: of the accumulator, in 32-bit integers, or of the handle's open block, exactly; with PROM set the block is promoted at once.
A marker at act is consumed instead. Where it rests on a choice of the model: logs 43, 54. -/
def Obligations.MultiplyAccumulate : Prop :=
  ∀ (s : State) (k slot : Nat) (d i : BitVec 2) (y c : BitVec 3) (b h r n : Bool) (t : Token),
    let m := s.mn k
    let ins : Instr := .mma 8 d y b h r i n c
    let row := (look {} m.ics i.toNat : Counter).count.toNat % 64
    let image := (m.buffer b).data
    let p := pairRow y
    let ob : OpenBlock := (m.block d row).getD { pair := y, count := 0, sums := [], flags := [] }
    let counters : Tab Counter := if n then put {} m.ics i.toNat (look {} m.ics i.toNat : Counter).advance.1 else m.ics
    let ready : Prop := m.act = some t ∧ m.actBack = none ∧ m.actSteering = false ∧ isMarker t = false ∧
      (s.mnRow k).tags.getLsbD t.tag.toNat = true ∧ m.span b (spanEnd y h) = .ready ∧ m.occupied = false ∧
      s.kernelBars k (m.buffer b).kh = false ∧ (m.buffer b).fmt = some p.wf.tag ∧ m.handle d = { slot := some slot, i32 := p.i32 } ∧
      ∀ o, m.block d row = some o → o.pair = y ∧ o.count + p.len ≤ p.limit
    let sums := (List.range 64).map fun j => addColumn p t.data image (if y = 3 ∧ h then 64 else 0) j (ob.sums.getD j 0, ob.flags.getD j 0)
    (MnRuns ins (cpHolds c) s k → ready → y = 6 → r = false →
      ∃ u m', exec ins s = .next u ∧ MnBecomes s u k { m with act := none, ics := counters, acc := m' } ∧
        (∀ j < 64, lane (look 0 m' (64 * slot + row) : BitVec 2048) 32 j = lane (m.accRow slot row) 32 j + BitVec.ofInt 32
          (((List.range 64).map fun l => (lane t.data 8 l).toInt * (lane image 8 (64 * l + j)).toInt).sum)) ∧
        ∀ e, e ≠ 64 * slot + row → look 0 m' e = look 0 m.acc e) ∧
    (MnRuns ins (cpHolds c) s k → ready → y.toNat < 6 → r = false →
      ∃ u, exec ins s = .next u ∧ MnBecomes s u k
        { m with act := none, ics := counters, occupied := decide (y = 5)
                 blocks := put none m.blocks (64 * d.toNat + row)
                   (some { pair := y, count := ob.count + p.len, sums := sums.map (·.1), flags := sums.map (·.2) }) }) ∧
    (MnRuns ins (cpHolds c) s k → ready → y.toNat < 6 → r = true →
      ∃ u m' l, exec ins s = .next u ∧
        MnBecomes s u k { m with act := none, ics := counters, occupied := decide (y = 5), blocks := l, acc := m' } ∧
        look none l (64 * d.toNat + row) = none ∧ (∀ e, e ≠ 64 * d.toNat + row → look none l e = look none m.blocks e) ∧
        (∀ e, e ≠ 64 * slot + row → look 0 m' e = look 0 m.acc e) ∧
        ∀ j < 64, lane (look 0 m' (64 * slot + row) : BitVec 2048) 32 j = BitVec.ofNat 32
          (promoteCode (lane (m.accRow slot row) 32 j).toNat (blockCode (sums.map (·.1))[j]! (sums.map (·.2))[j]!)
            (look 0 m.rowScale row).toNat (look 0 m.colScale j).toNat)) ∧
    (MnRuns ins (cpHolds c) s k → m.act = some t → m.actBack = none → m.actSteering = false → isMarker t = true →
      reservedMarker t = false →
      ∃ u, exec ins s = .next u ∧ MnBecomes s u k { m with act := none, rnd := if markerKind t = 1 then m.rnd + 1 else m.rnd }) ∧
    (MnRuns ins (cpHolds c) s k → m.act = some t → m.actBack = none → m.actSteering = false → reservedMarker t = true →
      exec ins s = .next (s.addFault k true 0x14 (schedVal 7)))

/-- R77, R78, R112, R212 to R215: PROM promotes every open block of a handle; ADRN puts a quarter or a half of a row into the drain stage and
may zero it; AZER zeroes the accumulator and drops the open blocks; AREL unbinds the handle and frees its slot. Each is an accumulator
fault on an unbound handle. -/
def Obligations.AccumulatorForms : Prop :=
  ∀ (s : State) (k slot : Nat) (d q i : BitVec 2) (c : BitVec 3) (f z n : Bool),
    let m := s.mn k
    let row := (look {} m.ics i.toNat : Counter).count.toNat % 64
    let isl := s.island ((s.islandOf k).getD 0)
    let counters : Tab Counter := if n then put {} m.ics i.toNat (look {} m.ics i.toNat : Counter).advance.1 else m.ics
    let unbound (j : Instr) : Prop := m.handle d = {} → exec j s = .next (s.addFault k true 0x19 (d.setWidth 64))
    let cleared (l l' : Tab (Option OpenBlock)) : Prop := ∀ e, look none l' e = if e / 64 = d.toNat then none else look none l e
    (MnRuns (.prom d c) (cpHolds c) s k → unbound (.prom d c) ∧ ((m.handle d).slot = some slot →
      ∃ u l b, exec (.prom d c) s = .next u ∧ MnBecomes s u k { m with acc := l, blocks := b } ∧ cleared m.blocks b ∧
        (∀ e, e / 64 ≠ slot → look 0 l e = look 0 m.acc e) ∧
        ∀ r < 64, ∀ j < 64, lane (look 0 l (64 * slot + r) : BitVec 2048) 32 j =
          match m.block d r with
          | some o => BitVec.ofNat 32 (promoteCode (lane (m.accRow slot r) 32 j).toNat (blockCode (o.sums.getD j 0) (o.flags.getD j 0))
              (look 0 m.rowScale r).toNat (look 0 m.colScale j).toNat)
          | none => lane (m.accRow slot r) 32 j)) ∧
    (MnRuns (.adrn d q f z i n c) (cpHolds c) s k → unbound (.adrn d q f z i n c) ∧
      ((m.handle d).slot = some slot → f = false →
        ∃ u v l, exec (.adrn d q f z i n c) s = .next u ∧
          MnBecomes s u k
            { m with ics := counters, acc := l
                     drainIn := some ({ data := v, tag := if (m.handle d).i32 then 0 else 1, rnd := m.rnd }, isl.cnt, isl.iter) } ∧
          (∀ j < 16, lane v 32 j = lane (m.accRow slot row) 32 (16 * q.toNat + j)) ∧
          (∀ e, e ≠ 64 * slot + row → look 0 l e = look 0 m.acc e) ∧
          ∀ j < 64, lane (look 0 l (64 * slot + row) : BitVec 2048) 32 j =
            if z ∧ j / 16 = q.toNat then 0 else lane (m.accRow slot row) 32 j) ∧
      ((m.handle d) = { slot := some slot, i32 := false } → f = true → q.toNat < 2 → z = false →
        ∃ u v, exec (.adrn d q f z i n c) s = .next u ∧
          MnBecomes s u k { m with ics := counters, drainIn := some ({ data := v, tag := 2, rnd := m.rnd }, isl.cnt, isl.iter) } ∧
          ∀ j < 32, lane v 16 j = BitVec.ofNat 16
            (Sys2Proof.Machine.cvt (valOf .fp32 (lane (m.accRow slot row) 32 (32 * q.toNat + j)).toNat) .bf16 .rne false))) ∧
    (MnRuns (.azer d c) (cpHolds c) s k → unbound (.azer d c) ∧ ((m.handle d).slot = some slot →
      ∃ u l b, exec (.azer d c) s = .next u ∧ MnBecomes s u k { m with acc := l, blocks := b } ∧ cleared m.blocks b ∧
        ∀ e, look 0 l e = if e / 64 = slot then 0 else look 0 m.acc e)) ∧
    (MnRuns (.arel d c) (cpHolds c) s k → unbound (.arel d c) ∧ ((m.handle d).slot = some slot → m.lost.contains slot = false →
      ∃ u b, exec (.arel d c) s = .next u ∧ cleared m.blocks b ∧ MnBecomes s u k
        (if m.drain = none ∧ m.drainIn = none then
           { m with blocks := b, handles := put {} m.handles d.toNat {}, free := m.free ++ [slot] }
         else { m with blocks := b, handles := put {} m.handles d.toNat {}, returning := m.returning ++ [slot] })))

/-! ### Control, registers and traps of a sequencer -/

/-- R126, R149 to R151: where NOP, B, BI, LOOP, WAITT, IDLE, CALL, CALLI and RET go and what they write; a push and a pop that are answered at
once; a target that cannot be fetched faults after the transfer's own effects. A wait that is not over keeps the sequencer at its word. -/
def Obligations.ControlTransfers : Prop :=
  (∀ (s : State) (n : Nat) (a d c : BitVec 4) (p : BitVec 3) (f : BitVec 20) (i : BitVec 16) (m : BitVec 8),
     let q := s.seq n
     let becomes (j : Instr) (q' : Seq) : Prop := ∃ t, exec j s = .next t ∧ SeqBecomes s t n q'
     let faults (j : Instr) (target : W64) (q : Seq) : Prop :=
       q.unack = false → ∃ t q', exec j s = .next t ∧ SeqBecomes s t n q' ∧ Traps q q' 0x0101 q.pc target 0
     let near := q.pc + (f.signExtend 64 <<< 2)
     let left := if q.get d = 0 then 0 else q.get d - 1
     let looped := if d ≠ 0 ∧ left ≠ 0 then q.pc + (i.signExtend 64 <<< 2) else q.pc + 4
     (SeqRuns (.nop p) (guarded p) s n → becomes (.nop p) q.step) ∧
     (SeqRuns (.b c f) (condHolds c) s n →
       (Fetchable near → becomes (.b c f) { q with pc := near, begun := false }) ∧ (¬ Fetchable near → faults (.b c f) near q)) ∧
     (s.actor = .seq n → Instr.wf (seqKind n) (.b c f) = true → condHolds c q.preds = false → becomes (.b c f) q.step) ∧
     (SeqRuns (.bi a p) (guarded p) s n →
       (Fetchable (q.get a) → becomes (.bi a p) { q with pc := q.get a, begun := false }) ∧ (¬ Fetchable (q.get a) → faults (.bi a p) (q.get a) q)) ∧
     (SeqRuns (.loop d i) always s n →
       (Fetchable looped → becomes (.loop d i) { q.set d left with pc := looped, begun := false }) ∧
       (¬ Fetchable looped → faults (.loop d i) looped (q.set d left))) ∧
     (SeqRuns (.waitt m) always s n → q.wait = none →
       becomes (.waitt m) (if q.tokens &&& m = 0 then q.step else { q with wait := some {} })) ∧
     (SeqRuns (.idle p) (guarded p) s n → q.wait = none →
       becomes (.idle p) (if q.event then { q with event := false }.step else { q with wait := some {} }))) ∧
  (∀ (s : State) (n : Nat) (a c : BitVec 4) (p : BitVec 3) (f : BitVec 20) (t : Target),
     let q := s.seq n
     let sp := q.get 15
     let back : BitVec 512 := (q.pc + 4).setWidth 512
     let near := q.pc + (f.signExtend 64 <<< 2)
     let pushes : Prop := Reaches s n { ea := sp - 8, op := .store 8 back, align := 8, noPark := true } t
     let pops : Prop := Reaches s n { ea := sp, op := .load 8, align := 8 } t
     let popped : W64 := (s.mem.read t.la 8).setWidth 64
     let calls (i : Instr) (target : W64) : Prop := Fetchable target →
       ∃ u, exec i s = .next u ∧ Stores s u n { q.set 15 (sp - 8) with pc := target, begun := false } t 8 back
     (SeqRuns (.call c f) (condHolds c) s n → pushes → calls (.call c f) near) ∧
     (SeqRuns (.calli a p) (guarded p) s n → pushes → calls (.calli a p) (q.get a)) ∧
     (SeqRuns (.ret p) (guarded p) s n → pops → Fetchable popped →
       ∃ u, exec (.ret p) s = .next u ∧ Reads s u n { q.set 15 (sp + 8) with pc := popped, begun := false } t true) ∧
     (SeqRuns (.ret p) (guarded p) s n → pops → ¬ Fetchable popped → q.unack = false →
       ∃ u q', exec (.ret p) s = .next u ∧ Reads s u n q' t true ∧ Traps (q.set 15 (sp + 8)) q' 0x0101 q.pc popped 0))

/-- R62, R152, R153: the CSR forms: G[d] receives the old value and the register the new one; a supervisor register at user level is a
privilege fault; a write of a read-only register is a CSR fault, and so is a number that names no register.
Where it rests on a choice of the model: log 94. -/
def Obligations.CsrForms : Prop :=
  ∀ (s : State) (n : Nat) (a d : BitVec 4) (i : BitVec 12),
    let q := s.seq n
    let allowed : Prop := i.getLsbD 11 = true → q.super = true
    let becomes (j : Instr) (q' : Seq) : Prop := ∃ t, exec j s = .next t ∧ SeqBecomes s t n q'
    let faults (j : Instr) (kind : BitVec 8) (v : W64) : Prop :=
      q.unack = false → ∃ t q', exec j s = .next t ∧ SeqBecomes s t n q' ∧ Traps q q' (1#8 ++ kind) q.pc v 0
    let forms : List Instr := [.csrr d i, .csrw d a i, .csrs d a i, .csrc d a i]
    (∀ old, (i, old) ∈ csrValues s n → allowed →
      (SeqRuns (.csrr d i) always s n → becomes (.csrr d i) (q.set d old).step) ∧
      (SeqRuns (.csrw d a i) always s n → ∀ q', (i, q') ∈ csrWrites q (q.get a) → becomes (.csrw d a i) (q'.set d old).step) ∧
      (SeqRuns (.csrs d a i) always s n → ∀ q', (i, q') ∈ csrWrites q (old ||| q.get a) → becomes (.csrs d a i) (q'.set d old).step) ∧
      (SeqRuns (.csrc d a i) always s n → ∀ q', (i, q') ∈ csrWrites q (old &&& ~~~(q.get a)) → becomes (.csrc d a i) (q'.set d old).step)) ∧
    (∀ j ∈ forms, SeqRuns j always s n → i.getLsbD 11 = true → q.super = false → faults j 0x03 ((wordOf j).setWidth 64)) ∧
    (∀ j ∈ forms.tail, SeqRuns j always s n → allowed → i.getLsbD 10 = true → faults j 0x04 (i.setWidth 64)) ∧
    (∀ j ∈ forms, SeqRuns j always s n → allowed → (∀ e ∈ csrValues s n, e.1 ≠ i) → i ≠ 0x400 → i ≠ 0x401 → faults j 0x04 (i.setWidth 64))

/-- R154, R155: SVC and TRAP enter the handler with their record in record 0, or halt the sequencer with record 1 when the last trap has
not been acknowledged; TACK acknowledges; TRET goes back to the recorded pc and level. After a fault of an island, it hands the fault to
Brass under the record's disposition: the island resumes, or its stage restarts, its gang is pre-empted or its task ends (R403). -/
def Obligations.TrapsAndReturns : Prop :=
  ∀ (s : State) (n k tk st : Nat) (a : BitVec 4) (p : BitVec 3) (i : BitVec 12) (f : FaultRec) (x : Task),
    let q := s.seq n
    let disp := q.tinfo0.extractLsb' 62 2
    let resumes : Prop := disp = 0 ∧ f.cause.setWidth 8 = (0x13 : BitVec 8)
    let enters (j : Instr) (cause : BitVec 16) (pc : W64) : Prop := SeqRuns j always s n →
      (q.unack = false → ∃ t q', exec j s = .next t ∧ SeqBecomes s t n q' ∧ Traps q q' cause pc (i.setWidth 64) (q.get a)) ∧
      (q.unack = true → ∃ t, exec j s = .next t ∧ SeqBecomes s t n
        { q with tcause1 := (if q.super then 1#64 <<< 63 else 0) ||| cause.setWidth 64, tpc1 := pc, tval1 := i.setWidth 64,
                 tinfo1 := q.get a, tmask1 := 0, r1v := true, run := .halted, begun := false })
    enters (.svc a i) 0x0001 (q.pc + 4) ∧
    enters (.trap a i) 0x0002 q.pc ∧
    (SeqRuns (.tack p) (guarded p) s n → q.super = true → ∃ t, exec (.tack p) s = .next t ∧ SeqBecomes s t n { q with unack := false }.step) ∧
    (SeqRuns (.tret p) (guarded p) s n → q.super = true → q.record0Isl = none →
      ∃ t, exec (.tret p) s = .next t ∧ t = { s with seqs := t.seqs } ∧ (∀ m, m ≠ n → t.seq m = s.seq m) ∧
        (t.seq n).run = q.run ∧ (t.seq n).pc = q.tpc0 ∧ (t.seq n).unack = false ∧ (t.seq n).super = q.tcause0.getLsbD 63 ∧
        (t.seq n).get 15 = (if q.tcause0.getLsbD 63 then q.get 15 else q.ssp) ∧
        (t.seq n).ssp = (if q.tcause0.getLsbD 63 then q.ssp else q.get 15) ∧ ∀ k, k ≠ 15 → (t.seq n).get k = q.get k) ∧
    (SeqRuns (.tret p) (guarded p) s n → q.super = true → q.record0Isl = some k → (s.island k).delivered = some f →
      ∃ t, exec (.tret p) s = .next t ∧ t.mem = s.mem ∧ (∀ m, m ≠ n → t.seq m = s.seq m) ∧ (∀ m, m ≠ k → t.island m = s.island m) ∧
        (t.seq n).pc = q.tpc0 ∧ (t.seq n).unack = false ∧ (t.island k).delivered = none ∧
        (resumes → (t.seq n).run = q.run ∧ (t.island k).hold = none ∧ (t.island k).trapped = false ∧ (t.island k).frzLen = 0 ∧
          t.brass = s.brass) ∧
        (¬resumes → (t.seq n).run = if disp = 2 then Run.saved else Run.stopped) ∧
        (¬resumes → (s.region (s.island k).region).owner = some (tk, st) → s.task tk = some x → st < x.stages.length →
          ∃ y, t.task tk = some y ∧ (disp = 1 → (y.stages[st]?).map (·.restart) = some true) ∧ (disp = 2 → y.preempt = true) ∧
            (disp ≠ 1 → disp ≠ 2 → y.ending = true ∧ (y.stages[st]?).bind (·.cause) = some (f.cause.setWidth 32))))

/-- R130, R155, R418: a supervisor word, TACK or TRET at user level, and a word that the sequencer does not accept, trap precisely: the
trap record holds the pc and the word, and nothing else of the word takes effect. -/
def Obligations.PrivilegeAndLegality : Prop :=
  ∀ (s : State) (n : Nat) (i : Instr) (a b d : BitVec 4) (p : BitVec 3) (r : Bool) (sc : BitVec 2),
    let q := s.seq n
    let faults (j : Instr) (cause : BitVec 16) : Prop :=
      ∃ t q', exec j s = .next t ∧ SeqBecomes s t n q' ∧ Traps q q' cause q.pc ((wordOf j).setWidth 64) 0
    s.actor = .seq n → q.unack = false →
      (∀ j ∈ [Instr.cfgld a b d, .bswap p a, .fold a, .rqsc p a r, .asids a, .xinv a b sc, .l2md d a, .scrb a b d],
        j.wf (seqKind n) = true → q.super = false → faults j 0x0103) ∧
      (∀ j ∈ [Instr.tack p, .tret p], j.wf (seqKind n) = true → q.super = false → predGet q.preds p = true → faults j 0x0103) ∧
      ((encode i).isSome = true → i.wf (seqKind n) = false → faults i 0x0102)

/-- R156 to R158, R305: FENCE lets the issuer's writes pass the egress point of its scope and waits until the issuer is quiet at that scope;
RSTPT records its restart point; SCANR reads the scan word of a core of a held island, but not of one that DRAIN alone holds, and zero of
another partition's core. Where it rests on a choice of the model: log 142. -/
def Obligations.FencesAndScans : Prop :=
  ∀ (s : State) (n k : Nat) (a d : BitVec 4) (o : BitVec 2) (sc : BitVec 3) (i : BitVec 12),
    let q := s.seq n
    let x := q.get a
    let idx := (x.extractLsb' 16 7).toNat
    let core := 96 * (x.extractLsb' 24 4).toNat + idx
    let becomes (j : Instr) (q' : Seq) : Prop := ∃ t, exec j s = .next t ∧ SeqBecomes s t n q'
    let passed := s.release (.seq n) sc.toNat
    let vePassed := s.release (.ve n) sc.toNat
    (SeqRuns (.fence o sc) always s n → s.mayRelease n o sc → becomes (.fence o sc) q.step) ∧
    (SeqRuns (.fence o sc) always s n → o.getLsbD 1 = true → q.wait = none →
      (passed.quiet (.seq n) sc.toNat = true → ∃ t, exec (.fence o sc) s = .next t ∧ SeqBecomes passed t n q.step) ∧
      (passed.quiet (.seq n) sc.toNat = false → ∃ t, exec (.fence o sc) s = .next t ∧ SeqBecomes passed t n { q with begun := true })) ∧
    (VeRuns (.fence o sc) always s n → (o.getLsbD 1 = true → s.quiet (.ve n) sc.toNat = true) →
      (o.getLsbD 0 = true → ∀ e ∈ (s.ve n).replies, e.wantsX = true → e.left = 0) → exec (.fence o sc) s = .next s) ∧
    (VeRuns (.fence o sc) always s n → o.getLsbD 1 = true → vePassed.quiet (.ve n) sc.toNat = false →
      exec (.fence o sc) s = .next (vePassed.addStall 0)) ∧
    (SeqRuns (.rstpt a i) always s n → becomes (.rstpt a i)
      { q with rstPc := (q.pc + 4).setWidth 16, rstTag := i, rstArg := q.get a, rstSp := q.get 15 }.step) ∧
    (SeqRuns (.scanr a d i) always s n → x.extractLsb' 28 36 = 0 → x.getLsbD 23 = false → idx < 96 →
      (s.coreOwner core = q.part → s.islandOf core = some k → (s.island k).hold ≠ none → (s.island k).hold ≠ some .drain →
        becomes (.scanr a d i) (q.set d (s.scan core (x.extractLsb' 12 4).toNat ((x.setWidth 12 : BitVec 12).toNat + i.toNat))).step) ∧
      (s.coreOwner core ≠ q.part → becomes (.scanr a d i) (q.set d 0).step) ∧
      (s.coreOwner core = q.part → s.islandOf core = some k → (s.island k).hold = none ∨ (s.island k).hold = some .drain → q.unack = false →
        ∃ t q', exec (.scanr a d i) s = .next t ∧ SeqBecomes s t n q' ∧ Traps q q' 0x0111 q.pc x 0))

/-! ### Instructions of several accesses -/

/-- R159, R221, R243 to R245, R259, R270: a sequencer makes the accesses of GATH, SCAT, CPYL, PATW, LAYW and PATR one after the other and
stays at its word; the last one completes the instruction. Where it rests on a choice of the model: logs 32, 109, 141. -/
def Obligations.SequencesOfAccesses : Prop :=
  ∀ (s : State) (n : Nat) (a b d : BitVec 4) (o : BitVec 2) (sc w : BitVec 3) (e : BitVec 5) (g : List Answer) (t : Target),
    let q := s.seq n
    let k : Nat := 2 ^ w.toNat
    let done : Seq := { q with wait := none }
    let element (i : Nat) : W64 := q.get a + BitVec.ofInt 64 ((k : Int) * (lane (q.get b) 8 i).toInt)
    let part (i : Nat) : BitVec 512 := ((q.get d) >>> (8 * k * i)).setWidth 512
    let stays (i : Instr) (x : Answer) : Prop :=
      ∃ u, exec i s = .next u ∧ Reads s u n { q with wait := some { got := g ++ [x] } } t true
    let low (x : Answer) : BitVec 128 := x.data.setWidth 128
    (SeqRuns (.gath a b d o sc w) always s n → s.begun n g → Open s n { ea := element g.length, op := .load k, align := k } t →
      (g.length + 1 < 8 / k → stays (.gath a b d o sc w) (s.loaded t k)) ∧
      (g.length + 1 = 8 / k → ∃ u v, exec (.gath a b d o sc w) s = .next u ∧ Reads s u n (done.set d v).step t true ∧
        ∀ i < 8 / k, lane v (8 * k) i = (((g ++ [s.loaded t k])[i]?).map fun x => x.data.setWidth (8 * k)).getD 0)) ∧
    (SeqRuns (.scat a b d o sc w) always s n → s.begun n g → g.length + 1 = 8 / k →
      Open s n { ea := element g.length, op := .store k (part g.length), align := k, elem := some g.length } t →
      ∃ u, exec (.scat a b d o sc w) s = .next u ∧ Stores s u n done.step t k (part g.length)) ∧
    (SeqRuns (.cpyl a b d o sc) always s n → s.mayRelease n o sc → Reaches s n { ea := q.get b, op := .load 64, align := 64 } t → g = [] →
      stays (.cpyl a b d o sc) (s.loaded t 64)) ∧
    (∀ x, g = [x] → SeqRuns (.cpyl a b d o sc) always s n → s.begun n g → Open s n { ea := q.get a, op := .store 64 x.data, align := 64 } t →
      ∃ u, exec (.cpyl a b d o sc) s = .next u ∧ Stores s u n done.step t 64 x.data) ∧
    (∀ x, g = [x] → SeqRuns (.patw a e) always s n → s.begun n g →
      Open s n { ea := q.get a + 16, op := .load 16, align := 16 } t →
      let r : BitVec 256 := low (s.loaded t 16) ++ low x
      patClean r = true →
      ∃ u, exec (.patw a e) s = .next u ∧ Reads s u n { done with patterns := put 0 q.patterns e.toNat r }.step t true) ∧
    (∀ x y, g = [x, y] → SeqRuns (.layw a b) always s n → s.begun n g →
      Open s n { ea := q.get a + 32, op := .load 16, align := 16 } t →
      let r : BitVec 384 := low (s.loaded t 16) ++ (low y ++ low x)
      layClean r = true →
      ∃ u, exec (.layw a b) s = .next u ∧ Reads s u n { done with layouts := put 0 q.layouts b.toNat r }.step t true) ∧
    (∀ x, g = [x] → SeqRuns (.patr a e) always s n → s.begun n g →
      let v : BitVec 512 := ((look 0 q.patterns e.toNat).extractLsb' 128 128).setWidth 512
      Open s n { ea := q.get a + 16, op := .store 16 v, align := 16, noPark := true } t →
      ∃ u, exec (.patr a e) s = .next u ∧ Stores s u n done.step t 16 v)

/-! ### Streams and collectives -/

/-- R260, R266, R271 to R275: SGO, RCPY and COLL make a binding under their token and go on; SGO waits while the token is busy or the port
holds four bindings, and raises an operand fault where a static check fails, d not 0 without RES among them; SPOS reads a binding's state
and position; SCNL ends a queued binding and frees its token.
Where it rests on a choice of the model: logs 52, 106, 110, 115. -/
def Obligations.StreamBindings : Prop :=
  ∀ (s : State) (n key si : Nat) (a b d : BitVec 4) (e : BitVec 5) (r i : Bool) (o sel : BitVec 2) (sc t : BitVec 3) (x : Binding)
    (g : List Answer) (tg : Target),
    let q := s.seq n
    let bit : BitVec 8 := 1#8 <<< t.toNat
    let pat := look 0 q.patterns e.toNat
    let lay := look 0 q.layouts (patLay pat)
    let pos := if r then (q.get d).toNat else 0
    let legal := (r || d == 0) && s.sgoOk n pat lay (portOf (n / 2) (q.get a)) (12 * (n / 2) + ((q.get a).extractLsb' 16 4).toNat) i r pos
    let sgo : Instr := .sgo a b d e r i t
    let goes (j : Instr) (q' : Seq) (p : State → Prop) : Prop :=
      ∃ u, exec j s = .next u ∧ u.seq n = q' ∧ (∀ m, m ≠ n → u.seq m = s.seq m) ∧ u = { s with seqs := u.seqs, streams := u.streams } ∧ p u
    (SeqRuns sgo always s n → legal = true → portOf (n / 2) (q.get a) = some key → q.tokens.getLsbD t.toNat = false →
      (s.port key).queue.length < 4 →
      goes sgo { q with tokens := q.tokens ||| bit }.step fun u => (u.port key).queue = (s.port key).queue ++ [s.streams.next] ∧
        ∃ y, u.binding s.streams.next = some y ∧ y.kind = .stream ∧ y.seq = n ∧ y.tok = t ∧ y.port = key ∧ y.write = i ∧ y.pat = pat ∧
          y.lay = lay ∧ y.off = q.get b ∧ y.pos = pos ∧ y.state = 1 ∧ y.asid = q.asid ∧ y.part = q.part) ∧
    (SeqRuns sgo always s n → legal = true → portOf (n / 2) (q.get a) = some key →
      q.tokens.getLsbD t.toNat = true ∨ 4 ≤ (s.port key).queue.length →
      ∃ u, exec sgo s = .next u ∧ SeqBecomes s u n { q with begun := true }) ∧
    (SeqRuns sgo always s n → legal = false → q.unack = false →
      ∃ u q', exec sgo s = .next u ∧ SeqBecomes s u n q' ∧ Traps q q' 0x0105 q.pc ((wordOf sgo).setWidth 64) 0) ∧
    (SeqRuns (.spos d sel t) always s n → s.bindingOf n t = some (key, x) → x.kind = .stream → sel = 0 →
      ∃ u, exec (.spos d sel t) s = .next u ∧
        SeqBecomes s u n (q.set d (x.state ++ (0#5 ++ ((s.port x.port).rnd ++ BitVec.ofNat 48 x.pos)))).step) ∧
    (SeqRuns (.spos d sel t) always s n → s.bindingOf n t = none →
      ∃ u, exec (.spos d sel t) s = .next u ∧ SeqBecomes s u n (q.set d 0).step) ∧
    (SeqRuns (.scnl bit) always s n → s.bindingOf n t = some (key, x) → x.state = 1 → x.kind = .stream → x.write = false → x.seq = n →
      x.tok = t → portSlot x.port = none → q.tokens.getLsbD t.toNat = true →
      ∃ u y, exec (.scnl bit) s = .next u ∧ u.binding key = some y ∧ y.state = 4 ∧ (u.seq n).tokens = q.tokens &&& ~~~bit ∧
        (u.seq n).pc = q.pc + 4 ∧ (u.port x.port).queue = (s.port x.port).queue.filter (· != key)) ∧
    (∀ m : BitVec 8, SeqRuns (.scnl m) always s n → q.tokens &&& m = 0 → ∃ u, exec (.scnl m) s = .next u ∧ SeqBecomes s u n q.step) ∧
    (let len := (q.get d).toNat
     let dst := q.get a
     let src := q.get b
     let rcpy : Instr := .rcpy a b d o sc t
     SeqRuns rcpy always s n → len % 64 = 0 → 64 ≤ len → len ≤ 2 ^ 40 → dst.toNat % 64 = 0 → src.toNat % 64 = 0 →
      (src.toNat + len ≤ dst.toNat ∨ dst.toNat + len ≤ src.toNat) → s.copyIsland n = some si → q.tokens.getLsbD t.toNat = false →
      q.wait = none → s.mayRelease n o sc →
      goes rcpy { q with tokens := q.tokens ||| bit }.step fun u => ∃ y, u.binding s.streams.next = some y ∧
        y.kind = .copy dst src (len / 64) (o.getLsbD 0) ∧ y.seq = n ∧ y.tok = t ∧ y.state = 2 ∧ y.pos = 0) ∧
    (let rec3 := g ++ [s.loaded tg 16]
     let z : BitVec 512 := joinPieces 512 rec3
     let cid : BitVec 32 := z.extractLsb' 480 32
     let isl := islandPort (n / 2) (z.extractLsb' 0 4).toNat
     SeqRuns (.coll a t) always s n → s.begun n g → g.length = 3 → Open s n { ea := q.get a + 48, op := .load 16, align := 16 } tg →
      s.collOk n z = true → q.tokens.getLsbD t.toNat = false → (s.port isl).queue.length < 4 → s.coll cid = none →
      ∃ u, exec (.coll a t) s = .next u ∧ u.seq n = { q with wait := none, tokens := q.tokens ||| bit }.step ∧
        (∀ m, m ≠ n → u.seq m = s.seq m) ∧
        u = { s with seqs := u.seqs, streams := u.streams, free := u.free,
                     mem := { s.mem with vers := u.mem.vers, unver := u.mem.unver, l2 := u.mem.l2 } } ∧
        ∃ c y, u.coll cid = some c ∧ c.elems = (z.extractLsb' 32 32).toNat ∧ c.joined = [((z.extractLsb' 28 4).toNat, s.streams.next)] ∧
          u.binding s.streams.next = some y ∧ y.seq = n ∧ y.tok = t ∧ y.state = 1)

/-! ### Commit groups -/

/-- R276 to R278, R283, R284: GOPEN opens a free group under its next epoch, faults on one that is open or closing, and waits for one that
publishes or aborts; GST registers a store in an open group, on a sequencer with and without status and on a VE, and a group that is not
open answers code 14, and one that the home's key table refuses faults and dooms its group; GABRT aborts an open group and changes no other;
GSTAT reads the group. Where it rests on a choice of the model: logs 48, 49, 105. -/
def Obligations.GroupForms : Prop :=
  ∀ (s : State) (k : Nat) (a b d : BitVec 4) (o : BitVec 2) (sc w p : BitVec 3) (n : BitVec 6) (tf : Bool) (t : Target) (ops : List Operand),
    let q := s.seq k
    let x := s.group q.asid n
    let gst : Instr := .gst a b d o sc w tf p
    let bytes : Nat := 2 ^ w.toNat
    let becomes (i : Instr) (q' : Seq) : Prop := ∃ u, exec i s = .next u ∧ SeqBecomes s u k q'
    let faults (i : Instr) : Prop := q.unack = false → ∃ u q', exec i s = .next u ∧ SeqBecomes s u k q' ∧ Traps q q' 0x010F q.pc (n.setWidth 64) 0
    let sets (i : Instr) (q' : Seq) (p : Group → Prop) : Prop := ∃ u, exec i s = .next u ∧ u.seq k = q' ∧ (∀ m, m ≠ k → u.seq m = s.seq m) ∧
      p (u.group q.asid n) ∧ (∀ a' m, (a', m) ≠ (q.asid, n) → u.group a' m = s.group a' m) ∧ u.mem.bytes = s.mem.bytes ∧ u.cores = s.cores
    (SeqRuns (.gopen n) always s k →
      (x.state = 0 → sets (.gopen n) q.step fun y => y = { state := 1, epoch := x.epoch + 1, opened := s.mgmt.periods, ended := x.ended }) ∧
      (x.state = 1 ∨ x.state = 2 → faults (.gopen n)) ∧
      (x.state = 3 ∨ x.state = 4 → becomes (.gopen n) { q with begun := true })) ∧
    (SeqRuns (.gstat d n) always s k →
      becomes (.gstat d n) (q.set d (x.state ++ (x.code ++ (BitVec.ofNat 24 x.stores ++ (BitVec.ofNat 24 x.acks ++ x.epoch))))).step) ∧
    (SeqRuns (.gabrt n) always s k →
      (x.state = 1 → x.dests = [] → sets (.gabrt n) q.step fun y => y.state = 0 ∧ y.epoch = x.epoch) ∧
      (x.state = 1 → x.dests = [s.chipId] → x.first ≠ none → x.sent = false →
        sets (.gabrt n) q.step fun y => y.state = 4 ∧ y.code = 0 ∧ y.epoch = x.epoch) ∧
      (x.state ≠ 1 → becomes (.gabrt n) q.step)) ∧
    (SeqRuns gst always s k → k ≤ 32 → q.get b = n.setWidth 64 → q.wait = none → s.copyHolds k = false →
      s.gstBehind k (q.get a) bytes = false → s.mayRelease k o sc →
      (x.state = 1 → s.resolve (s.seqIssuer k).cluster (s.seqIssuer k) (q.get a) bytes { wr := true } = .ok t → inHbm t.la = true →
        t.chip = s.chipId → s.keyCheck t.key (s.seqIssuer k).part = false → q.unack = false →
        ∃ u q', exec gst s = .next u ∧ u.seq k = q' ∧ Traps q q' 0x010B q.pc (q.get a) 0 ∧ u.group q.asid n = x.doom 17 ∧ u.mem.bytes = s.mem.bytes) ∧
      (x.state = 1 → s.resolve (s.seqIssuer k).cluster (s.seqIssuer k) (q.get a) bytes { wr := true } = .ok t → inHbm t.la = true →
        t.chip = s.chipId → s.keyCheck t.key (s.seqIssuer k).part = true → x.stores + 1 < 16777216 →
        sets gst (if tf then { q with wait := some { id := some s.links.nextId } } else q.step)
          (fun y => y.state = 1 ∧ y.stores = x.stores + 1 ∧ y.acks = x.acks ∧ y.epoch = x.epoch ∧ s.chipId ∈ y.dests) ∧
        ∃ u e, exec gst s = .next u ∧ u.mem.groupStores = s.mem.groupStores ++ [e] ∧ e.gid = s.gid q.asid n ∧ e.la = t.la ∧
          e.req.op = .group n bytes ((q.get d).setWidth 512) ∧ e.staged = false ∧ e.acked = false) ∧
      (x.state ≠ 1 → tf = true → becomes gst { q with preds := predSet q.preds p false }.step) ∧
      (x.state ≠ 1 → tf = false → faults gst)) ∧
    (let s' := s.consume k ops
     let iss := s'.veIssuer k
     let y := s'.group iss.asid n
     VeRuns gst always s k → s.veMayIssue k o sc → Finds s k [s.readSel k a, s.readSel k b, s.readData k d] 0 ops →
      lane (opnd ops 1).data 32 0 = n.setWidth 32 → y.state = 1 →
      s'.resolve iss.cluster iss (lane (opnd ops 0).data 64 0) bytes { wr := true } = .ok t → inHbm t.la = true → t.chip = s.chipId →
      s'.keyCheck t.key iss.part = true → y.stores + 1 < 16777216 →
      ∃ u e r, exec gst s = .next u ∧ (u.group iss.asid n).stores = y.stores + 1 ∧ u.mem.groupStores = s.mem.groupStores ++ [e] ∧
        e.req.op = .group n bytes (opnd ops 2).data ∧ e.la = t.la ∧ (u.ve k).replies = (s'.ve k).replies ++ [r] ∧
        e.req.entry = some r.num ∧ r.wantsX = tf ∧ r.left = 1 ∧ u.mem.bytes = s.mem.bytes)

/-- R281: GCMT on a group that is not open answers 14. On an open one it closes the group and waits for the acknowledgements of all its
stores; it aborts a doomed group; with no store it ends at once; it writes the decision record here and at the first destination, and ends
with 0 once that record stands, or with 16 where an abort mark met it. -/
def Obligations.GroupCommit : Prop :=
  ∀ (s : State) (k chip slice : Nat) (d : BitVec 4) (n : BitVec 6),
    let q := s.seq k
    let x := s.group q.asid n
    let g := s.gid q.asid n
    let gcmt : Instr := .gcmt d n
    let waits : Prop := q.wait = some { got := [{ ver := x.epoch.setWidth 16 }] } ∧ x.state = 2
    let ended (v : W64) : Seq := { q.set d v with wait := none }.step
    let sets (q' : Seq) (p : State → Group → Prop) : Prop := ∃ u, exec gcmt s = .next u ∧ u.seq k = q' ∧ (∀ m, m ≠ k → u.seq m = s.seq m) ∧
      p u (u.group q.asid n) ∧ (∀ a' m, (a', m) ≠ (q.asid, n) → u.group a' m = s.group a' m) ∧ u.mem.bytes = s.mem.bytes ∧ u.cores = s.cores
    SeqRuns gcmt always s k →
      (q.wait = none → x.state ≠ 1 → ∃ u, exec gcmt s = .next u ∧ SeqBecomes s u k (q.set d 14).step) ∧
      (q.wait = none → x.state = 1 → sets { q with wait := some { got := [{ ver := x.epoch.setWidth 16 }] } }
        fun u y => y = { x with state := 2 } ∧ u.mem.groupStores = s.mem.groupStores) ∧
      (waits → x.acks < x.stores → exec gcmt s = .next s) ∧
      (waits → x.stores ≤ x.acks → x.code ≠ 0 → sets (ended (x.code.setWidth 64)) fun _ y => y.state = (if x.dests = [] then 0 else 4)) ∧
      (waits → x.stores ≤ x.acks → x.code = 0 → x.first = none → sets (ended 0) fun _ y => y.state = 0) ∧
      (waits → x.stores ≤ x.acks → x.code = 0 → x.first = some (chip, slice) →
        (x.sent = false → chip = s.chipId → s.reservedRoom n.toNat = true →
          sets q fun u y => y = { x with recordHere := true, sent := true, nline := s.nline g } ∧
            u.mem.records = s.mem.records ++ [(g, slice, s.nline g)] ∧
            u.mem.reserved = s.mem.reserved ++ [(n.toNat, g)]) ∧
        (x.sent = true → x.recordThere = none → exec gcmt s = .next s) ∧
        (x.sent = true → x.recordThere = some true →
          sets (ended 0) fun u y => y.state = 3 ∧ (s.chipId ∈ x.dests → g ∈ u.mem.commitsIn)) ∧
        (x.sent = true → x.recordThere = some false → x.dests = [s.chipId] →
          sets (ended 16) fun u y => y.state = 4 ∧ y.code = 16 ∧ y.sent = false ∧ g ∈ u.mem.abortsIn))

/-! ### Launch, signals and gangs -/

/-- R286 to R290: a LNCH whose record has been read appends it to its queue and writes the index, or is refused with code 15, as −1 in G[d]
and as a false predicate or a partition fault; SIG posts its signal; GBAR arrives, and does not wait outside a gang; DRAIN arms the
islands of its region under its token; DONE reports its value and stops the fetch. Reserved operand bits are operand faults.
Where it rests on a choice of the model: logs 61, 62, 111. -/
def Obligations.LaunchForms : Prop :=
  ∀ (s : State) (n : Nat) (a b d : BitVec 4) (tf : Bool) (p t : BitVec 3) (g : List Answer) (tg : Target),
    let q := s.seq n
    let i : Instr := .lnch a b d tf p
    let dst := q.get b
    let queue := (dst.setWidth 12 : BitVec 12).toNat
    let x := s.queue queue
    let bit : BitVec 8 := 1#8 <<< t.toNat
    let done : Seq := { q with wait := none }
    let becomes (j : Instr) (q' : Seq) : Prop := ∃ u, exec j s = .next u ∧ SeqBecomes s u n q'
    let badOperand (j : Instr) : Prop := q.unack = false →
      ∃ u q', exec j s = .next u ∧ SeqBecomes s u n q' ∧ Traps q q' 0x0105 q.pc ((wordOf j).setWidth 64) 0
    let record : BitVec 512 := joinPieces 512 (g ++ [s.loaded tg 16])
    let lastPiece : Prop := SeqRuns i always s n ∧ dst.extractLsb' 12 20 = 0 ∧ dst.extractLsb' 44 20 = 0 ∧ (dst.extractLsb' 32 12).toNat = s.chipId ∧
      s.begun n g ∧ g.length = 3 ∧ Open s n { ea := q.get a + 48, op := .load 16, align := 16 } tg
    (lastPiece → x.devl = true → s.tenantOf q.region = some x.ten → (x.tail - x.head).toNat < x.size → ∀ u w,
      (s.afterRead n tg).brassStore x.asid x.part (x.slotAt x.tail) (.store 64 ((record.setWidth 448).setWidth 512 |||
        ((x.tail + 1).setWidth 512 <<< 448))) = some u → u.brassStore x.asid x.part x.db (.atom .maxu 8 (x.tail + 1) 0) = some w →
      ∃ v, exec i s = .next v ∧ v.seq n = ((done.set d (BitVec.ofNat 64 (x.tail.toNat % x.size))).outcome tf p true).step ∧
        (∀ m, m ≠ n → v.seq m = s.seq m) ∧ (v.queue queue).tail = x.tail + 1) ∧
    (lastPiece → (x.devl = false ∨ s.tenantOf q.region ≠ some x.ten) → tf = true →
      ∃ u, exec i s = .next u ∧ Reads s u n { done.set d (-1) with preds := predSet q.preds p false }.step tg true) ∧
    (lastPiece → (x.devl = false ∨ s.tenantOf q.region ≠ some x.ten) → tf = false → q.unack = false →
      ∃ u q', exec i s = .next u ∧ Reads s u n q' tg true ∧ Traps done q' 0x010B q.pc (q.get a) 0) ∧
    (lastPiece → x.devl = true → s.tenantOf q.region = some x.ten → x.size ≤ (x.tail - x.head).toNat →
      ∃ v, exec i s = .next v ∧ Reads s v n ((done.set d (-1)).outcome tf p false).step tg true) ∧
    (SeqRuns i always s n → (dst.extractLsb' 12 20 ≠ 0 ∨ dst.extractLsb' 44 20 ≠ 0) → badOperand i) ∧
    (SeqRuns (.sig a) always s n → (q.get a).extractLsb' 5 11 = 0 → (q.get a).extractLsb' 28 36 = 0 →
      ((q.get a).extractLsb' 16 12).toNat = s.chipId → s.mayRelease n 2 5 →
      ∃ u, exec (.sig a) s = .next u ∧ u.seq n = q.step ∧ (∀ m, m ≠ n → u.seq m = s.seq m) ∧
        u.brass.signals = s.brass.signals ++ [(((q.get a).setWidth 5 : BitVec 5).toNat, q.part)] ∧
        u = { s with seqs := u.seqs, brass := { s.brass with signals := u.brass.signals } }) ∧
    (SeqRuns (.sig a) always s n → ((q.get a).extractLsb' 5 11 ≠ 0 ∨ (q.get a).extractLsb' 28 36 ≠ 0) → badOperand (.sig a)) ∧
    (SeqRuns (.gbar b) always s n →
      (let passed := s.release (.seq n) 5
       passed.quiet (.seq n) 5 = false → q.barrier = none → q.wait = none →
        ∃ u, exec (.gbar b) s = .next u ∧ SeqBecomes passed u n { q with begun := true }) ∧
      (s.quiet (.seq n) 5 = true → q.barrier = none → s.stageOf n = none → becomes (.gbar b) q.step) ∧
      (∀ st x, s.quiet (.seq n) 5 = true → q.barrier = none → s.stageOf n = some st → s.task st.1 = some x → x.origin = none →
        becomes (.gbar b) { q with barrier := some b, begun := false }) ∧
      (q.barrier ≠ none → exec (.gbar b) s = .next s)) ∧
    (SeqRuns (.drain t) always s n → q.tokens.getLsbD t.toNat = true → becomes (.drain t) { q with begun := true }) ∧
    (∀ k, SeqRuns (.drain t) always s n → q.tokens.getLsbD t.toNat = false → q.region = some k → (s.region k).drain = none →
      (s.region k).stop = none → (∃ e ∈ (s.region k).islands, (s.island e).hold = none) →
      ∃ u, exec (.drain t) s = .next u ∧ u.seq n = { q with tokens := q.tokens ||| bit }.step ∧ (∀ m, m ≠ n → u.seq m = s.seq m) ∧
        (u.region k).drain = some { seq := n, tok := t, isls := (s.region k).islands } ∧
        (∀ e ∈ (s.region k).islands, (u.island e).armed = (s.island e).hold.isNone ∧ (u.island e).hold = (s.island e).hold) ∧
        u.mem = s.mem ∧ u.cores = s.cores) ∧
    (SeqRuns (.done a) always s n → (q.get a).extractLsb' 32 32 = 0 → s.mayRelease n 2 5 →
      (s.stageOf n = none → becomes (.done a) { q with run := .stopped }.step) ∧
      (∀ tk k x y, s.stageOf n = some (tk, k) → s.task tk = some x → x.origin = none → x.stages[k]? = some y →
        ∃ u z, exec (.done a) s = .next u ∧ u.seq n = { q with run := .stopped }.step ∧ (∀ m, m ≠ n → u.seq m = s.seq m) ∧
          u.task tk = some z ∧ z.stages[k]? = some { y with done := some ((q.get a).setWidth 32) } ∧ u.mem = s.mem)) ∧
    (SeqRuns (.done a) always s n → (q.get a).extractLsb' 32 32 ≠ 0 → badOperand (.done a))

/-! ### Privileged forms -/

/-- R291 to R295: CFGLD loads the image once its last bytes have come and writes the status; BSWAP of every island of a region changes the
active bank of its cores at once, or waits for the requests of the held islands; FOLD sets the alternative of a region whose islands RQSC
holds, which then wait for a CFGLD and a BSWAP; RQSC gives running islands their stopping cycle under its token, or releases those that it
holds and no fold does. A selector that names no region of the sequencer's partition is a partition fault.
Where it rests on a choice of the model: logs 24, 55 to 57, 59, 60. -/
def Obligations.RegionForms : Prop :=
  ∀ (s : State) (n k : Nat) (a b d : BitVec 4) (t : BitVec 3) (r : Bool) (g : List Answer) (tg : Target) (va : W64) (w : Nat),
    let q := s.seq n
    let sel := q.get a
    let rg := s.region k
    let bit : BitVec 8 := 1#8 <<< t.toNat
    let done : Seq := { q with wait := none }
    let becomes (j : Instr) (q' : Seq) : Prop := ∃ u, exec j s = .next u ∧ SeqBecomes s u n q'
    let faults (j : Instr) (cause : BitVec 16) (v : W64) : Prop := q.unack = false →
      ∃ u q', exec j s = .next u ∧ SeqBecomes s u n q' ∧ Traps q q' cause q.pc v 0
    let cfgld : Instr := .cfgld a b d
    let forms : List Instr := [.bswap t a, .fold a, .rqsc t a r]
    let fit := s.selFit n (q.get b)
    let swapped := rectCores (clusterOf k) (rowOf k) (colOf k) rg.rows rg.cols ++
      rectCores (clusterOf k) (rowOf k) (colOf k) rg.shadowRows rg.shadowCols
    let lastPiece (p : Parsed) : Prop := SeqRuns cfgld always s n ∧ selClean (q.get b) = true ∧
      selCol (q.get b) < 12 ∧ look 0 s.brass.coreOf (selKey (q.get b)) = q.part ∧ s.begun n g ∧
      gatherImage sel [] g = .inl { ea := va, op := .load w, align := w } ∧ Open s n { ea := va, op := .load w, align := w } tg ∧
      gatherImage sel [] (g ++ [s.loaded tg w]) = .inr p
    let partition (j : Instr) : Prop := q.unack = false →
      ∃ u q' v, exec j s = .next u ∧ u.seq n = q' ∧ Traps q q' 0x010B q.pc v 0 ∧ (∀ m, m ≠ n → u.seq m = s.seq m) ∧
        u = { s with seqs := u.seqs, free := s.free + 1 }
    (∀ p, lastPiece p → (∀ im, p ≠ .done im) → ∃ u, exec cfgld s = .next u ∧ Reads s u n (done.set d 1).step tg true) ∧
    (∀ im st ds, lastPiece (.done im) → (s.afterRead n tg).imageStatus im fit = (st, ds) →
      (st ≠ 0 → ∃ u, exec cfgld s = .next u ∧ Reads s u n (done.set d (BitVec.ofNat 64 st)).step tg true) ∧
      (st = 0 → let u := (s.afterRead n tg).loadImage im fit ds
        exec cfgld s = .next (u.seqNext n ((u.seq n).set d 0)))) ∧
    (SeqRuns cfgld always s n → selClean (q.get b) = true →
      12 ≤ selCol (q.get b) ∨ look 0 s.brass.coreOf (selKey (q.get b)) ≠ q.part → partition cfgld) ∧
    (SeqRuns cfgld always s n → selClean (q.get b) = false → faults cfgld 0x0105 ((wordOf cfgld).setWidth 64)) ∧
    (∀ j ∈ forms, SeqRuns j always s n → selClean sel = false → faults j 0x0105 ((wordOf j).setWidth 64)) ∧
    (∀ j ∈ forms, SeqRuns j always s n → selClean sel = true →
      12 ≤ selCol sel ∨ (s.region (selKey sel)).rows = 0 ∨ (s.region (selKey sel)).part ≠ q.part → partition j) ∧
    (SeqRuns (.bswap t a) always s n → selClean sel = true → s.selectRegion n sel = some k → q.tokens.getLsbD t.toNat = false →
      rg.swap = none → selMask sel = 0 → (∀ i ∈ rg.islands, (s.island i).maySwap = true) →
      ((∀ i ∈ rg.islands, s.settled i = true) → colOf k + max rg.cols rg.shadowCols ≤ 12 →
        ∃ u, exec (.bswap t a) s = .next u ∧ (u.seq n).pc = q.pc + 4 ∧ (u.seq n).tokens = q.tokens ∧ (u.region k).swap = none ∧
          (∀ c ∈ swapped, (u.core c).bank = !(s.core c).bank) ∧ (∀ c, c ∉ swapped → u.core c = s.core c) ∧ u.mem = s.mem) ∧
      ((∃ i ∈ rg.islands, s.settled i = false) →
        ∃ u, exec (.bswap t a) s = .next u ∧ u.seq n = { q with tokens := q.tokens ||| bit }.step ∧ u.cores = s.cores ∧
          u.region k = { rg with swap := some { seq := n, tok := t, isls := rg.islands } } ∧ u.mem = s.mem)) ∧
    (SeqRuns (.bswap t a) always s n → selClean sel = true → s.selectRegion n sel = some k → q.tokens.getLsbD t.toNat = false →
      rg.swap = none → selMask sel = 0 → (∃ i ∈ rg.islands, (s.island i).maySwap = false) → faults (.bswap t a) 0x0110 sel) ∧
    (SeqRuns (.fold a) always s n → selClean sel = true → s.selectRegion n sel = some k →
      ((∃ i ∈ rg.islands, (s.island i).hold ≠ some .rqsc) → faults (.fold a) 0x0110 sel) ∧
      ((∀ i ∈ rg.islands, (s.island i).hold = some .rqsc) → selAlt sel = 0 → becomes (.fold a) q.step) ∧
      ((∀ i ∈ rg.islands, (s.island i).hold = some .rqsc) → selAlt sel ≠ 0 →
        ∃ u, exec (.fold a) s = .next u ∧ u.seq n = q.step ∧ (u.region k).alt = selAlt sel ∧ (u.region k).folded = some false ∧
          (u.region k).cols = (if rg.alt = 1 ∧ 2 ≤ selAlt sel then (rg.cols + 1) / 2 else rg.cols) ∧
          (u.region k).rows = (if rg.alt < 4 ∧ selAlt sel = 4 then (rg.rows + 1) / 2 else rg.rows) ∧ u.mem = s.mem)) ∧
    (SeqRuns (.rqsc t a r) always s n → selClean sel = true → s.selectRegion n sel = some k → q.tokens.getLsbD t.toNat = false →
      rg.stop = none → rg.drain = none → selMask sel = 0 →
      (r = false → (∃ i ∈ rg.islands, (s.island i).hold = none) →
        ∃ u, exec (.rqsc t a r) s = .next u ∧ u.seq n = { q with tokens := q.tokens ||| bit }.step ∧
          (∀ i ∈ rg.islands, (s.island i).hold = none → (s.island i).stopAt = none → (u.island i).stopAt = some (s.now + 16)) ∧
          (u.region k).stop = some { seq := n, tok := t, isls := rg.islands } ∧ u.mem = s.mem ∧ u.cores = s.cores) ∧
      (r = true →
        ∃ u, exec (.rqsc t a r) s = .next u ∧ (u.seq n).pc = q.pc + 4 ∧ (u.seq n).tokens = q.tokens ∧
          (∀ i ∈ rg.islands, (s.island i).hold = some .rqsc →
            (u.island i).hold = if (s.region (s.island i).region).folded = none then none else some .rqsc) ∧ u.mem = s.mem ∧ u.cores = s.cores))

/-- R296 to R299: ASIDS takes an ASID that its table entry gives to the partition; XINV drops the translations that it covers and no other,
and waits while an access under way has used one; L2MD changes the mode and writes back and empties the L2 cache only while nothing runs; a
line that was lost there poisons its block (R442); SCRB writes zeros, version 0 and no poison, and counts the lines that it could not scrub.
Where it rests on a choice of the model: logs 23, 25, 42, 108. -/
def Obligations.PrivilegedForms : Prop :=
  ∀ (s : State) (n : Nat) (a b d : BitVec 4) (sc : BitVec 2) (h : BitVec 8),
    let q := s.seq n
    let g := q.get a
    let asid : BitVec 16 := g.setWidth 16
    let of : BitVec 16 := (q.get b).setWidth 16
    let scrb : Instr := .scrb a b d
    let becomes (j : Instr) (q' : Seq) : Prop := ∃ u, exec j s = .next u ∧ SeqBecomes s u n q'
    let faults (j : Instr) (cause : BitVec 16) (v : W64) : Prop := q.unack = false →
      ∃ u q', exec j s = .next u ∧ SeqBecomes s u n q' ∧ Traps q q' cause q.pc v 0
    let reaches (e : TlbEntry) : Prop := if sc = 0
      then e.asid = of ∧ e.vpn * 32768 / pageBytes e.level = g.toNat / pageBytes e.level else e.asid = of
    (SeqRuns (.asids a) always s n →
      (g.extractLsb' 16 48 = 0 → s.asidOf asid q.part = .ok true → becomes (.asids a) { q with asid := asid }.step) ∧
      (g.extractLsb' 16 48 = 0 → s.asidOf asid q.part = .ok false → q.unack = false →
        ∃ u q' v, exec (.asids a) s = .next u ∧ u.seq n = q' ∧ Traps q q' 0x010B q.pc v 0 ∧ u = { s with seqs := u.seqs, free := s.free + 1 }) ∧
      (g.extractLsb' 16 48 = 0 → s.asidOf asid q.part = .error h →
        faults (.asids a) (1#8 ++ h) (BitVec.ofNat 64 ((s.host.asidBase.toNat + 8 * asid.toNat) % 2 ^ 46))) ∧
      (g.extractLsb' 16 48 ≠ 0 → faults (.asids a) 0x0105 ((wordOf (.asids a)).setWidth 64))) ∧
    (SeqRuns (.xinv a b sc) always s n → sc = 0 ∨ sc = 1 → s.mem.flight = [] → s.mem.away = [] → s.mem.groupStores = [] →
      (∀ e ∈ s.streams.bindings, ∀ x, e.2 = some x → x.ask = none) → s.brass.asks = [] →
      (∀ e ∈ s.seqs, e.2.replay = []) → (∀ e ∈ s.cores, e.2.ve.replay = []) →
      ∃ u, exec (.xinv a b sc) s = .next u ∧ u.seq n = q.step ∧ (∀ m, m ≠ n → u.seq m = s.seq m) ∧
        (∀ e, e ∈ u.mem.tlb ↔ e ∈ s.mem.tlb ∧ ¬ reaches e) ∧
        u = { s with seqs := u.seqs, mem := { s.mem with tlb := u.mem.tlb } }) ∧
    (SeqRuns (.xinv a b sc) always s n → sc = 1 →
      (∃ r ∈ s.mem.flight, ∃ x, r.target = some x ∧ x.size ≠ 0 ∧ r.iss.chip = none ∧ r.iss.asid = of) →
      becomes (.xinv a b sc) { q with begun := true }) ∧
    (SeqRuns (.l2md d a) always s n → g.extractLsb' 1 63 = 0 →
      (s.anyRunning = true → becomes (.l2md d a) (q.set d 1).step) ∧
      (s.anyRunning = false → ∃ u, exec (.l2md d a) s = .next u ∧ u.seq n = (q.set d 0).step ∧ (∀ m, m ≠ n → u.seq m = s.seq m) ∧
        (∀ l, look {} u.mem.l2 l = {}) ∧
        (∀ k, look false u.mem.clean k = (look false s.mem.clean k && !(s.mem.l2.any fun e => look false s.mem.badL2 e.1 && e.1 / 8 == k))) ∧
        u = { s with seqs := u.seqs,
                     mem := { s.mem with l2 := u.mem.l2, l2mode := g.getLsbD 0, clean := u.mem.clean, badL2 := u.mem.badL2,
                                         staged := u.mem.staged, due := u.mem.due } })) ∧
    (SeqRuns (.l2md d a) always s n → g.extractLsb' 1 63 ≠ 0 → faults (.l2md d a) 0x0105 ((wordOf (.l2md d a)).setWidth 64)) ∧
    (let count := ((q.get b).setWidth 40 : BitVec 40).toNat
     let la := g.toNat / 64 * 64
     SeqRuns scrb always s n → g.extractLsb' 46 18 = 0 → (q.get b).extractLsb' 52 12 = 0 → s.mem.held = [] →
      (count % 64 ≠ 0 → faults scrb 0x0105 ((wordOf scrb).setWidth 64)) ∧
      (count % 64 = 0 → count ≠ 0 → window la = none ∨ window la ≠ window (la + (count - 64)) → faults scrb 0x0106 g) ∧
      (count = 64 → inHbm la = false → homeOf la ≠ .unpopulated → s.lostScratch la = false →
        ∃ u, exec scrb s = .next u ∧ u.seq n = (q.set d 0).step ∧ Writes s u la 64 0 ∧ u.mem.ver (la / 64) = 0 ∧
          look false u.mem.bad (la / 64) = false ∧ (∀ l, l ≠ la / 64 → u.mem.ver l = s.mem.ver l)) ∧
      (la % 512 = 0 → count = 512 → inHbm la = true → inHbm (la + 448) = true → s.mem.retired.contains (frameOf la) = false →
        (Config.readBackFails s.free (la / 512) = false →
          ∃ u, exec scrb s = .next u ∧ u.seq n = (q.set d 0).step ∧ Writes s u la 512 0 ∧ look false u.mem.clean (la / 512) = true) ∧
        (Config.readBackFails s.free (la / 512) = true → ∃ u, exec scrb s = .next u ∧ u.seq n = (q.set d 8).step)))

/-! ### Cobalt -/

/-- R300, R301, R342, R348: KHND reads a key record of the layout of R348, installs it under the lowest free handle and answers 0 to any
other; KDEL deletes a handle; MEXT extends a measurement register by SM3 over its old value and the digest; KSIGN signs the digest that it
has read and writes the signature. Where it rests on a choice of the model: logs 6, 104, 148. -/
def Obligations.CobaltForms : Prop :=
  ∀ (s : State) (n h w : Nat) (a b d : BitVec 4) (g : List Answer) (t : Target) (va : W64),
    let q := s.seq n
    let x : Access := { ea := va, op := .load w, align := w }
    let done : Seq := { q with wait := none }
    let bytes := spanBytes (q.get a) 128 (g ++ [s.loaded t w])
    let good := keyRecClean bytes && (keyRecOf bytes).ok
    let reads := spanReads (q.get a) 32
    let digest := spanBytes (q.get a) 32 (g ++ [s.loaded t w])
    let reg := (q.get b).toNat
    let key := ((q.get b).setWidth 2 : BitVec 2).toNat
    let keys (u : State) (p : Option KeyRec) (j : Nat) : Prop :=
      look none u.sec.handles j = p ∧ ∀ k, k ≠ j → look none u.sec.handles k = look none s.sec.handles k
    let after := s.afterRead n t
    let lastOf (l : List Access) (j : Instr) : Prop := SeqRuns j always s n ∧ s.begun n g ∧ l[g.length]? = some x ∧
      g.length + 1 = l.length ∧ Open s n x t
    let lastPiece (j : Instr) : Prop := lastOf reads j
    (lastOf (spanReads (q.get a) 128) (.khnd a d) →
      (good = false → ∃ u, exec (.khnd a d) s = .next u ∧ Reads s u n (done.set d 0).step t true) ∧
      (good = true → 1 ≤ h → h < 65536 → s.handleFree h = true → (∀ j, 1 ≤ j → j < h → s.handleFree j = false) →
        ∃ u, exec (.khnd a d) s = .next u ∧ u.seq n = (done.set d (BitVec.ofNat 64 h)).step ∧ (∀ m, m ≠ n → u.seq m = s.seq m) ∧
          keys u (some { keyRecOf bytes with serial := s.sec.nextSerial }) h ∧
          u = { after with seqs := u.seqs, sec := { s.sec with handles := u.sec.handles, nextSerial := s.sec.nextSerial + 1 } })) ∧
    (SeqRuns (.kdel a) always s n →
      ∃ u, exec (.kdel a) s = .next u ∧ u.seq n = q.step ∧ (∀ m, m ≠ n → u.seq m = s.seq m) ∧
        keys u none ((q.get a).setWidth 16 : BitVec 16).toNat ∧
        u = { s with seqs := u.seqs, sec := { s.sec with handles := u.sec.handles } }) ∧
    (lastPiece (.mext a b) → reg < 8 → (s.sec.bootLock = true → 4 ≤ reg) →
      ∃ u, exec (.mext a b) s = .next u ∧ u.seq n = done.step ∧ (∀ m, m ≠ n → u.seq m = s.seq m) ∧
        look 0 u.sec.meas reg = Config.sm3 (bytesOf (look 0 s.sec.meas reg) 32 ++ digest) ∧
        (∀ j, j ≠ reg → look 0 u.sec.meas j = look 0 s.sec.meas j) ∧
        u = { after with seqs := u.seqs, sec := { s.sec with meas := u.sec.meas } }) ∧
    (lastPiece (.ksign a b d) → key < 2 → (s.sec.bootLock = true → key = 1) →
      ∃ u, exec (.ksign a b d) s = .next u ∧ (∀ m, m ≠ n → u.seq m = s.seq m) ∧
        (let signature := Config.sm2Sign (if key = 0 then s.sec.devKey else s.sec.aliasKey) (ofBytes 256 digest) after.free
        u.seq n = { q with wait := some { got := g ++ [s.loaded t w] ++ [{ data := ofBytes 512 (bytesOf signature 64) }] } }) ∧
        u = { after with seqs := u.seqs, free := after.free + 1 }) ∧
    (∀ sig v, SeqRuns (.ksign a b d) always s n → key < 2 → (s.sec.bootLock = true → key = 1) → s.begun n g →
      g[reads.length]? = some sig →
      let writes := spanWrites (q.get d) (bytesOf sig.data 64)
      writes[g.length - reads.length - 1]? = some { ea := va, op := .store w v, align := w, noPark := true } →
      g.length = reads.length + writes.length → Open s n { ea := va, op := .store w v, align := w, noPark := true } t →
      ∃ u, exec (.ksign a b d) s = .next u ∧ Stores s u n done.step t w v)

/-! ### Events of the fabric -/

/-- R31, R40, R53, R179, R214, R224, R228, R485: where tokens arrive: a port, an activation port, a retiming FIFO with room, X, or the row
that steered them; a token for an occupied port is an overrun of its producer, a reply or result whose place is taken waits, and a drain
token that finds X taken, or that a reply or result meets in the cycle of its delivery, is a schedule fault. Where it rests on a choice of the model: log 46. -/
def Obligations.TokensArrive : Prop :=
  ∀ (s : State) (c dir sel k : Nat) (x : Send) (t t0 : Token) (rest : List Token) (e : Entry) (es : List Entry)
    (cs : List (Nat × Nat × Token)) (row : Nat) (iter : BitVec 16) (kind : BitVec 8) (val : W64),
    let v := s.ve c
    let m := s.mn c
    let key := 4 * c + dir
    let sends := s.scratch.sends.erase x
    let at_ (y : Send) : Bool := y.core == c && y.port == dir
    let fills (i : Instr) (v' : Ve) : Prop := ∃ u, exec i s = .next u ∧ VeBecomes s u c v'
    let meets : Prop := v.x = some t0 ∧ s.scratch.drained = [(c, row, iter)] ∧ (s.island k).fault = none ∧ (s.island k).delivered = none
    let met (i : Instr) (z : Token) : Prop := ∃ u f, exec i s = .next u ∧ (u.ve c).x = some z ∧ (u.mn c).drain = some (t0, row, iter) ∧
      (u.island k).fault = some (f, s.now) ∧ f.cause = 0x0214 ∧ f.tval = 4#8 ++ 0#56
    (s.scratch.sends.find? at_ = some x →
      (dir ≠ 4 → look none v.ports dir = none →
        ∃ u, exec (.tokenArrival c dir) s = .next u ∧ look none (u.ve c).ports dir = some x.tok ∧
          (∀ d, d ≠ dir → look none (u.ve c).ports d = look none v.ports d) ∧ u.ve c = { v with ports := (u.ve c).ports } ∧ u.mn c = m ∧
          u = { s with cores := u.cores, scratch := { s.scratch with sends := sends } }) ∧
      (dir = 4 → m.act = none →
        ∃ u, exec (.tokenArrival c dir) s = .next u ∧ u.mn c = { m with act := some x.tok } ∧ u.ve c = v ∧
          u = { s with cores := u.cores, scratch := { s.scratch with sends := sends } }) ∧
      ((if dir = 4 then m.act ≠ none else look none v.ports dir ≠ none) →
        exec (.tokenArrival c dir) s = .next { s with scratch := { s.scratch with sends := sends, faults := s.scratch.faults ++ [x.origin] } })) ∧
    (s.scratch.sends.find? at_ = none → exec (.tokenArrival c dir) s = .next s) ∧
    (look [] s.transit key = t :: rest → (s.fifo key).length < 32 → s.chan key = none →
      ∃ u, exec (.fifoTokenArrival c dir) s = .next u ∧ u.fifo key = s.fifo key ++ [t] ∧ look [] u.transit key = rest ∧
        (∀ j, j ≠ key → u.fifo j = s.fifo j ∧ look [] u.transit j = look [] s.transit j) ∧
        u = { s with fifos := u.fifos, transit := u.transit }) ∧
    (32 ≤ (s.fifo key).length → exec (.fifoTokenArrival c dir) s = .next s) ∧
    (s.live c = some k → v.replies = e :: es →
      (e.left ≠ 0 → exec (.replyArrival c) s = .next s) ∧
      (e.left = 0 → e.fault = none → e.wantsX = true → v.x = none →
        fills (.replyArrival c) { v with replies := es, x := some e.tok, preds := (e.pred.map fun p => predSet v.preds p.1 p.2).getD v.preds }) ∧
      (e.left = 0 → e.fault = none → e.wantsX = true → v.x ≠ none → (∀ y ∈ s.scratch.drained, y.1 ≠ c) →
        exec (.replyArrival c) s = .next s) ∧
      (e.left = 0 → e.fault = none → e.wantsX = true → meets → met (.replyArrival c) e.tok) ∧
      (e.left = 0 → e.fault = none → e.wantsX = false → fills (.replyArrival c) { v with replies := es }) ∧
      (e.left = 0 → e.fault = some (kind, val) → (s.island k).fault = none → (s.island k).delivered = none →
        ∃ u f, exec (.replyArrival c) s = .next u ∧ (u.ve c).replies = es ∧ (u.island k).fault = some (f, s.now) ∧ f.cause = 2#8 ++ kind ∧
          f.tval = val ∧ (u.island k).hold ≠ none)) ∧
    (s.live c = some k → (s.island k).conv = (c, sel, t) :: cs →
      ∃ u, exec (.conversionReturn c sel) s = .next u ∧ (u.island k).conv = cs ∧
        (sel = 17 → u.mn c = { m with actSteering := false, actBack := some t } ∧ u.ve c = v) ∧
        (sel ≠ 17 → look none (u.ve c).returned sel = some t ∧ (u.ve c).steering = v.steering.erase sel ∧ u.mn c = m)) ∧
    (s.live c = some k → v.cnv = t :: rest →
      (v.x = none → fills (.cnvReturn c) { v with x := some t, cnv := rest }) ∧
      (v.x ≠ none → (∀ y ∈ s.scratch.drained, y.1 ≠ c) → exec (.cnvReturn c) s = .next s) ∧ (meets → met (.cnvReturn c) t)) ∧
    (s.live c = some k → m.drain = some (t, row, iter) →
      (v.x = none → ∃ u, exec (.drainDelivery c) s = .next u ∧ u.ve c = { v with x := some t } ∧ u.mn c = { m with drain := none } ∧
        u = { s with cores := u.cores }) ∧
      (v.x ≠ none → (s.island k).fault = none → (s.island k).delivered = none →
        ∃ u f, exec (.drainDelivery c) s = .next u ∧ (u.island k).fault = some (f, s.now) ∧ f.cause = 0x0214 ∧ f.tval = 4#8 ++ 0#56 ∧
          u.ve c = v ∧ u.mn c = m))

/-- R41, R289, R293, R295, R410: an island whose budget is spent traps and is held; one whose stopping cycle has come is held; a drained
island is held by its DRAIN; a BSWAP that waits changes the active banks and frees its token once the requests of the islands have
completed, and not before. Where it rests on a choice of the model: logs 36, 37. -/
def Obligations.IslandsStop : Prop :=
  ∀ (s : State) (k r cyc : Nat) (a : Actor) (ask : Ask),
    let i := s.island k
    let rg := s.region r
    let swapped := rectCores (clusterOf r) (rowOf r) (colOf r) rg.rows rg.cols ++
      rectCores (clusterOf r) (rowOf r) (colOf r) rg.shadowRows rg.shadowCols
    (s.scratch.spent.find? (·.1 == k) = some (k, a) → i.fault = none → i.delivered = none →
      ∃ u f, exec (.timingTrap k) s = .next u ∧
        u.island k = { i with hold := some (i.hold.getD .fault), fault := some (f, s.now), trapped := true, frozen := true } ∧
        f.cause = 0x0213 ∧ f.tval = i.frzLen.setWidth 64 ∧ (∀ j, j ≠ k → u.island j = s.island j) ∧
        u = { s with islands := u.islands }) ∧
    (s.scratch.spent.find? (·.1 == k) = none → exec (.timingTrap k) s = .next s) ∧
    (i.stopAt = some cyc →
      (cyc ≤ s.now → ∃ u h, exec (.rqscStop k) s = .next u ∧ u.island k = { i with stopAt := none, hold := some h } ∧
        (i.hold = none → (∃ x, (s.region i.region).stop = some x ∧ k ∈ x.isls) → h = .rqsc) ∧
        (∀ j, j ≠ k → u.island j = s.island j) ∧ u = { s with islands := u.islands }) ∧
      (s.now < cyc → exec (.rqscStop k) s = .next s)) ∧
    (i.armed = true → i.hold = none → i.cnt = 0 → i.frozen = false → s.drained k = true → (s.region i.region).stop = none →
      (s.region i.region).drain = some ask →
      ∃ u, exec (.drainHold k) s = .next u ∧ u.island k = { i with armed := false, hold := some .drain } ∧ u.cores = s.cores ∧ u.mem = s.mem ∧
        (ask.isls = [k] → (u.seq ask.seq).tokens = (s.seq ask.seq).tokens &&& ~~~(1#8 <<< ask.tok.toNat) ∧ (u.region i.region).drain = none)) ∧
    (i.armed = false ∨ i.cnt ≠ 0 ∨ s.drained k = false → exec (.drainHold k) s = .next s) ∧
    (rg.swap = some ask →
      ((∃ j ∈ ask.isls, s.settled j = false) → exec (.bankSwapEffect r) s = .next s) ∧
      ((∀ j ∈ ask.isls, s.settled j = true) → ask.isls = rg.islands → colOf r + max rg.cols rg.shadowCols ≤ 12 →
        ∃ u, exec (.bankSwapEffect r) s = .next u ∧ (u.region r).swap = none ∧
          (u.seq ask.seq).tokens = (s.seq ask.seq).tokens &&& ~~~(1#8 <<< ask.tok.toNat) ∧
          (∀ c ∈ swapped, (u.core c).bank = !(s.core c).bank) ∧ (∀ c, c ∉ swapped → u.core c = s.core c) ∧ u.mem = s.mem))

/-- R75, R76, R189, R190, R201, R203 to R205: a decode starts when its slot is ready: the header moves the cursor, and a header that is not
well formed ends it with cause 1; symbols enter the buffer in order, and none from the one that faults on before the fault stands; the last
symbol, or the end, frees the slot of its hold; a waiting PTLD loads a half table, which becomes usable with its upper half; a slot fill
begins, or is pending while the slot is claimed or held, and its last byte makes the slot ready.
Where it rests on a choice of the model: logs 40, 50, 76, 115, 117. -/
def Obligations.DecoderAndFills : Prop :=
  ∀ (s : State) (c k n j bind : Nat) (e : Decode) (rest : List Decode) (b : Binding) (sn : BitVec 5) (tb : BitVec 2) (h : Bool) (cp : BitVec 3),
    let m := s.mn c
    let x := m.slot e.slot.toNat
    let start := if e.rst then 0 else x.off.toNat
    let hd := headerOf (BitVec.ofNat 256 (x.bytes (32 * start) 32))
    let buf := m.buffer e.buf
    let runs : Prop := s.islandOf c = some k ∧ (s.island k).hold = none
    let queued : Prop := runs ∧ m.queue = e :: rest
    let y := m.slot n
    let src := m.slot sn.toNat
    let filled (u : State) (hi : Nat) : Prop := ((u.mn c).buffer e.buf).nsym = max buf.nsym hi ∧
      ∀ i < 4096, ((u.mn c).buffer e.buf).data.extractLsb' (8 * i) 8 =
        if buf.nsym ≤ i ∧ i < hi then e.image.extractLsb' (8 * i) 8 else buf.data.extractLsb' (8 * i) 8
    let ends (u : State) : Prop := (u.mn c).queue = rest ∧ filled u e.upTo ∧ ((u.mn c).buffer e.buf).flt = e.bad ∧
      ((u.mn c).slot e.slot.toNat).holds = x.holds - 1 ∧ u.ve c = s.ve c ∧ u = { s with cores := u.cores }
    (queued → e.running = false → x.state = 2 → start < x.len.toNat →
      (hd.ok start x.len.toNat = true →
        ∃ u e', exec (.beginDecode c) s = .next u ∧ (u.mn c).queue = e' :: rest ∧ e'.running = true ∧ e'.slot = e.slot ∧ e'.buf = e.buf ∧
          ((u.mn c).slot e.slot.toNat).off = BitVec.ofNat 9 (start + hd.clen) ∧
          ((u.mn c).slot e.slot.toNat).tnum = (if e.rst then 0 else x.tnum) + 1 ∧ ((u.mn c).buffer e.buf).fmt = some hd.fmt ∧
          ((u.mn c).buffer e.buf).off = BitVec.ofNat 9 start ∧ ((u.mn c).buffer e.buf).kh = x.kh ∧
          (hd.raw = true → e'.image = x.data.extractLsb' (8 * (32 * start + 32)) 32768 ∧ e'.upTo = 4096 ∧ e'.bad = none) ∧
          u = { s with cores := u.cores }) ∧
      (hd.ok start x.len.toNat = false →
        ∃ u e' f, exec (.beginDecode c) s = .next u ∧ (u.mn c).queue = e' :: rest ∧ e'.running = true ∧ e'.upTo = 0 ∧ e'.bad = some f ∧
          f.cause = 1 ∧ f.slot = e.slot ∧ ((u.mn c).slot e.slot.toNat).off = BitVec.ofNat 9 start ∧ u = { s with cores := u.cores })) ∧
    (queued → e.running = true →
      (e.bad ≠ none ∨ buf.nsym + j < 4096 ∨ e.upTo < 4096 → ∃ u, exec (.decodeSpanDelivered c j) s = .next u ∧ (u.mn c).queue = m.queue ∧
        filled u (min (buf.nsym + j) (match e.bad with
          | some f => min e.upTo f.sym
          | none => e.upTo)) ∧
        ((u.mn c).buffer e.buf).flt = buf.flt ∧ u.ve c = s.ve c ∧ u = { s with cores := u.cores }) ∧
      (e.bad = none → 4096 ≤ buf.nsym + j → 4096 ≤ e.upTo → ∃ u, exec (.decodeSpanDelivered c j) s = .next u ∧ ends u) ∧
      ∃ u, exec (.decodeEnd c) s = .next u ∧ ends u) ∧
    (runs → decode true (s.mnRow c).word = .ok (.ptld sn tb h cp) → Instr.wf .mn (.ptld sn tb h cp) = true → predGet m.preds cp = true →
      m.ptld = .waiting → src.claims ≠ 0 → m.queue = [] → src.state = 2 → s.kernelBars c src.kh = false →
      let old : DecTable := look {} m.tables tb.toNat
      let half : BitVec 49152 := src.data.setWidth 49152
      (src.len.toNat < 192 → ∃ u, exec (.ptldComplete c) s = .next u ∧ MnBecomes s u c { m with ptld := .failed }) ∧
      (192 ≤ src.len.toNat → h = false →
        ∃ u, exec (.ptldComplete c) s = .next u ∧ (u.mn c).ptld = .done ∧ (look {} (u.mn c).tables tb.toNat : DecTable).loaded = false ∧
          (look {} (u.mn c).tables tb.toNat : DecTable).entries = old.entries.extractLsb' 49152 49152 ++ half) ∧
      (192 ≤ src.len.toNat → h = true →
        ∃ u, exec (.ptldComplete c) s = .next u ∧
          let t : DecTable := look {} (u.mn c).tables tb.toNat
          t.entries = half ++ (old.entries.setWidth 49152 : BitVec 49152) ∧ t.loaded = t.sound ∧
          (u.mn c).ptld = if t.sound then .done else .failed)) ∧
    (s.binding bind = some b → portSlot b.port = some (c, n) → b.state = 2 → s.coreOwner c = b.part →
      y.fill = none → y.refill = none → y.pend = false →
      (y.claims = 0 → y.holds = 0 → ∃ u, exec (.slotFill bind) s = .next u ∧
        MnBecomes s u c (m.setSlot n { y with state := 1, fill := some bind })) ∧
      (y.claims ≠ 0 ∨ y.holds ≠ 0 → ∃ u, exec (.slotFill bind) s = .next u ∧
        MnBecomes s u c (m.setSlot n { y with pend := true, fill := some bind }))) ∧
    (s.binding bind = some b → portSlot b.port = some (c, n) → s.coreOwner c ≠ b.part →
      ∃ u, exec (.slotFill bind) s = .next u ∧ u.cores = s.cores ∧ u.mem = s.mem) ∧
    (y.pend = true → y.claims = 0 → y.holds = 0 → y.refill = none → ∃ u, exec (.pendingFillStart c n) s = .next u ∧
      MnBecomes s u c (m.setSlot n { y with state := 1, pend := false })) ∧
    (y.pend = false ∨ y.claims ≠ 0 ∨ y.holds ≠ 0 ∨ y.refill ≠ none → exec (.pendingFillStart c n) s = .next s) ∧
    (y.refill = none → y.fill = some bind → s.binding bind = some b → b.state = 2 → y.state = 1 → b.tile = none → patTotal b.pat ≤ b.pos → b.ended = false →
      b.filled % 256 = 0 →
      ∃ u, exec (.fillComplete c n) s = .next u ∧ ((u.mn c).slot n).state = 2 ∧ ((u.mn c).slot n).len = BitVec.ofNat 9 (b.filled / 256) ∧
        ((u.mn c).slot n).fill = none ∧ ((u.mn c).slot n).mirror = b.allOo ∧ ((u.mn c).slot n).kh = patKh b.pat ∧
        u.binding bind = some { b with ended := true } ∧ u.ve c = s.ve c ∧ u.mem = s.mem)

/-! ### Events of the memory system -/

/-- R83 to R85, R87, R97, R230, R231, R258, R434, R436: a posted store reaches its home; a chain of parked versioned stores applies one;
loads and barrier waits whose line a write has satisfied are answered; a walk fills the translation cache, which holds 2048 entries of a
unit; a parked store retries, or is dropped with its issuer's task after 100 ms. Where it rests on a choice of the model: logs 31, 35. -/
def Obligations.MemoryEvents : Prop :=
  ∀ (s : State) (k line off w unit n : Nat) (r : Req) (t : Target) (v : BitVec 512) (e : Staged) (x : BitVec 16) (d : Due) (id : Nat)
    (wt : SeqWait) (asid : BitVec 16) (va leaf : W64) (level : Nat) (who : Actor) (p : Parked),
    let answers (i : Instr) (phase : Bool) : Prop :=
      let hit (y : Due) : Bool := y.staged.line == line && y.staged.isPhase == phase
      s.mem.due.filter hit = [d] → d.staged.iss.chip = none → d.staged.iss.who = .seq n → d.staged.entry = some id →
      (s.seq n).wait = some wt → wt.id = some id →
      ∃ u, exec i s = .next u ∧ u.seq n = { s.seq n with wait := some { wt with answer := some d.answer } } ∧ (∀ m, m ≠ n → u.seq m = s.seq m) ∧
        u = { s with seqs := u.seqs, mem := { s.mem with due := s.mem.due.filter fun y => !hit y } }
    let mine := s.mem.tlb.filter (·.unit == unit)
    let entry : TlbEntry := { unit := unit, asid := asid, vpn := va.toNat / 32768, level := level, pte := leaf }
    let walked (l : List TlbEntry) : Prop := exec (.translationWalk unit asid va) s = .next (s.setMem { s.mem with tlb := l })
    let iss := s.parkedIssuer who p.asid
    let op : MemOp := match p.ver with
      | some v => .storeVer p.width v p.data
      | none => .store p.width p.data
    (s.mem.flight[k]? = some r → r.op = .store w v → r.entry = none → r.iss.chip = none → r.target = none →
      s.resolve r.iss.cluster r.iss r.ea w { wr := true } = .ok t → t.chip = s.chipId → s.pageParked r.iss r.ea = false →
      s.mustFollow k r t = false →
      s.homeRefusal t r.iss.part (.store w v) = none → look none s.mem.held (lineOf t.la) = none → s.mem.chain.contains (lineOf t.la) = false →
      ∃ u, exec (.homeAccess (.request k)) s = .next u ∧ Writes s u t.la w v ∧ u.mem.flight = s.mem.flight.eraseIdx k ∧
        u.seqs = s.seqs ∧ u.cores = s.cores) ∧
    (s.mem.chain.contains line = true → s.mem.nextParked line = some e → e.op = .store off w x v → off < 64 →
      ∃ u, exec (.chainApply line) s = .next u ∧ Writes s u (64 * line + off) w v ∧ u.mem.ver line = x ∧ e ∉ u.mem.staged ∧
        u = { s with mem := u.mem }) ∧
    (s.mem.chain.contains line = true → s.mem.nextParked line = none →
      exec (.chainApply line) s = .next (s.setMem { s.mem with chain := s.mem.chain.filter (· != line) })) ∧
    answers (.waitingLoadAnswer line) false ∧ answers (.barrierWaitAnswer line) true ∧
    (s.cachedLeaf unit asid va.toNat = none → va.extractLsb' 51 13 = 0 → s.walk asid va.toNat = .ok (leaf, level) →
      (mine.length < 2048 → walked (s.mem.tlb ++ [entry])) ∧
      (∀ y l, mine = y :: l → 2048 ≤ mine.length → walked (s.mem.tlb.erase y ++ [entry]))) ∧
    ((∃ n, n < 2000 ∧ (who = .seq n ∨ who = .ve n)) → retryIndex (s.replayOf who) = some k → (s.replayOf who)[k]? = some p →
      s.resolve iss.cluster iss p.va p.width (opNeed op) = .ok t → s.retryWaits who ((s.replayOf who).take k) p t = false →
      ∃ u q, exec (.parkedStoreRetry who) s = .next u ∧ u.replayOf who = (s.replayOf who).eraseIdx k ∧ u.mem.flight = s.mem.flight ++ [q] ∧
        q.ea = p.va ∧ q.op = op ∧ q.target = some t ∧ u.mem.bytes = s.mem.bytes) ∧
    (retryIndex (s.replayOf who) = none → exec (.parkedStoreRetry who) s = .next s) ∧
    (who = .seq n → n < 2000 → (s.replayOf who).find? (fun y => decide (y.born + 100000000 ≤ s.mgmt.podTime.toNat)) = some p →
      ∃ u, exec (.parkedStoreAgeExpiry who) s = .next u ∧ u.replayOf who = [] ∧ u.mem.bytes = s.mem.bytes ∧
        ∀ rg own task, (s.seq n).region = some rg → (s.region rg).owner = some own → s.task own.1 = some task →
          ∃ y, u.task own.1 = some y ∧ y.ending = true) ∧
    ((∀ y ∈ s.replayOf who, s.mgmt.podTime.toNat < y.born + 100000000) → exec (.parkedStoreAgeExpiry who) s = .next s)

/-- R77, R412, R441 to R445: a correctable error is counted; an uncorrectable one poisons its line or block, marks a dirty line of the L2
cache, fails its core and takes the accumulator slot that it met, poisons a group's line at its home and dooms a group that is not committing, loses
the copy of a decision record with its reserved line, and is logged; a write to BR_ERRPOP takes the oldest entry off the log. Where it rests on a choice of the model: log 18. -/
def Obligations.ErrorEvents : Prop :=
  ∀ (s : State) (n line k slot : Nat) (v : W64) (h : Held) (g : GroupId),
    let logged (u : State) (reason : BitVec 3) (part : BitVec 7) (a : Nat) : Prop :=
      s.mem.log.length < 64 → ({ reason := reason, part := part, addr := BitVec.ofNat 46 a } : ErrEntry) ∈ u.mem.log
    let cached : L2Line := look {} s.mem.l2 line
    let decided : Prop := s.decided h.gid = true ∨ (h.gid.chip = s.chipId ∧ (s.ofGid h.gid).epoch = h.gid.epoch ∧ (s.ofGid h.gid).state = 3)
    exec .correctableError s = .next (s.setMem { s.mem with corr := if s.mem.corr = 0xFFFF then 0xFFFF else s.mem.corr + 1 }) ∧
    (∃ u, exec (.uncorrectableError (.tile line)) s = .next u ∧ look false u.mem.bad line = true ∧
      (∀ l, l ≠ line → look false u.mem.bad l = look false s.mem.bad l) ∧ u.mem.bytes = s.mem.bytes ∧
      logged u 1 (s.ownerOf (64 * line)) (64 * line)) ∧
    (∃ u, exec (.uncorrectableError (.ecc line)) s = .next u ∧ look false u.mem.clean (line / 8) = false ∧ u.mem.bytes = s.mem.bytes ∧
      look 0 u.mem.errors (frameOf (64 * line)) = look 0 s.mem.errors (frameOf (64 * line)) + 1 ∧
      logged u 1 (s.ownerOf (64 * line)) (64 * line)) ∧
    (∃ u, exec (.uncorrectableError (.mac line)) s = .next u ∧ look false u.mem.clean (line / 8) = false ∧ u.mem.bytes = s.mem.bytes ∧
      logged u 2 (s.ownerOf (64 * line)) (line / 8 * 512)) ∧
    (∃ u, exec (.uncorrectableError (.l2 line)) s = .next u ∧ u.mem.bytes = s.mem.bytes ∧ logged u 1 cached.part (64 * line) ∧
      (∀ l, look false u.mem.badL2 l = if l = line ∧ cached.dirty = true then true else look false s.mem.badL2 l)) ∧
    (look none s.mem.held line = some h →
      (decided → ∃ u, exec (.uncorrectableError (.staging line)) s = .next u ∧ look none u.mem.held line = some { h with poisoned := true } ∧
        (∀ l, l ≠ line → look none u.mem.held l = look none s.mem.held l) ∧ u.mem.bytes = s.mem.bytes ∧ logged u 4 h.part (64 * line)) ∧
      (¬ decided → h.gid.chip = s.chipId → (s.ofGid h.gid).epoch = h.gid.epoch → (s.ofGid h.gid).state = 1 ∨ (s.ofGid h.gid).state = 2 →
        ∃ u, exec (.uncorrectableError (.staging line)) s = .next u ∧ look none u.mem.held line = some { h with poisoned := true } ∧
          (u.ofGid h.gid).code = (if (s.ofGid h.gid).code = 0 then 18 else (s.ofGid h.gid).code) ∧ logged u 4 h.part (64 * line))) ∧
    (s.decided g = false → g.chip = s.chipId → (s.ofGid g).epoch = g.epoch → (s.ofGid g).recordHere = true →
      ∃ u, exec (.uncorrectableError (.record g)) s = .next u ∧ u.ofGid g = { s.ofGid g with recordHere := false } ∧
        u.mem.reserved = s.mem.reserved.erase (g.grp.toNat, g) ∧ u.mem.bytes = s.mem.bytes) ∧
    (s.decided g = true → ∃ u, exec (.uncorrectableError (.record g)) s = .next u ∧ u.decided g = false ∧ u.mem.bytes = s.mem.bytes) ∧
    (∃ u, exec (.uncorrectableError (.accumulator n slot)) s = .next u ∧ (u.core n).failed = true ∧ slot ∈ (u.mn n).lost ∧ slot ∉ (u.mn n).free ∧
      slot ∉ (u.mn n).returning ∧ (∀ a, a ≠ slot → (a ∈ (u.mn n).free ↔ a ∈ (s.mn n).free)) ∧ (∀ c, c ≠ n → u.core c = s.core c)) ∧
    (∃ u, exec (.uncorrectableError (.core n)) s = .next u ∧ (u.core n).failed = true ∧ (∀ c, c ≠ n → u.core c = s.core c) ∧
      (s.islandOf n = some k → (u.island k).hold ≠ none) ∧ u.mem.bytes = s.mem.bytes ∧ logged u 1 (look 0 s.brass.coreOf n) (scratchAt n 0)) ∧
    (s.barOpen = true → v.getLsbD 0 = true → exec (.brErrpopWrite v) s = .next (s.setMem { s.mem with log := s.mem.log.tail })) ∧
    (v.getLsbD 0 = false → exec (.brErrpopWrite v) s = .next s)

/-! ### Events of streams -/

/-- R264 to R267, R271, R275, R350, R351, R383: the oldest queued binding of a port starts, or stops with a handle fault where its handle does
not let it, and a collective waits for a link adder; a binding that has done its work frees its token and its port; a held end-of-round marker leaves once the round it waits for
has come, stamped with the port's round; a collective ends for all once every participant has finished.
Where it rests on a choice of the model: logs 53, 54, 154. -/
def Obligations.StreamEvents : Prop :=
  ∀ (s : State) (port b core dir : Nat) (rest : List Nat) (x : Binding) (o : TokenOut) (cid : BitVec 32) (c : Collective),
    let bit : BitVec 8 := 1#8 <<< x.tok.toNat
    let q := s.seq x.seq
    let key := 4 * core + dir
    let heads : Prop := (s.port port).queue = b :: rest ∧ s.binding b = some x ∧ x.state = 1 ∧ s.stageStopped x = false ∧ s.addersTaken x = false
    let closes (i : Instr) (st : BitVec 3) : Prop :=
      ∃ u y, exec i s = .next u ∧ u.binding b = some y ∧ y.state = st ∧ (u.seq x.seq).tokens = q.tokens &&& ~~~bit ∧
        (∀ m, m ≠ x.seq → u.seq m = s.seq m) ∧ b ∉ (u.port x.port).queue ∧ u.mem = s.mem
    (heads → x.began = true → s.vectorFault x = none →
      exec (.bindingStart port) s = .next (s.setBinding b (some { x with state := 2 }))) ∧
    (heads → x.began = false → patKh x.pat = 0 → x.writesUnder = none ∨ x.writesUnder = some (x.pat, x.lay) → s.vectorFault x = none →
      exec (.bindingStart port) s = .next (s.setBinding b (some { x with state := 2, began := true }))) ∧
    (heads → x.began = false → x.write = false → x.writesUnder = none → s.handleLets x x.pat x.lay false = false → x.refetch = false →
      ∃ u y f, exec (.bindingStart port) s = .next u ∧ u.binding b = some y ∧ y.state = 3 ∧ y.fault = some f ∧ f.cause = 0x031B ∧
        f.tval = (patKh x.pat).setWidth 64 ∧ b ∉ (u.port x.port).queue ∧ (u.seq x.seq).bindFaults = q.bindFaults ++ [(f, s.now)] ∧ u.mem = s.mem) ∧
    ((s.port port).queue = b :: rest → s.binding b = some x → s.addersTaken x = true → exec (.bindingStart port) s = .next s) ∧
    ((s.port port).queue = [] → exec (.bindingStart port) s = .next s) ∧
    (s.binding b = some x → s.bindingDone x = true → x.refetch = false → x.loose = false →
      closes (.bindingComplete b) (if x.cancelled then 4 else 0)) ∧
    (s.binding b = some x → s.bindingDone x = false → exec (.bindingComplete b) s = .next s) ∧
    (s.binding b = some x → x.state = 2 → x.write = false → portSlot x.port = none → x.kind = .stream → s.stageStopped x = false → x.out = [o] →
      portCore x.port = (core, dir) → isMarker o.tok = true → markerKind o.tok = 1 → patKh x.pat = 0 →
      (s.roundHeld x core = true → ∃ u, exec (.streamRoundHoldRelease b) s = .next u ∧ u.binding b = some x ∧ u.fifo key = s.fifo key) ∧
      (s.roundHeld x core = false → s.coreOwner core = x.part →
        (s.fifo key).length + (look [] s.transit key).length < 32 →
        ∃ u, exec (.streamRoundHoldRelease b) s = .next u ∧ u.binding b = some { x with out := [], pos := o.pos } ∧
          u.fifo key = s.fifo key ++ [{ o.tok with rnd := (s.port x.port).rnd }] ∧ u.mem = s.mem)) ∧
    (s.coll cid = some c → c.mismatch = false → (∀ r, r ≤ c.nm1 → r ∈ c.finished) → c.joined = [(0, b)] → s.binding b = some x → x.state = 2 →
      x.refetch = false → x.loose = false → closes (.collectiveComplete cid) 0 ∧ ∃ u, exec (.collectiveComplete cid) s = .next u ∧ u.coll cid = none) ∧
    (s.coll cid = some c → (∃ r, r ≤ c.nm1 ∧ r ∉ c.finished) → exec (.collectiveComplete cid) s = .next s)

/-! ### Events of commit groups -/

/-- R278 to R283, R443, R451 to R454: a group store that reaches its home merges into the line's staged copy, which no other group may hold;
its acknowledgement is counted and dooms the group by its code; the first destination accepts the decision record, unless it holds an abort
mark; a commit packet publishes the staged copy and releases the hold, an abort packet releases it and writes nothing; the group falls free
once every destination has answered. Where it rests on a choice of the model: logs 16, 49. -/
def Obligations.GroupEvents : Prop :=
  ∀ (s : State) (k slice w chip : Nat) (e : GroupStore) (v : BitVec 512) (n : BitVec 6) (h : Held) (g : GroupId) (lines : BitVec 32),
    let line := lineOf e.la
    let x := s.ofGid e.gid
    let y := s.ofGid g
    let t : Target := { chip := s.chipId, la := e.la, ver := e.ver, key := e.key }
    let staged (code : BitVec 5) : List GroupStore := s.mem.groupStores.set k { e with staged := true, code := code, fault := none }
    let arrives : Prop := s.mem.groupStores[k]? = some e ∧ e.staged = false ∧ e.home = s.chipId ∧ e.req.op = .group n w v ∧
      (e.gid.chip = s.chipId → s.current e.gid = true ∧ (x.state = 1 ∨ x.state = 2))
    let answered : Prop := s.mem.groupStores[k]? = some e ∧ e.staged = true ∧ e.acked = false ∧ e.gid.chip = s.chipId ∧
      s.current e.gid = true ∧ x.state = 2
    let pieces : BitVec 512 := BitVec.ofNat 512 (v.toNat % 2 ^ (8 * w))
    (arrives → look none s.mem.held line = none → s.homeRefusal t e.req.iss.part (.load 64) = none → s.wayRoom e.la e.req.iss.part = true →
      s.mem.chain.contains line = false →
      ∃ u z, exec (.groupStoreStaging k) s = .next u ∧ look none u.mem.held line = some z ∧ z.gid = e.gid ∧ z.part = e.req.iss.part ∧
        z.copy = mergeStore (s.mem.read (64 * line) 64) e.la w v ∧ z.first = e.first ∧ u.mem.groupStores = staged 0 ∧
        u.mem.bytes = s.mem.bytes ∧ ∀ l, l ≠ line → look none u.mem.held l = look none s.mem.held l) ∧
    (arrives → look none s.mem.held line = some h → h.gid = e.gid →
      ∃ u, exec (.groupStoreStaging k) s = .next u ∧ look none u.mem.held line = some { h with copy := mergeStore h.copy e.la w v } ∧
        u.mem.groupStores = staged 0 ∧ u.mem.bytes = s.mem.bytes) ∧
    (arrives → look none s.mem.held line = some h → h.gid ≠ e.gid →
      exec (.groupStoreStaging k) s = .next (s.setMem { s.mem with groupStores := staged 13 })) ∧
    (e.la % 64 + w ≤ 64 → ∀ c i, i < 64 → byteAt (mergeStore c e.la w v) i =
      if e.la % 64 ≤ i ∧ i < e.la % 64 + w then byteAt pieces (i - e.la % 64) else byteAt c i) ∧
    (answered → e.fault = none → ∃ u, exec (.gstAck k) s = .next u ∧ (u.ofGid e.gid).acks = x.acks + 1 ∧
      (u.ofGid e.gid).code = (if x.code = 0 then e.code else x.code) ∧ u.mem.bytes = s.mem.bytes) ∧
    (answered → e.fault ≠ none → ∃ u, exec (.gstAck k) s = .next u ∧ (u.ofGid e.gid).acks = x.acks + 1 ∧
      (u.ofGid e.gid).code = (if x.code = 0 then 17 else x.code)) ∧
    (s.mem.records.find? (·.1 == g) = some (g, slice, lines) → g.chip = s.chipId → s.current g = true →
      (g ∈ s.mem.aborts → ∃ u, exec (.decisionRecordWrite g) s = .next u ∧ (u.ofGid g).recordThere = some false ∧
        u.mem.decisions = s.mem.decisions ∧ u.mem.aborts = s.mem.aborts.erase g) ∧
      (g ∉ s.mem.aborts → s.reservedRoom slice = true → ∃ u, exec (.decisionRecordWrite g) s = .next u ∧
        (u.ofGid g).recordThere = some true ∧ u.mem.decisions = s.mem.decisions ++ [(g, lines)] ∧ u.mem.reserved = s.mem.reserved ++ [(slice, g)]) ∧
      (g ∉ s.mem.aborts → s.reservedRoom slice = false → exec (.decisionRecordWrite g) s = .next s)) ∧
    (g ∈ s.mem.commitsIn → s.linesOf g = [(k, h)] → h.poisoned = false → g.chip = s.chipId →
      ∃ u, exec (.commitPacket g) s = .next u ∧ Writes s u (64 * k) 64 h.copy ∧ look none u.mem.held k = none ∧
        u.mem.acksIn = s.mem.acksIn ++ [(g, s.chipId)] ∧ (h.ver = true → inHbm (64 * k) = true → u.mem.ver k = s.foundVer { chip := s.chipId, la := 64 * k, ver := true } + 1)) ∧
    (g ∉ s.mem.commitsIn → exec (.commitPacket g) s = .next s) ∧
    (g ∈ s.mem.abortsIn → s.linesOf g = [(k, h)] → g.chip = s.chipId →
      ∃ u, exec (.abortPacket g) s = .next u ∧ look none u.mem.held k = none ∧ u.mem.bytes = s.mem.bytes ∧ u.mem.vers = s.mem.vers ∧
        u.mem.acksIn = s.mem.acksIn ++ [(g, s.chipId)]) ∧
    (g ∉ s.mem.abortsIn → exec (.abortPacket g) s = .next s) ∧
    ((g, chip) ∈ s.mem.acksIn → s.current g = true →
      (y.dests = [chip] → ∃ u, exec (.groupDestinationAck g chip) s = .next u ∧ (u.ofGid g).state = 0 ∧ (u.ofGid g).epoch = y.epoch ∧
        (u.ofGid g).code = y.code ∧ u.mem.bytes = s.mem.bytes) ∧
      (chip ≠ s.chipId → y.dests = [chip, s.chipId] → y.deferred = true → ∃ u, exec (.groupDestinationAck g chip) s = .next u ∧
        (u.ofGid g).dests = [s.chipId] ∧ (u.ofGid g).state = y.state ∧ g ∈ u.mem.abortsIn)) ∧
    ((g, chip) ∉ s.mem.acksIn → exec (.groupDestinationAck g chip) s = .next s)

/-- R283, R453, R455, R456: a group open for 1 200 000 clock periods is aborted with code 16; a line held for 2 ms asks after its group the first
destination, or the initiator where that is cut off, and a first destination without a record leaves an abort mark; a query is answered by what the record or the group says; a chip seen to have
reset takes its marks and stores with it, and a line that only its group could decide is released poisoned.
Where it rests on a choice of the model: logs 113, 157. -/
def Obligations.GroupLosses : Prop :=
  ∀ (s : State) (asid : BitVec 16) (n : BitVec 6) (line chip : Nat) (first : Bool) (slice : Nat) (h : Held) (g : GroupId) (old : Option Nat),
    let x := s.group asid n
    let now := s.mgmt.podTime.toNat
    let due : Prop := look none s.mem.held line = some h ∧ h.since + 2000000 ≤ now ∧ h.asked = old ∧ (∀ a, old = some a → a + 100000 ≤ now)
    let asked (u : State) : Prop := ∃ z, look none u.mem.held line = some z ∧ z = { h with asked := some now }
    let queried : Prop := s.mem.queries.find? (fun q => q.1 == g && q.2.1 == chip) = some (g, chip, first, slice)
    let answers (v : Verdict) : Prop := ∃ u : State, exec (.groupResolveQuery g chip) s = .next (u.send chip (.resolved g v)) ∧
      u.mem.queries = s.mem.queries.erase (g, chip, first, slice) ∧ u.mem.bytes = s.mem.bytes
    ((x.state = 1 ∨ x.state = 2) → x.opened + 1200000 ≤ s.mgmt.periods → x.code = 0 → x.dests = [s.chipId] → x.sent = false →
      ∃ u, exec (.groupLifetimeExpiry asid n) s = .next u ∧ (u.group asid n).state = 4 ∧ (u.group asid n).code = 16 ∧
        s.gid asid n ∈ u.mem.abortsIn ∧ u.mem.bytes = s.mem.bytes) ∧
    (s.mgmt.periods < x.opened + 1200000 → exec (.groupLifetimeExpiry asid n) s = .next s) ∧
    (due → h.first.1 ≠ s.chipId → ∃ u : State, exec (.holdTimeoutResolve line false) s = .next (u.send h.first.1 (.resolve h.gid true h.first.2)) ∧
      asked u ∧ u.mem.bytes = s.mem.bytes) ∧
    (due → h.first.1 ≠ s.chipId → s.cutOff h.first.1 = false →
      ∃ u : State, exec (.holdTimeoutResolve line true) s = .next (u.send h.first.1 (.resolve h.gid true h.first.2)) ∧ asked u) ∧
    (due → s.cutOff h.first.1 = true → h.gid.chip ≠ s.chipId →
      ∃ u : State, exec (.holdTimeoutResolve line true) s = .next (u.send h.gid.chip (.resolve h.gid false h.first.2)) ∧ asked u ∧
        u.mem.bytes = s.mem.bytes) ∧
    (due → h.first.1 = s.chipId → s.decided h.gid = false → h.gid ∉ s.mem.aborts → ∃ u, exec (.holdTimeoutResolve line false) s = .next u ∧
      h.gid ∈ u.mem.aborts ∧ u.mem.bytes = s.mem.bytes) ∧
    (look none s.mem.held line = some h → now < h.since + 2000000 → exec (.holdTimeoutResolve line first) s = .next s) ∧
    (queried → first = true → s.decided g = true → answers .commit) ∧
    (queried → first = true → s.decided g = false → ∃ u : State, exec (.groupResolveQuery g chip) s = .next (u.send chip (.resolved g .abort)) ∧
      g ∈ u.mem.aborts) ∧
    (queried → first = false → (s.ofGid g).epoch = g.epoch →
      answers (if (s.ofGid g).state = 3 then .commit else if (s.ofGid g).state = 2 then .wait else .abort)) ∧
    (queried → first = false → (s.ofGid g).epoch ≠ g.epoch → answers .abort) ∧
    (s.mem.queries = [] → exec (.groupResolveQuery g chip) s = .next s) ∧
    (s.mem.held = [] → s.mem.groups = [] → ∃ u, exec (.chipLost chip) s = .next u ∧ chip ∈ u.mem.gone ∧ (∀ a ∈ u.mem.aborts, a.chip ≠ chip) ∧
      (∀ e ∈ u.mem.groupStores, e.gid.chip ≠ chip) ∧ (∀ e ∈ u.mem.groupStores, e ∈ s.mem.groupStores) ∧ u.mem.bytes = s.mem.bytes) ∧
    (s.mem.held = [(line, some h)] → h.gid.chip = chip → h.first.1 = chip → s.mem.groups = [] →
      ∃ u, exec (.chipLost chip) s = .next u ∧ look none u.mem.held line = none ∧ look false u.mem.clean (line / 8) = false ∧
        u.mem.bytes = s.mem.bytes)

/-! ### Events of sequencers -/

/-- R143, R151, R287, R288, R401, R403, R405, R418: a signal sets the event flag of a sequencer of the sender's partition; the last arrival at
a barrier releases every program of the gang; code that waits is loaded while its sequencer is idle; the first waiting fault enters the trap
at a boundary with no trap unacknowledged; Brass ends the task of a halted sequencer; a word that decodes to no instruction is kind 0x02.
Where it rests on a choice of the model: logs 58, 64. -/
def Obligations.SequencerEvents : Prop :=
  ∀ (s : State) (n k r task st entry : Nat) (p : BitVec 7) (b : BitVec 4) (x : Task) (l : List Word) (f : FaultRec) (w : Word),
    let q := s.seq n
    let boundary : Prop := n ≤ 32 ∧ q.lostIsls = [] ∧ q.unack = false ∧ q.run = .running ∧ q.barrier = none ∧ q.wait = none
    (s.brass.signals.find? (·.1 == n) = some (n, p) →
      ∃ u, exec (.eventFlagSet n) s = .next u ∧ u.seq n = (if q.part = p then { q with event := true } else q) ∧
        (∀ m, m ≠ n → u.seq m = s.seq m) ∧ u.brass.signals = s.brass.signals.erase (n, p) ∧
        u = { s with seqs := u.seqs, brass := { s.brass with signals := u.brass.signals } }) ∧
    (s.task task = some x → x.origin = none → s.allArrived x b = true → s.programs x ≠ [] →
      ∃ u y, exec (.gangBarrierRelease task b) s = .next u ∧ u.task task = some y ∧ look 0 y.barriers b.toNat = look 0 x.barriers b.toNat + 1 ∧
        (∀ c, c ≠ b.toNat → look 0 y.barriers c = look 0 x.barriers c) ∧
        (∀ e ∈ s.programs x, (s.seq e.2).barrier = some b → u.seq e.2 = { s.seq e.2 with barrier := none }.step) ∧
        (∀ m, (∀ e ∈ s.programs x, e.2 ≠ m) → u.seq m = s.seq m) ∧ u.mem = s.mem) ∧
    (s.task task = some x → s.allArrived x b = false → exec (.gangBarrierRelease task b) s = .next s) ∧
    (q.code = some (entry, l) →
      (q.codeMayLoad = true → ∃ u, exec (.sequencerCodeLoad n) s = .next u ∧ (∀ j, look 0 (u.seq n).imem j = (l[j]?).getD 0) ∧
        (q.run = .running → SeqBecomes s u n { q with imem := (u.seq n).imem, code := none, pc := BitVec.ofNat 64 entry, wait := none }) ∧
        (q.run ≠ .running → SeqBecomes s u n { q with imem := (u.seq n).imem, code := none })) ∧
      (q.codeMayLoad = false → exec (.sequencerCodeLoad n) s = .next s)) ∧
    (boundary → firstWaiting (s.waiting n) = some (.island k f) → ∃ u q', exec (.faultDelivery n) s = .next u ∧
      u.seq n = { q' with record0Isl := some k } ∧ Traps q q' f.cause q.pc f.tval f.tinfo f.mask ∧ (∀ m, m ≠ n → u.seq m = s.seq m) ∧
      u.island k = { s.island k with fault := none, delivered := some f } ∧ u = { s with seqs := u.seqs, islands := u.islands }) ∧
    (boundary → firstWaiting (s.waiting n) = some (.binding f) → ∃ u q', exec (.faultDelivery n) s = .next u ∧
      SeqBecomes s u n { q' with bindFaults := q.bindFaults.filter (·.1 != f) } ∧ Traps q q' f.cause q.pc f.tval f.tinfo f.mask) ∧
    (n ≤ 32 → q.lostIsls = [] → q.unack = true → ∃ u, exec (.faultDelivery n) s = .next u ∧ SeqBecomes s u n q) ∧
    (q.run = .halted → q.region = some r → (s.region r).owner = some (task, st) → s.task task = some x →
      ∃ u y, exec (.contextFault n) s = .next u ∧ u.task task = some y ∧ y.ending = true ∧
        (∀ z, x.stages[st]? = some z → z.cause = none → (y.stages[st]?).bind (·.cause) = some
          ((q.tcause1.setWidth 16 : BitVec 16) ++ (q.tcause0.setWidth 16 : BitVec 16))) ∧ u.mem = s.mem) ∧
    (q.run ≠ .halted → exec (.contextFault n) s = .next s) ∧
    (s.actor = .seq n → q.unack = false → ∃ u q', exec (.illegalWordDecode w) s = .next u ∧ SeqBecomes s u n q' ∧
      Traps q q' 0x0102 q.pc (w.setWidth 64) 0) ∧
    (s.actor = .ve n → ∃ g, exec (.illegalWordDecode w) s = .next { s with scratch := { s.scratch with faults := s.scratch.faults ++ [(2 * n, g)] } } ∧
      g.cause = 0x0202 ∧ g.tval = w.setWidth 64) ∧
    (s.actor = .mn n → ∃ g, exec (.illegalWordDecode w) s =
        .next { s with scratch := { s.scratch with faults := s.scratch.faults ++ [(2 * n + 1, g)] } } ∧ g.cause = 0x0202 ∧ g.tval = w.setWidth 64)

/-! ### Events of Brass -/

/-- R318 to R324: TAIL takes the tail word, or the highest value that a write has left in it, where that is higher; a record of the right
sequence number whose descriptor is good becomes a task, and HEAD moves on and is stored in the head word; one with reserved bits set becomes
a task that has ended with STATUS 1, and BADR is set; one from an earlier lap waits, one from a later lap overflows the queue, any other is
refused; a dependence whose version has come makes its task ready, an unaligned one ends it with STATUS 2; BR_QTAIL raises TAIL and the tail
word; BR_QCFG enables a queue whose ring and doorbell have been written. Where it rests on a choice of the model: logs 26, 62, 112, 152. -/
def Obligations.QueueEvents : Prop :=
  ∀ (s s1 s2 : State) (q task : Nat) (a : Answer) (l : List Stage) (x : Task) (v : W64) (t : Target),
    let y := s.queue q
    let after := s.brassRead t y.part
    let now : W64 := (s.mem.read t.la 8).setWidth 64
    let high := (s.listen y).rung y
    let word := if now.ult high then high else now
    let rec_ : BitVec 512 := s.mem.read t.la 64
    let d := (recSeq rec_ - (y.head + 1)).toInt
    let va := recDepa x.record
    let slotRead : Prop := y.en = true ∧ y.ovf = false ∧ y.head.ult y.tail = true ∧
      BrassReaches s (queueWork q) y.asid y.part (y.slotAt y.head) (.load 64) t
    let depends : Prop := s.task task = some x ∧ x.state = .waiting ∧ va.toNat % 64 = 0 ∧
      BrassReaches s (taskWork task) x.asid x.part va .readVer t ∧ inHbm t.la = true
    let at_ (p : W64) (op : MemOp) : Prop := BrassOpen s y.asid y.part p op t
    (s.bellAt y = some t → BrassReaches s (queueWork q) y.asid y.part y.db (.load 8) t →
      ∃ u, exec (.tailUpdate q) s = .next u ∧ u.queue q = { y with tail := if y.tail.ult word then word else y.tail } ∧
        (∀ j, j ≠ q → u.queue j = s.queue j) ∧ u.mem.bytes = s.mem.bytes) ∧
    (s.bellAt y = some t → (s.listen y).brassAccess (queueWork q) y.asid y.part y.db (.load 8) = .got a s1 → a.fault ≠ none →
      ∃ u, exec (.tailUpdate q) s = .next u ∧ u.queue q = s1.queue q ∧ u.mem = s1.mem) ∧
    (s.bellAt y = none → exec (.tailUpdate q) s = .next s) ∧
    (slotRead → d = 0 → recClean rec_ = true → after.readGang q rec_ = .ok l s2 →
      ∃ u z, exec (.queueRecordRead q) s = .next u ∧ u.task s2.brass.nextTask = some z ∧ z.stages = l ∧ z.nstg = l.length ∧ z.record = rec_ ∧
        z.queue = q ∧ z.cost = costOf s2.chipId l ∧ z.state = (if recDepa rec_ = 0 then .ready else .waiting) ∧
        u.brass.nextTask = s2.brass.nextTask + 1 ∧ u.queue q = { s2.queue q with head := (s2.queue q).head + 1 }) ∧
    (at_ (y.db + 8) (.store 8 ((y.head + 1).setWidth 512)) → Writes s (s.advanceHead q) t.la 8 ((y.head + 1).setWidth 512)) ∧
    (slotRead → d = 0 → recClean rec_ = false →
      ∃ u z, exec (.queueRecordRead q) s = .next u ∧ u.task s.brass.nextTask = some z ∧ z.record = rec_ ∧ z.state = .ended ∧ z.status = 1 ∧
        u.queue q = { y with badr := true, head := y.head + 1 }) ∧
    (slotRead → d < 0 → exec (.queueRecordRead q) s = .next (after.endWork (queueWork q))) ∧
    (slotRead → 0 < d →
      (d % y.size = 0 → ∃ u, exec (.queueRecordRead q) s = .next u ∧ u.queue q = { y with ovf := true } ∧ u.brass.tasks = s.brass.tasks) ∧
      (d % y.size ≠ 0 → ∃ u, exec (.queueRecordRead q) s = .next u ∧ u.queue q = { y with badr := true, head := y.head + 1 } ∧
        u.brass.tasks = s.brass.tasks)) ∧
    (y.en = false ∨ y.ovf = true ∨ y.head.ult y.tail = false → exec (.queueRecordRead q) s = .next s) ∧
    (depends →
      (verGe (s.foundVer t) (recDepv x.record) = true →
        ∃ u, exec (.dependenceCheck task) s = .next u ∧ u.task task = some { x with state := .ready } ∧ u.mem = (s.brassRead t x.part).mem) ∧
      (verGe (s.foundVer t) (recDepv x.record) = false →
        exec (.dependenceCheck task) s = .next ((s.brassRead t x.part).endWork (taskWork task)))) ∧
    (s.task task = some x → x.state = .waiting → va.toNat % 64 ≠ 0 →
      ∃ u, exec (.dependenceCheck task) s = .next u ∧ u.task task = some { x with state := .ended, status := 2 } ∧ u.mem = s.mem) ∧
    (s.barOpen = true → y.tail.ult v = true → ∃ u, exec (.brQtailWrite q v) s = .next u ∧ u.queue q = { y with tail := v } ∧
      (at_ y.db (.atom .maxu 8 v 0) → now.ult v = true → Writes s u t.la 8 (v.setWidth 512))) ∧
    (s.barOpen = true → y.tail.ult v = false → ∃ u, exec (.brQtailWrite q v) s = .next u ∧ u.queue q = y) ∧
    (s.barOpen = false → exec (.brQtailWrite q v) s = .next s ∧ exec (.queueEnable q v) s = .next s) ∧
    (s.barOpen = true → y.ringSet = true → y.dbSet = true → v.setWidth 16 ≠ (0 : BitVec 16) → (v.extractLsb' 58 4).toNat ≤ 12 →
      ∃ u, exec (.queueEnable q v) s = .next u ∧ u.queue q = { y with cfg := v &&& 0xFFFFFFFFFFC0FFFF } ∧
        u.mem = { s.mem with bells := u.mem.bells }) ∧
    (s.barOpen = true → y.ringSet = false ∨ y.dbSet = false → ∃ u, exec (.queueEnable q v) s = .next u ∧ (u.queue q).en = false ∧
      u.mem = { s.mem with bells := u.mem.bells })

/-- R325 to R332, R406, R474: selection makes the head that deficit round robin serves a pending head; a starved level and a spent slice are
marked; placement gives a stage its region and sequencer; a placed stage is loaded, not yet enabled; a task whose stages are done writes its
completion record and is forgotten; a task that is to be ended ends, once what it has issued is done, with STATUS 3 and its regions are free.
Where it rests on a choice of the model: logs 15, 65 to 67, 71, 118, 149. -/
def Obligations.TaskEvents : Prop :=
  ∀ (s s1 s2 s3 : State) (t k stage key q cyc : Nat) (p : BitVec 7) (x : Task) (st : Stage) (w : Machine.Place) (l : Level) (tg : Target)
    (im : Image) (ds : List (BitVec 64)) (tab : List Byte),
    let lv (n : Nat) : Level := look {} (s.part p).levels n
    let qs := s.queuesAt p k
    let cost (j : Nat) : Nat := ((s.queueHead j).map (·.2.cost)).getD 0
    let fit : Fit := { clu := clusterOf key, row := rowOf key, col := colOf key, alt := st.alt, seq := st.seq, part := x.part, asid := x.asid }
    let nw := stageNw st
    let va := recCmpa x.record
    let finished : Prop := s.task t = some x ∧ x.origin = none ∧ x.ending = false ∧ s.host.l2req.getLsbD 0 = false ∧
      ((x.state = .resident ∧ ∀ z ∈ x.stages, z.done ≠ none) ∨ x.state = .ended)
    let loads : Prop := s.task t = some x ∧ x.stages[stage]? = some st ∧ st.region = some key ∧ x.state = .starting ∧ x.saved = none ∧
      st.loaded = false
    (s.brass.stopped = false → s.nextLevel p = some k →
      drr qs (fun j => (look 0 s.brass.weights j).toNat) cost (400 * (qs.length + 1)) (lv k) = (l, some q) → s.queueHead q = some (t, x) →
      ∃ u y, exec (.taskSelect p.toNat) s = .next u ∧ u.task t = some y ∧ y.state = .pending ∧ y.urgent = l.starved ∧
        (u.part p).pending = t :: (s.part p).pending ∧ u.mem = s.mem) ∧
    (s.brass.stopped = true → exec (.taskSelect p.toNat) s = .next s) ∧
    ((lv k).since = some cyc → k < 8 →
      (cyc + 1200000 ≤ s.now → ∃ u, exec (.levelStarved p.toNat k) s = .next u ∧
        (look {} (u.part p).levels k : Level) = { lv k with starved := true } ∧ u.mem = s.mem) ∧
      (s.now < cyc + 1200000 → exec (.levelStarved p.toNat k) s = .next s)) ∧
    (s.task t = some x → x.state = .resident →
      (x.dispatched + s.sliceOf x ≤ s.now → exec (.sliceExpiry t) s = .next (s.setTask t (some { x with expired := true }))) ∧
      (s.now < x.dispatched + s.sliceOf x → exec (.sliceExpiry t) s = .next s)) ∧
    ((s.part p).pending = [t] → s.task t = some x → x.part = p → x.state = .pending → x.retryAt = none → x.saved = none → s.brass.stopped = false →
      x.stages = [st] → stageChip st = s.chipId → s.fitAll p {} 1 [] [] [st] = some [some w] →
      ∃ u y, exec (.placement p.toNat) s = .next u ∧ u.task t = some y ∧ y.state = .starting ∧
        y.stages = [{ st with region := some w.key, seq := w.seq, alt := w.alt, loaded := false }] ∧ (u.part p).pending = [] ∧
        (u.region w.key).owner = some (t, 0) ∧ (u.region w.key).part = p ∧ (u.region w.key).alt = w.alt ∧
        (∀ n, w.seq = some n → (u.seq n).region = some w.key) ∧ u.mem = s.mem) ∧
    (s.brass.stopped = true → exec (.placement p.toNat) s = .next s) ∧
    (loads → s.readImage (taskWork t) x.asid x.part (stageImage st) [] 10000 = .got (.done im) s1 → s1.imageStatus im fit = (0, ds) →
      im.refs st.alt = nw → s1.brassBytes (taskWork t) x.asid x.part (stageWtab st) (16 * nw) (16 * nw) [] = .bytes tab s2 →
      (∀ e ∈ dataWrites im st.alt (stageDbase st), s2.brassHeld x.asid x.part e.1 e.2.1 = false) →
      s2.writeAll x.asid x.part (dataWrites im st.alt (stageDbase st)) = some s3 →
      ∃ u : State, exec (.stageStart t stage) s = .next (u.readyTask t) ∧ (∀ i ∈ (u.region key).islands, (u.island i).enabled = false) ∧
        u.task t = (s3.task t).map (fun y => { y with stages := y.stages.modify stage fun z => { z with loaded := true } }) ∧
        (u.region key).weights = weightsOf im st.alt tab nw ∧ u.mem = s3.mem) ∧
    (loads → s.readImage (taskWork t) x.asid x.part (stageImage st) [] 10000 = .got .bad s1 →
      exec (.stageStart t stage) s = .next (s1.refuseTask t x)) ∧
    (finished → va = 0 → ∃ u, exec (.taskCompletion t) s = .next u ∧ u.task t = none) ∧
    (finished → va ≠ 0 → va.toNat % 64 ≠ 0 →
      ∃ u, exec (.taskCompletion t) s = .next u ∧ u.task t = none ∧ (u.queue x.queue).cmpf = true) ∧
    (finished → va ≠ 0 → va.toNat % 64 = 0 → BrassReaches s (taskWork t) x.asid x.part va (.store 64 (completionRecord x)) tg →
      ∃ u, exec (.taskCompletion t) s = .next u ∧ u.task t = none ∧
        (x.frames = [] → x.saved = none → s.chansOf t = [] → Writes s u tg.la 64 (completionRecord x))) ∧
    (s.task t = some x → x.state = .resident → (∃ z ∈ x.stages, z.done = none) → exec (.taskCompletion t) s = .next s) ∧
    (x.stages.length ≤ 14 → x.status < 256 → x.nstg < 256 → ∀ j z, x.stages[j]? = some z →
      (completionRecord x).extractLsb' (64 + 32 * j) 32 = (z.done.or z.cause).getD x.cause ∧
      (completionRecord x).extractLsb' 0 32 = recStag x.record ∧ (completionRecord x).extractLsb' 32 8 = BitVec.ofNat 8 x.status ∧
      (completionRecord x).extractLsb' 40 8 = BitVec.ofNat 8 x.nstg) ∧
    (s.task t = some x → x.ending = true → x.origin = none → s.host.l2req.getLsbD 0 = false → (s.haltTask x).taskQuiet x = true →
      ∃ u y, exec (.taskEnd t) s = .next u ∧ u.task t = some y ∧ y.state = .ended ∧ y.status = 3 ∧ y.ending = false ∧
        (∀ z ∈ y.stages, z.region = none ∧ z.seq = none) ∧ ∀ r ∈ x.regions, u.region r.2 = {}) ∧
    (s.task t = some x → x.ending = true → (s.haltTask x).taskQuiet x = false → exec (.taskEnd t) s = .next (s.haltTask x)) ∧
    (s.task t = some x → x.ending = false → exec (.taskEnd t) s = .next s)

/-- R404, R408, R412 to R415, R469 to R471: a stage that restarts is held, waits until it has settled, and goes on from its restart round with
its islands enabled; the fifth restart at one round in a row ends its task; a stage without a place for its failed core takes victims or, where
they give it none, pre-empts its gang, and one with a place is loaded there and restarted; a channel is replayed from its log; the waiver of the other members ends after SKEW.
Where it rests on a choice of the model: logs 68 to 70, 128. -/
def Obligations.StageRecoveries : Prop :=
  ∀ (s s3 s5 : State) (t stage key ch cyc : Nat) (x : Task) (st : Stage) (g : GangChannel) (rounds : Option (List (BitVec 8)))
    (w : Machine.Place) (im : Image),
    let here : Prop := s.task t = some x ∧ x.stages[stage]? = some st ∧ st.region = some key
    let steady : Prop := here ∧ x.state = .resident ∧ x.preempt = false ∧ x.ending = false
    let held := (s.holdRegion key).waive x stage true
    let head := ((s.restartRounds key).bind (·.head?)).getD 0
    let busy (k : Nat) : Bool := ((x.stages[k]?).map fun y => y.restart || y.moving || y.shrinkTo.isSome || y.failed).getD false
    let moved := (held.onTaskStage t stage fun _ => { st with moving := true }).stopStage x st
    let lost := held.onTaskStage t stage fun y => { y with moving := true }
    let still := lost.stopStage x st
    let kept := still.endTaking t
    let room := still.victimsFor x fun f => (still.recoverWith x st key f).isSome
    let v := s3.contextOf [key] st.seq.toList [] false
    let placed : Stage := { st with region := some w.key, seq := w.seq, alt := w.alt, loaded := true }
    (steady → st.failed = false → st.restart = true → st.moving = false → 4 ≤ st.restarts → st.lastRst = head →
      exec (.stageRestart t stage) s = .next (held.setTask t (some { x with ending := true }))) ∧
    (steady → st.failed = false → st.restart = true → st.moving = true → st.shrinkTo = none → held.noLog x stage = false →
      (moved.stageSettled key st = false → exec (.stageRestart t stage) s = .next moved) ∧
      (moved.stageSettled key st = true → moved.chansOf t = [] → rounds = s.restartRounds key →
        ∃ u, exec (.stageRestart t stage) s = .next u ∧ u = moved.rerun t x stage key { st with moving := true } rounds ∧
          (∀ i ∈ (s.region key).islands, (u.island i).enabled = true ∧ (u.island i).hold = none) ∧ u.mem.bytes = s.mem.bytes)) ∧
    (here → st.failed = false → st.restart = false → st.shrinkTo = none → exec (.stageRestart t stage) s = .next s) ∧
    (steady → st.failed = true → lost.noLog x stage = false →
      (still.stageSettled key st = false → exec (.failedCoreRecovery t stage) s = .next still) ∧
      (still.stageSettled key st = true → still.recoverPlace x st key = none →
        (x.taking.any still.shrinking = true → exec (.failedCoreRecovery t stage) s = .next still) ∧
        (still.takeOn x.taking = none →
          (∀ steps gone, room = some (steps, gone) → ∃ u y, exec (.failedCoreRecovery t stage) s = .next u ∧ u.task t = some y ∧
            y.taking = ((steps.map (·.task)) ++ gone.map (·.1)).eraseDups) ∧
          (room = none → ∃ u y, exec (.failedCoreRecovery t stage) s = .next u ∧ u.task t = some y ∧ y.preempt = true))) ∧
      (still.stageSettled key st = true → still.recoverPlace x st key = some w → kept.chansOf t = [] → rounds = s3.restartRounds key →
        kept.readImage (taskWork t) x.asid x.part (stageImage st) [] 10000 = .got (.done im) s3 →
        (((s3.takeOut [key] v).givePlace t x stage st w).moveChans t stage key w.key v).restage x st key w.key w.seq w.alt v im = some s5 →
        exec (.failedCoreRecovery t stage) s = .next (((s5.rerun t x stage w.key placed (roundsFor rounds (s5.region w.key).islands.length)).refetchAll x w.key w.seq).endWork (taskWork t)))) ∧
    (here → st.failed = false → exec (.failedCoreRecovery t stage) s = .next s) ∧
    (s.chan ch = some g → s.task g.task = some x → g.replay = some false → busy g.consumer = true → busy g.producer = false →
      ∃ u y, exec (.gangChannelReplay ch) s = .next u ∧ u.chan ch = some y ∧ y.replay = some true ∧ y.rcv = g.retired ∧ y.dlv = g.retired ∧
        y.skipTo = none ∧ u.fifo ch = [] ∧ look [] u.transit ch = g.log ∧ (∀ k, k ≠ ch → u.fifo k = s.fifo k)) ∧
    (s.chan ch = some g → s.task g.task = some x → g.replay = some false → busy g.consumer = false → busy g.producer = true →
      look [] s.transit ch = [] → ∃ u y, exec (.gangChannelReplay ch) s = .next u ∧ u.chan ch = some y ∧ y.replay = some true ∧
        y.skipTo = some (g.rcv, g.nrcv) ∧ u.fifo ch = s.fifo ch) ∧
    (s.chan ch = some g → g.replay ≠ some false → exec (.gangChannelReplay ch) s = .next s) ∧
    (s.task t = some x → x.stages[stage]? = some st → st.enabledAt = some cyc →
      (cyc + 1200 * skewOf x.record ≤ s.now → ∃ u y, exec (.recoverySkewExpiry t stage) s = .next u ∧ u.task t = some y ∧
        y.stages[stage]? = some { st with enabledAt := none } ∧
        ∀ r ∈ x.regions, r.1 ≠ stage → ∀ i ∈ (s.region r.2).islands, (u.island i).waived = false) ∧
      (s.now < cyc + 1200 * skewOf x.record → exec (.recoverySkewExpiry t stage) s = .next s))

/-- R333 to R335, R338, R362, R464 to R466, R475: a full pre-emption first stops the islands of the task, and once everything stands still and
the frames are there saves its context; a channel that does not settle in 10 ms leaves the context unsettled; work that waits for frames goes
on; the PF ends a task that waits, or gives up a save; a saved task comes back in place where its places are as they were; BR_L2REQ stops
dispatch. Where it rests on a choice of the model: logs 27, 74, 75. -/
def Obligations.SaveEvents : Prop :=
  ∀ (s : State) (t t0 need held n chip gang m : Nat) (p : BitVec 7) (x : Task) (v : Saved) (placing : Bool) (value : W64),
    let resident : Prop := s.task t = some x ∧ x.state = .resident ∧ x.ending = false ∧ x.preempt = true
    let waits : Prop := (s.part p).wait = some (t, placing, need, held)
    let back : Prop := s.task t = some x ∧ x.saved = some v ∧ x.state = .starting ∧ x.ending = false ∧ x.resume = false
    (resident → x.settling = none → x.origin = none → (∀ z ∈ x.stages, stageChip z = s.chipId) →
      ∃ u y, exec (.fullPreemption t) s = .next u ∧ u.task t = some y ∧ y.settling = some s.mgmt.podTime.toNat ∧ y.state = .resident ∧
        (∀ r ∈ x.regions, ∀ i ∈ (s.region r.2).islands, (s.island i).hold = none → (s.island i).stopAt = none →
          (u.island i).stopAt = some (s.now + 16)) ∧ u.mem = s.mem) ∧
    (resident → x.settling = some t0 → x.origin = none → (∀ z ∈ x.stages, z.seq = none) → s.atRest x = true → s.settledChans t = true →
      x.need = some n → n ≤ x.frames.length → s.host.l2req.getLsbD 0 = false →
      ∃ u y, exec (.fullPreemption t) s = .next u ∧ u.task t = some y ∧ y.state = .saved ∧ y.saved ≠ none ∧ y.preempt = false ∧
        y.frames = x.frames ∧ (∀ z ∈ y.stages, z.region = none ∧ z.seq = none) ∧
        ∀ a, (∀ f ∈ x.frames, a < f.toNat ∨ f.toNat + 4096 ≤ a) → u.mem.byte a = s.mem.byte a) ∧
    (resident → x.settling = some t0 → (∀ z ∈ x.stages, z.seq = none) → s.atRest x = false → exec (.fullPreemption t) s = .next s) ∧
    (s.task t = some x → x.settling = some t0 →
      (x.preempt = true → t0 + 10000000 ≤ s.mgmt.podTime.toNat → s.settledChans t = false →
        exec (.settleTimeout t) s = .next (s.setTask t (some { x with unsettled := true }))) ∧
      (s.mgmt.podTime.toNat < t0 + 10000000 ∨ s.settledChans t = true → exec (.settleTimeout t) s = .next s)) ∧
    (waits → s.task t = some x →
      (x.state ≠ .starting → exec (.saveResume p.toNat) s = exec (.fullPreemption t) s) ∧
      (x.state = .starting → exec (.saveResume p.toNat) s = .next (s.readyTask t))) ∧
    (waits → s.task t = none → exec (.saveResume p.toNat) s = .next (s.endFrameWait p t)) ∧
    (s.barOpen = true → waits → s.task t = some x →
      ∃ u y, exec (.saveEnd p.toNat) s = .next u ∧ u.task t = some y ∧ y.ending = true ∧ y.cause = 0x0401 ∧ y.frames = [] ∧
        (u.part p).wait = none ∧ (u.part p).pfTop = (s.part p).pfTop + BitVec.ofNat 64 x.frames.length) ∧
    (s.barOpen = true → waits → s.task t = some x → x.part = p → placing = false → x.origin = none → (∀ z ∈ x.stages, stageChip z = s.chipId) →
      ∃ u y, exec (.saveCancel p.toNat) s = .next u ∧ u.task t = some y ∧ y.preempt = false ∧ y.frames = [] ∧ (u.part p).wait = none ∧
        (∀ r ∈ x.regions, ∀ i ∈ (s.region r.2).islands, (u.island i).stopAt = none)) ∧
    (s.barOpen = false ∨ (s.part p).wait = none → exec (.saveEnd p.toNat) s = .next s ∧ exec (.saveCancel p.toNat) s = .next s) ∧
    (back → s.sealsLost v = true → exec (.restore t) s = .next (s.setTask t (some { x with ending := true }))) ∧
    (back → s.sealsLost v = false → s.acrossChips x = true → x.inPlace = none → x.origin = some (chip, gang, m) →
      (∀ z, x.stages.head? = some z → z.ready = none) → ∃ u : State, exec (.restore t) s =
        .next (u.send chip (.memberAnswer gang m (some s.mgmt.podTime) (s.samePlaces x v))) ∧ u.mem = s.mem ∧ u.cores = s.cores) ∧
    (back → s.sealsLost v = false → s.samePlaces x v = true → (if s.acrossChips x then x.inPlace = some true else x.inPlace = none) →
      exec (.restore t) s = .next (s.restoreHere t x v)) ∧
    (∀ c k, v.cores = [(c, k)] → k.ve.replay = [] → ∀ j, (s.putBack t v (v.seqNow x)).core j =
      if j = c then { k with failed := k.failed || (s.core c).failed } else s.core j) ∧
    (s.task t = some x → x.saved = none → exec (.restore t) s = .next s) ∧
    (s.barOpen = true → value.getLsbD 0 = true → s.host.l2req.getLsbD 0 = false → s.anyRunning = true →
      (∀ e ∈ s.brass.tasks, ∀ y, e.2 = some y → y.state = .starting) →
      ∃ u, exec (.brL2reqWrite value) s = .next u ∧ u.brass.stopped = true ∧ u.host.l2req = value.setWidth 2 ∧ u.mem = s.mem) ∧
    (s.barOpen = true → value.getLsbD 0 = true → s.host.l2req.getLsbD 0 = false → s.brass.tasks = [] →
      ∃ u, exec (.brL2reqWrite value) s = .next u ∧ u.brass.stopped = false ∧ u.mem.l2mode = value.getLsbD 1 ∧ u.mem.bytes = s.mem.bytes) ∧
    (s.barOpen = false → exec (.brL2reqWrite value) s = .next s)

/-- R286, R336, R337, R472 to R474: a member request that the launch table admits becomes a pending task of the entry's queue, and any other is
refused; a request unanswered for 1 ms counts as refused; a refusal sends the task back to be placed 100 µs later; the start time is the latest
ready time and 10 µs; a member late by SKEW pre-empts the gang, and the eighth time in a row ends it; a launch from another chip is appended
or refused with 15; a member's chip that is lost, or 10 ms unreachable, ends the task. Where it rests on a choice of the model: logs 73, 100. -/
def Obligations.GangEvents : Prop :=
  ∀ (s s1 : State) (chip gang stage id t k m : Nat) (asid : BitVec 16) (entry rec_ : BitVec 512) (arg start : W64) (b : List Byte) (g : Stage)
    (x : Task),
    let e : Stage := { entry := entry }
    let y := s.queue (stageQueue e)
    let good : Prop := entryClean entry = true ∧ stageChip e = s.chipId ∧ y.devl = true ∧ s.admits y.ten chip asid = true
    let request : Instr := .memberRequest chip gang stage asid entry arg
    let limit := start.toNat + 1000 * skewOf x.record
    let local_ : Prop := ∀ z ∈ x.stages, stageChip z = s.chipId
    let now := s.mgmt.podTime.toNat
    (s.memberOf chip gang stage = none → good →
      s.brassBytes (memberWork chip gang stage) y.asid y.part (stageImage e) 48 48 [] = .bytes b s1 → headerStage e b = some g →
      ∃ u z, exec request s = .next u ∧ u.task s1.brass.nextTask = some z ∧ z.state = .pending ∧ z.stages = [g] ∧ z.origin = some (chip, gang, stage) ∧
        z.asid = y.asid ∧ z.level = y.lvl ∧ s1.brass.nextTask ∈ (u.part y.part).pending) ∧
    (s.memberOf chip gang stage = none → ¬ good →
      exec request s = .next ((s.endWork (memberWork chip gang stage)).send chip (.memberAnswer gang stage none false))) ∧
    (s.task t = some x → x.state = .starting → ∃ (u : State) (z : Task), exec (.memberRequestTimeout t) s = .next u ∧ u.task t = some z ∧
      (∀ (j : Nat) (st : Stage), x.stages[j]? = some st → z.stages[j]? = some (match st.asked with
        | some t0 => if t0 + 1000000 ≤ now then { st with refused := true, asked := none } else st
        | none => st)) ∧ u.mem = s.mem) ∧
    (s.task t = some x → x.state ≠ .starting → exec (.memberRequestTimeout t) s = .next s ∧ exec (.gangRetry t) s = .next s) ∧
    (s.task t = some x → x.state = .starting → x.origin = none → x.ending = false → x.resume = false → x.saved = none →
      (∃ z ∈ x.stages, z.refused = true) → s.chansOf t = [] →
      ∃ u z, exec (.gangRetry t) s = .next u ∧ u.task t = some z ∧ z.state = .pending ∧ z.retryAt = some (now + 100000) ∧
        (∀ w ∈ z.stages, w.region = none ∧ w.refused = false) ∧ t ∈ (u.part x.part).pending) ∧
    (s.task t = some x → x.state = .starting → x.ending = false → x.startAt = none → x.origin = none → s.acrossChips x = true →
      (∀ z ∈ x.stages, stageChip z ≠ s.chipId → z.ready ≠ none) → x.ready ≠ none ∨ (∀ z ∈ x.stages, stageChip z ≠ s.chipId) →
      ∃ u z, exec (.gangStartTime t) s = .next u ∧ u.task t = some z ∧ z.startAt = some (latest (x.ready.toList ++
        (x.stages.filter fun st => stageChip st != s.chipId).filterMap (·.ready)) + 10000) ∧ t ∉ (u.part x.part).pending ∧ u.mem = s.mem) ∧
    (s.task t = some x → x.state = .starting → x.ending = false → x.startAt = some start → s.acrossChips x = true →
      s.mgmt.podTime.toNat < start.toNat → exec (.gangStartTime t) s = .next s) ∧
    (s.task t = some x → x.state = .starting → x.ending = false → x.startAt = some start → s.acrossChips x = true → s.mayStart x = true →
      start.toNat ≤ now → s.makeChans t x = some s1 → x.origin = none → exec (.gangStartTime t) s = .next (s1.startTask t)) ∧
    (∀ l : List W64, ∀ r ∈ l, r.toNat ≤ (latest l).toNat) ∧
    (s.task t = some x → x.startAt = some start → x.state = .resident →
      (now < limit → exec (.gangSkewExpiry t) s = .next s) ∧
      (limit ≤ now → (∀ z ∈ x.stages, z.started = true) → ∃ u, exec (.gangSkewExpiry t) s = .next u ∧
        u.task t = some { x with startAt := none } ∧ ∀ r ∈ x.regions, ∀ i ∈ (s.region r.2).islands, (u.island i).early = false) ∧
      (limit ≤ now → (∃ z ∈ x.stages, z.started = false) → x.origin = none → 7 ≤ x.skews →
        ∃ u, exec (.gangSkewExpiry t) s = .next u ∧ u.task t = some { x with startAt := none, ending := true, cause := 0x0402 }) ∧
      (limit ≤ now → (∃ z ∈ x.stages, z.started = false) → x.origin = none → x.skews < 7 →
        ∃ u z, exec (.gangSkewExpiry t) s = .next u ∧ u.task t = some z ∧ z.skews = x.skews + 1 ∧ z.preempt = true ∧ z.unsettled = true ∧ z.startAt = none)) ∧
    (((s.queue k).devl = false ∨ s.admits (s.queue k).ten chip asid = false) →
      exec (.remoteLaunch chip id asid k rec_) s = .next (s.send chip (.launchAnswer id 15 (-1)))) ∧
    ((s.queue k).devl = true → s.admits (s.queue k).ten chip asid = true →
      exec (.remoteLaunch chip id asid k rec_) s =
        .next ((s.append k rec_).1.send chip (.launchAnswer id (s.append k rec_).2.1 (s.append k rec_).2.2))) ∧
    (s.task t = some x → x.origin = none → x.state ≠ .ended → (∃ z ∈ x.stages, stageChip z = chip) → chip ≠ s.chipId →
      (chip ∈ s.mem.gone → exec (.memberUnreachable t chip) s = .next (s.setTask t (some { x with ending := true, cause := 0x0403 }))) ∧
      (chip ∉ s.mem.gone → s.portTo chip = none → look 0 x.unreached chip ≠ 0 → look 0 x.unreached chip + 10000000 ≤ now + 1 →
        exec (.memberUnreachable t chip) s = .next (s.setTask t (some { x with ending := true, cause := 0x0403 }))) ∧
      (chip ∉ s.mem.gone → s.portTo chip = none → look 0 x.unreached chip = 0 →
        exec (.memberUnreachable t chip) s = .next (s.setTask t (some { x with unreached := put 0 x.unreached chip (now + 1) })))) ∧
    (s.task t = some x → x.origin = some (chip, gang, m) → chip ∈ s.mem.gone →
      exec (.memberUnreachable t chip) s = .next (s.setTask t (some { x with ending := true }))) ∧
    (s.task t = some x → x.origin = none → local_ → chip ≠ s.chipId → exec (.memberUnreachable t chip) s = .next s)

/-- R357, R358, R371 to R374, R461 to R463: TAIL only rises, and a ring whose TAIL passes HEAD and SIZE sets OVF; a block that is malformed
or refused ends with status 1, one whose host read failed with 4, a cancelled one with 5, each with its completion entry and its message;
a plain block moves line by line; a function-level reset stops the rings of its functions, each at the end of its unit, which then quiesce
until their counts are zero; a quiescing function writes nothing to the host.
Where it rests on a choice of the model: logs 78 to 83, 119, 159. -/
def Obligations.HostEvents : Prop :=
  ∀ (s s1 : State) (f r n : Nat) (v : W64) (b : BitVec 512) (data tags : List Byte) (part : BitVec 7) (a : Answer),
    let x := s.ring f r
    let y := s.fn f
    let ran := x.blk
    let moved := 64 * x.done
    let next : Prop := x.busy = false ∧ x.en = true ∧ x.ovf = false ∧ x.head.toNat < x.tail.toNat
    let ends (i : Instr) (status nbytes : Nat) : Prop := ∃ u, exec i s = .next u ∧ (u.ring f r).busy = false ∧ (u.ring f r).head = x.head + 1 ∧
      (u.ring f r).err = (x.err || status != 0) ∧ (u.ring f r).tail = x.tail ∧ u.mem = s.mem ∧
      u.host.msix = s.host.msix ++ (if x.vec.toNat < (if f = 0 then 64 else 4) then [(f, x.vec.toNat)] else []) ∧
      u.host.writes = s.host.writes ++
        [(x.cmp + BitVec.ofNat 64 (16 * (x.head.toNat % 2 ^ (x.lsz.toNat + 4))), bytesOf (completionEntry x.head.toNat x.size status nbytes) 16)]
    let begins := Instr.dmaBlock f r b data tags false
    let goes_ := Instr.dmaBlock f r b data tags
    let va := blkDva ran + BitVec.ofNat 64 moved
    let iss := dmaIssuer (blkAsid ran) part
    let line := ofBytes 512 ((x.buf.drop moved).take 64)
    let plain : Prop := x.busy = true ∧ x.tag = none ∧ x.en = true ∧ blkKh ran = 0 ∧ s.handle 0 = none ∧ moved < blkLen ran ∧
      s.blockPart f (blkAsid ran) = .part part
    let quiet (u : State) (p : Nat → Prop) : Prop := (∀ k, p k → s.fn k ≠ {} →
        u.fn k = { s.fn k with rings := (u.fn k).rings, qsc := true, was := (s.fn k).bound } ∧
          ∀ j, u.ring k j = if s.unitLeft (s.ring k j) = 0 then {} else { s.ring k j with en := false }) ∧
      (∀ k, ¬ p k → u.fn k = s.fn k) ∧ (∀ e ∈ u.sec.boxes, ¬ p e.1) ∧
      (∀ q, (s.queue q).fn ≠ 0 → p (s.queue q).fn → u.queue q = { s.queue q with qvf := 0 }) ∧
      (∀ q, (s.queue q).fn = 0 ∨ ¬ p (s.queue q).fn → u.queue q = s.queue q) ∧
      u.mem = s.mem ∧ u.cores = s.cores ∧ u.seqs = s.seqs ∧ u.host.writes = s.host.writes ∧ u.host.msix = s.host.msix
    (s.ringOpen f r = true →
      (∃ u, exec (.hpDtailWrite f r v) s = .next u ∧ (u.ring f r).tail = (if x.tail.toNat < v.toNat then v else x.tail) ∧
        ((u.ring f r).ovf = true ↔ x.ovf = true ∨ x.head.toNat + 2 ^ (x.lsz.toNat + 4) < (u.ring f r).tail.toNat) ∧
        u.ring f r = { x with tail := (u.ring f r).tail, ovf := (u.ring f r).ovf } ∧ (∀ k, k ≠ r → u.ring f k = s.ring f k) ∧
        (∀ g, g ≠ f → u.fn g = s.fn g) ∧ u = { s with host := { s.host with fns := u.host.fns } }) ∧
      (next → ends (.dmaBlock f r b data tags true) 4 0) ∧
      (next → blkFormOk b = false → ends begins 1 0) ∧
      (next → blkFormOk b = true → s.blockPart f (blkAsid b) = .refused → ends begins 1 0) ∧
      (next → blkFormOk b = true → s.blockPart f (blkAsid b) = .noAsid → ends begins 3 0) ∧
      (next → blkFormOk b = true → s.blockPart f (blkAsid b) = .part part → s.blockOk b part = false → ends begins 1 0) ∧
      (next → blkFormOk b = true → s.blockPart f (blkAsid b) = .part part → s.blockOk b part = true → s.handle (blkKh b) = none →
        blkOut b = true ∨ blkLen b = 0 →
        ∃ u, exec begins s = .next u ∧ u.ring f r = { x with busy := true, blk := b } ∧ u.mem = s.mem ∧ u.host.writes = s.host.writes) ∧
      (next → blkFormOk b = true → s.blockPart f (blkAsid b) = .part part → s.blockOk b part = true → s.handle (blkKh b) = none →
        blkOut b = false → blkLen b ≠ 0 →
        ∃ u, exec begins s = .next u ∧ u.ring f r = { x with busy := true, blk := b, tag := some y.freeTag } ∧
          look 0 (u.fn f).reads y.freeTag = blkLen b / 64 + (if blkKh b = 0 then 0 else (blkLen b / 4096 + 3) / 4) ∧ u.mem = s.mem) ∧
      (x.busy = false → x.en = false ∨ x.ovf = true ∨ x.tail.toNat ≤ x.head.toNat → ∀ e, exec (goes_ e) s = .next s) ∧
      (plain → blkOut ran = true → s.workAccess (dmaWork f r) dmaUnit iss va (.load 64) false = .got a s1 → a.fault = none →
        ∃ u, exec begins s = .next u ∧ (u.ring f r).done = (s1.ring f r).done + 1 ∧ (u.ring f r).busy = (s1.ring f r).busy ∧ u.mem = s1.mem ∧
          u.host.writes = s1.host.writes ++ [(blkHaddr ran + BitVec.ofNat 64 moved, (s1.ring f r).buf ++ bytesOf a.data 64)]) ∧
      (plain → blkOut ran = false → moved + 64 ≤ x.buf.length →
        s.workAccess (dmaWork f r) dmaUnit iss va (.store 64 line) false = .got a s1 → a.fault = none →
        ∃ u, exec begins s = .next u ∧ (u.ring f r).done = (s1.ring f r).done + 1 ∧ u.mem = s1.mem ∧ u.host.writes = s1.host.writes) ∧
      (plain → blkOut ran = true → s.workAccess (dmaWork f r) dmaUnit iss va (.load 64) false = .wait s1 → exec begins s = .next s1) ∧
      (plain → blkOut ran = false → x.buf.length < moved + 64 → ends begins 4 moved) ∧
      (x.busy = true → x.tag = none → x.en = true → s.handle (blkKh ran) = none → blkLen ran ≤ moved →
        ends begins (if x.short then 4 else 0) moved) ∧
      (x.busy = true → x.tag = none → x.en = false → s.handle (blkKh ran) = none → ends begins 5 moved) ∧
      (x.busy = true → s.handle (blkKh ran) = none → ends (.dmaRingDisable f r) 5 moved) ∧
      (x.busy = false → ∃ u, exec (.dmaRingDisable f r) s = .next u ∧ u.ring f r = { x with en := false } ∧ (∀ k, k ≠ r → u.ring f k = s.ring f k) ∧
        u.mem = s.mem ∧ u.host.writes = s.host.writes)) ∧
    (s.ringOpen f r = false → exec (.hpDtailWrite f r v) s = .next s ∧
      (y.qsc = false ∨ x.busy = false → exec (goes_ true) s = .next s ∧ exec begins s = .next s) ∧
      exec (.dmaRingDisable f r) s = .next s) ∧
    (∃ u, exec (.functionLevelReset f) s = .next u ∧ quiet u fun k => f = 0 ∨ k = f) ∧
    (y.qsc = true → x.busy = true → x.done % unitAccesses (s.handle (blkKh ran)) = 0 → x.en = false → ∃ u, exec begins s = .next u ∧
      u.ring f r = {} ∧ u.host.writes = s.host.writes ∧ u.host.msix = s.host.msix ∧ u.mem = s.mem) ∧
    (∃ u, exec .vfEnableClear s = .next u ∧ quiet u fun k => k ≠ 0) ∧
    (y.qsc = true → s.quiesceCounts f = (0, 0, 0) → ∃ u, exec (.quiesceEnd f) s = .next u ∧ u.fn f = { y with rings := [], qsc := false, was := none } ∧
      (∀ g, g ≠ f → u.fn g = s.fn g) ∧ u.mem = s.mem ∧ u.cores = s.cores ∧ u.seqs = s.seqs) ∧
    (y.qsc = false ∨ s.quiesceCounts f ≠ (0, 0, 0) → exec (.quiesceEnd f) s = .next s) ∧
    (look 0 y.reads n ≠ 0 → ∃ u, exec (.hostReadTimeout f n) s = .next u ∧ look 0 (u.fn f).reads n = 0 ∧ (u.fn f).late = y.late ++ [n] ∧
      (∀ k, y.qsc = false → s.waitsFor f n = some k → (u.ring f k).busy = false ∧ (u.ring f k).err = true ∧ (u.ring f k).head = (s.ring f k).head + 1) ∧
      u.mem = s.mem) ∧
    (look 0 y.reads n = 0 → exec (.hostReadTimeout f n) s = .next s) ∧
    (s.waitsFor f n = none → ∃ u, exec (.hostReadCompletion f n) s = .next u ∧ look 0 (u.fn f).reads n = 0 ∧
      (∀ k, k ≠ n → look 0 (u.fn f).reads k = look 0 y.reads k) ∧ u = { s with host := { s.host with fns := u.host.fns } }) ∧
    (s.waitsFor f n ≠ none → exec (.hostReadCompletion f n) s = .next s) ∧
    (∃ u, exec (.unexpectedCompletion f) s = .next u ∧ u.fn f = { y with late := y.late.drop 1 } ∧ (∀ g, g ≠ f → u.fn g = s.fn g) ∧
      u = { s with host := { s.host with fns := u.host.fns } })

/-- R342, R344 to R347, R353, R355, R359, R364 to R366, R392, R481, R482: GO sets BUSY; Cobalt serves the mailboxes in turn, answers a
malformed message with status 1 and one that may not be asked with 2, and puts the response of each message into its mailbox.
Where it rests on a choice of the model: logs 6, 84 to 88, 91. -/
def Obligations.CobaltEvents : Prop :=
  ∀ (s : State) (f h c : Nat) (p : List Byte) (w : Tab Byte) (live : Bool),
    let b := (s.box f).buf
    let sec := s.sec
    let alone : Prop := s.mgmt.stage = 2 ∧ s.nextBox = some f ∧ sec.tearing = none
    let served (type : Nat) : Prop := alone ∧ msgType b = type ∧ headerFine b = true
    let answers (u : State) (len status : Nat) (body : List Byte) : Prop :=
      u.box f = { s.box f with busy := false, done := true, buf := byteTab (replyHeader b len status ++ body) } ∧ u.sec.lastServed = f ∧ u.mem = s.mem ∧
        u.cores = s.cores ∧ u.brass = s.brass ∧ ∀ k, k ≠ f → u.box k = s.box k
    let only (i : Instr) (len status : Nat) (body : List Byte) : Prop := ∃ u, exec i s = .next u ∧ answers u len status body ∧
      u.sec.handles = sec.handles ∧ u.sec.keys = sec.keys ∧ u.sec.meas = sec.meas
    let signed (i : Instr) (before body : List Byte) : Prop :=
      let text := replyHeader b (80 + body.length) 0 ++ body
      ∃ u, exec i s = .next u ∧ answers u (80 + body.length) 0 (body ++
        bytesOf (Config.sm2Sign sec.aliasKey (Config.sm3 (before ++ text)) s.free) 64) ∧ u.free = s.free + 1
    let devid := bytesOf (Config.sm3 (bytesOf (Config.sm2Public sec.devKey) 64)) 32
    let plainTypes : List (Nat × Instr) := [(1, .attestation f), (4, .usageReport f), (6, .partitionKeys f), (7, .certificateChain f),
      (8, .handleDelete f), (9, .measureExtend f), (2, .sealInstall f), (3, .sessionOpen f)]
    let sels := (List.range (msgNat b 49 1)).map fun k => msgWord b (64 + 8 * k)
    let part := msgNat b 48 1
    let attestOk : Prop := msgLen b = 64 + 8 * msgNat b 49 1 ∧ msgNat b 49 1 ≤ 16 ∧ part < 128 ∧ msgZero b 50 14 = true ∧ sels.all selClean = true
    let useCount := msgNat b 48 1
    let free (k : Nat) : Prop := 1 ≤ k ∧ k < 65536 ∧ s.handleFree k = true ∧ ∀ j, 1 ≤ j → j < k → s.handleFree j = false
    let holds (u : State) (type pt asid : Nat) (key : BitVec 128) (salt : BitVec 32) : Prop := ∃ k, look none u.sec.handles h = some k ∧ k.type = type ∧
      k.part = BitVec.ofNat 7 pt ∧ k.asid = BitVec.ofNat 16 asid ∧ k.key = key ∧ k.salt = salt ∧ k.serial = sec.nextSerial ∧
      k.rdb = 0 ∧ k.wrb = 0 ∧ k.fills = 0 ∧ (∀ j, j ≠ h → look none u.sec.handles j = look none sec.handles j)
    let nker := msgNat b 232 1
    let sealOk : Prop := 1 ≤ nker ∧ nker ≤ 16 ∧ msgLen b = 240 + 32 * nker ∧ msgNat b 210 1 < 128 ∧ msgZero b 181 3 = true ∧ msgZero b 211 1 = true ∧
      msgZero b 233 7 = true
    let sealed := Config.sm2Open sec.sealKey (msgBytes b 32 149)
    let secret := sessionSecret (Config.freeDraw s.free) (ofBytes 512 (msgBytes b 48 64)) (msgBytes b 16 32)
    let keyPart := msgNat b 18 1
    let keyEntry := msgNat b 16 2
    let keysOk : Prop := msgLen b = 20 ∧ keyEntry < 4096 ∧ keyPart < 128 ∧ msgNat b 19 1 < 2
    let fresh : MemKey :=
      { v := true, part := BitVec.ofNat 7 keyPart, gen := s.free + 1, key := Config.freeDraw s.free, mac := Config.freeDraw (s.free + 1) }
    let del : BitVec 16 := BitVec.ofNat 16 (msgNat b 16 2)
    let mine : Bool := match s.handle del with
      | some k => s.mayAsk f k.part.toNat
      | none => f == 0
    let tp : BitVec 7 := BitVec.ofNat 7 (msgNat b 16 1)
    let box0 := (s.box 0).buf
    let slotBase := 2 ^ 32 * msgNat box0 16 1 + msgNat box0 20 4
    let gone : BitVec 7 := BitVec.ofNat 7 (msgNat w 16 1)
    (s.boxOpen f = true → (s.box f).written = true → ∃ u, exec (.mailboxGo f) s = .next u ∧ u.box f = { s.box f with busy := true } ∧ (∀ k, k ≠ f → u.box k = s.box k) ∧
      u = { s with sec := { sec with boxes := u.sec.boxes } }) ∧
    (s.boxOpen f = false ∨ (s.box f).written = false → exec (.mailboxGo f) s = .next s) ∧
    (∀ e ∈ plainTypes, (s.mgmt.stage ≠ 2 ∨ s.nextBox ≠ some f) → sec.tearing = none → exec e.2 s = .next s) ∧
    (∀ e ∈ plainTypes, alone → msgType b = 0 ∨ 9 < msgType b → only e.2 16 1 []) ∧
    (∀ e ∈ plainTypes, alone → msgType b = e.1 → headerFine b = false → only e.2 16 1 []) ∧
    (∀ e ∈ plainTypes, alone → 1 ≤ msgType b → msgType b ≤ 9 → msgType b ≠ e.1 → exec e.2 s = .next s) ∧
    (served 1 → ¬ attestOk → only (.attestation f) 16 1 []) ∧
    (served 1 → attestOk → sels.all (s.selectorIn part) = false → only (.attestation f) 16 2 []) ∧
    (served 1 → attestOk → sels.all (s.selectorIn part) = true → signed (.attestation f) []
      (msgBytes b 16 32 ++ devid ++ bytesOf sec.bootId 16 ++ (List.range 8).flatMap (fun k => bytesOf (look 0 sec.meas k) 32) ++
        bytesOf (BitVec.ofNat 32 sec.fuses.svn) 4 ++ bytesOf (s.reportFlags part) 4 ++ bytesOf (Config.sm2Public sec.sealKey) 64 ++
        [BitVec.ofNat 8 part, BitVec.ofNat 8 (msgNat b 49 1)] ++ List.replicate 6 0 ++
        sels.flatMap fun g => bytesOf g 8 ++ bytesOf (s.region (selKey g)).reported 32)) ∧
    (served 4 → 1 ≤ useCount → useCount ≤ 32 → msgLen b = 64 + 2 * useCount → msgZero b 49 15 = true → signed (.usageReport f) []
      (msgBytes b 16 32 ++ devid ++ bytesOf sec.bootId 16 ++ bytesOf s.mgmt.podTime 8 ++ [BitVec.ofNat 8 useCount] ++ List.replicate 7 0 ++
        (List.range useCount).flatMap fun k => s.usageEntry (BitVec.ofNat 16 (msgNat b (64 + 2 * k) 2)))) ∧
    (served 4 → useCount < 1 ∨ 32 < useCount ∨ msgLen b ≠ 64 + 2 * useCount → only (.usageReport f) 16 1 []) ∧
    (served 2 → sec.cerr = true → only (.sealInstall f) 16 6 []) ∧
    (served 2 → sec.cerr = false → ¬ sealOk → only (.sealInstall f) 16 1 []) ∧
    (served 2 → sec.cerr = false → sealOk → s.mayAsk f (msgNat b 210 1) = false → only (.sealInstall f) 16 2 []) ∧
    (served 2 → sec.cerr = false → sealOk → s.mayAsk f (msgNat b 210 1) = true → sealed = none → only (.sealInstall f) 16 3 []) ∧
    (served 2 → sec.cerr = false → sealOk → s.mayAsk f (msgNat b 210 1) = true → sealed = some p → p.length = 52 →
      bytesOf (Config.sm3 (msgBytes b 212 (msgLen b - 212))) 32 ≠ p.drop 20 ∨ sec.fuses.svn < msgNat b 212 4 ∨
        s.sealedBy (ofBytes 128 (msgBytes b 16 16)) = true → only (.sealInstall f) 16 4 []) ∧
    (served 2 → sec.cerr = false → sealOk → s.mayAsk f (msgNat b 210 1) = true → sealed = some p → p.length = 52 →
      bytesOf (Config.sm3 (msgBytes b 212 (msgLen b - 212))) 32 = p.drop 20 → msgNat b 212 4 ≤ sec.fuses.svn →
      s.sealedBy (ofBytes 128 (msgBytes b 16 16)) = false → free h →
      rangeOk (msgWord b 184) (msgWord b 192) (msgWord b 200) = true → sec.nextList % 2 ^ 32 ≠ 0xFFFFFFFF →
      ∃ u, exec (.sealInstall f) s = .next u ∧ answers u 18 0 (bytesOf (BitVec.ofNat 16 h) 2) ∧
        holds u 1 (msgNat b 210 1) (msgNat b 208 2) (ofBytes 128 (p.take 16)) (ofBytes 32 ((p.drop 16).take 4)) ∧
        look [] u.sec.kernels sec.nextList = (List.range nker).map fun j => ofBytes 256 (msgBytes b (240 + 32 * j) 32)) ∧
    (served 3 → sec.cerr = true → only (.sessionOpen f) 16 6 []) ∧
    (served 3 → sec.cerr = false → msgLen b ≠ 168 ∨ 128 ≤ msgNat b 162 1 ∨ msgZero b 163 5 = false → only (.sessionOpen f) 16 1 []) ∧
    (served 3 → sec.cerr = false → msgLen b = 168 → msgNat b 162 1 < 128 → msgZero b 163 5 = true → s.mayAsk f (msgNat b 162 1) = true →
      free h → rangeOk (msgWord b 112) (msgWord b 120) (msgWord b 128) = true → rangeOk (msgWord b 136) (msgWord b 144) (msgWord b 152) = true →
      ∃ u, exec (.sessionOpen f) s = .next u ∧ u.free = s.free + 2 ∧ (u.box f).done = true ∧ (u.box f).busy = false ∧ u.mem = s.mem ∧
        holds u 2 (msgNat b 162 1) (msgNat b 160 2) (ofBytes 128 (secret.take 16)) (ofBytes 32 (secret.drop 16))) ∧
    ((s.mgmt.stage = 2 ∧ f ≠ 0 ∧ (s.box f).busy = true ∧ msgType b = 2 ∧ s.tearingPart (msgNat b 210 1) = true) →
      ∃ u, exec (.sealInstall f) s = .next u ∧ u.box f = { s.box f with busy := false, done := true, buf := byteTab (replyHeader b 16 2) } ∧
        u.sec.handles = sec.handles) ∧
    (served 6 → sec.cerr = true → only (.partitionKeys f) 16 6 []) ∧
    (served 6 → sec.cerr = false → ¬ keysOk → only (.partitionKeys f) 16 1 []) ∧
    (served 6 → sec.cerr = false → keysOk → f ≠ 0 → only (.partitionKeys f) 16 2 []) ∧
    (served 6 → sec.cerr = false → keysOk → f = 0 → ∃ u, exec (.partitionKeys f) s = .next u ∧ answers u 18 0 (msgBytes b 16 2) ∧
      look {} u.sec.keys keyEntry = fresh ∧ (∀ k, k ≠ keyEntry → look {} u.sec.keys k = look {} sec.keys k) ∧
      look false u.sec.conf keyPart = (msgNat b 19 1 == 1) ∧ u.sec.handles = sec.handles) ∧
    (served 7 → msgLen b = 16 → let l := sec.chain.take 4080
      only (.certificateChain f) (16 + l.length) 0 l) ∧
    (served 7 → msgLen b ≠ 16 → only (.certificateChain f) 16 1 []) ∧
    (served 8 → msgLen b ≠ 18 → only (.handleDelete f) 16 1 []) ∧
    (served 8 → msgLen b = 18 → mine = false → only (.handleDelete f) 16 2 []) ∧
    (served 8 → msgLen b = 18 → mine = true → ∃ u, exec (.handleDelete f) s = .next u ∧ (u.box f).done = true ∧ (u.box f).busy = false ∧
      look none u.sec.handles del.toNat = none ∧ (∀ k, k ≠ del.toNat → look none u.sec.handles k = look none sec.handles k) ∧ u.mem = s.mem) ∧
    (served 9 → msgLen b = 56 → 4 ≤ msgNat b 16 1 → msgNat b 16 1 ≤ 7 → msgZero b 17 7 = true → f = 0 →
      ∃ u, exec (.measureExtend f) s = .next u ∧ answers u 16 0 [] ∧ (∀ k, k ≠ msgNat b 16 1 → look 0 u.sec.meas k = look 0 sec.meas k) ∧
        look 0 u.sec.meas (msgNat b 16 1) = Config.sm3 (bytesOf (look 0 sec.meas (msgNat b 16 1)) 32 ++ msgBytes b 24 32)) ∧
    (served 9 → msgLen b ≠ 56 ∨ msgNat b 16 1 < 4 ∨ 7 < msgNat b 16 1 → only (.measureExtend f) 16 1 []) ∧
    (served 5 → f = 0 → tearFormOk b = true → s.partBusy tp = false → ∃ u, exec (.teardown f) s = .next u ∧ u.sec.tearing = some (b, true) ∧
      (∀ k x, (look none u.sec.handles k = some x → x.part ≠ tp) ∧
        (look none sec.handles k = some x → x.part ≠ tp → look none u.sec.handles k = some x)) ∧ u.mem = s.mem ∧ u.cores = s.cores ∧
      u = { s with sec := { sec with handles := u.sec.handles, lastServed := 0, tearing := u.sec.tearing } }) ∧
    (served 5 → f ≠ 0 ∨ s.partBusy tp = true → only (.teardown f) 16 (if tearFormOk b then 2 else 1) []) ∧
    (served 5 → tearFormOk b = false → only (.teardown f) 16 1 []) ∧
    (sec.tearing = some (w, live) → s.rangesHeld (tearRanges w) gone = true → exec (.teardown f) s = .next s) ∧
    (sec.tearing = some (w, live) → s.rangesHeld (tearRanges w) gone = false → ∃ u, exec (.teardown f) s = .next u ∧ u.sec.tearing = none ∧
      (∀ e ∈ u.sec.keys, e.2.part ≠ gone) ∧ (∀ e ∈ sec.keys, e.2.part ≠ gone → e ∈ u.sec.keys) ∧
      u.core c = (if look 0 s.brass.coreOf c = gone then { failed := (s.core c).failed } else s.core c) ∧
      (live = true → (u.box 0).done = true ∧ (u.box 0).busy = false)) ∧
    (s.mgmt.stage = 0x80 → (s.box 0).busy = true → msgType box0 = 0x0100 → headerFine box0 = true → 24 ≤ msgLen box0 → msgNat box0 16 1 ≤ 1 →
      ∃ u, exec .recoveryImageWrite s = .next u ∧
        (∀ k, look 0 u.sec.fuses.flash k = if slotBase ≤ k ∧ k < slotBase + (msgLen box0 - 24) then look 0 box0 (24 + (k - slotBase))
          else look 0 sec.fuses.flash k) ∧
        u.box 0 = { s.box 0 with busy := false, done := true, buf := byteTab (replyHeader box0 16 0) } ∧
        u = { s with sec := { sec with boxes := u.sec.boxes, fuses := { sec.fuses with flash := u.sec.fuses.flash } } }) ∧
    (s.mgmt.stage = 0x80 → (s.box 0).busy = true → msgType box0 ≠ 0x0100 → ∃ u, exec .recoveryImageWrite s = .next u ∧
      u.box 0 = { s.box 0 with busy := false, done := true, buf := byteTab (replyHeader box0 16 2) } ∧ u.sec.fuses = sec.fuses) ∧
    (s.mgmt.stage ≠ 0x80 ∨ (s.box 0).busy = false → exec .recoveryImageWrite s = .next s) ∧
    exec .cobaltError s = .next { s with sec := { sec with cerr := true } }

/-- R375, R376, R378 to R381, R384, R477 to R480: what a Couri port does with a session, a key epoch, a flit group, an acknowledgement and a
NAK; what goes down and comes up with it; how packets of a pair keep their order; and how long they and their answers are waited for.
Where it rests on a choice of the model: logs 95 to 100, 119. -/
def Obligations.LinkEvents : Prop :=
  ∀ (s : State) (n peer seq chip psn id c m : Nat) (g : FlitGroup) (k : Packet) (body : Body) (e : BitVec 16) (t0 bad : Nat) (q : Seq) (ppm : Int),
    let p := s.couri n
    let y := s.pair chip
    let from_ := s.pair k.src
    let now := s.mgmt.podTime.toNat
    let onlyPort (u : State) : Prop := (∀ j, j ≠ n → u.couri j = s.couri j) ∧ u = { s with links := { s.links with ports := u.links.ports } }
    let port (i : Instr) (x : CouriPort) : Prop := ∃ u, exec i s = .next u ∧ u.couri n = x ∧ onlyPort u
    let turned (i : Instr) : Prop :=
      (p.tx.slot0 = none ∨ p.tx.slot1 = none → ∃ u, exec i s = .next u ∧ (u.couri n).txEpoch = p.txEpoch + 1 ∧ (u.couri n).sent = 0 ∧
        (u.couri n).tx.has (p.txEpoch + 1) = true ∧ (∀ d, p.tx.has d = true → (u.couri n).tx.has d = true) ∧
        u.couri n = { p with tx := (u.couri n).tx, txEpoch := p.txEpoch + 1, sent := 0, rotate := false } ∧ onlyPort u) ∧
      (p.tx.slot0 ≠ none → p.tx.slot1 ≠ none → port i { p with rotate := true })
    let opened (ok : Bool) : CouriPort :=
      let x : CouriPort := { en := true, crcErr := p.crcErr, authErr := p.authErr, peer := BitVec.ofNat 12 peer, queue := p.queue, tried := some now }
      if ok = false then x else if peer % 4096 = s.chipId then { x with auth := true, dup := true }
      else { x with auth := true, up := true, tx := { slot0 := some 0 }, rx := { slot0 := some 0 } }
    let ahead := (k.psn + 2 ^ 32 - from_.expect) % 2 ^ 32
    let bump (x : BitVec 16) : BitVec 16 := if x = 0xFFFF then x else x + 1
    let passes : Bool := p.rx.has g.epoch
    let dead := Instr.packetWaitExpiry chip psn
    (s.barOpen = true → p.up = true → turned (.portRotateRequest n)) ∧
    (s.barOpen = false ∨ p.up = false → exec (.portRotateRequest n) s = .next s) ∧
    (p.up = true → 2 ^ 32 ≤ p.sent → turned (.epochGroupLimit n)) ∧
    (p.up = false ∨ p.sent < 2 ^ 32 → exec (.epochGroupLimit n) s = .next s) ∧
    (p.up = true → p.rx = { slot0 := some e } → port (.keyUpdate n) { p with rx := { slot0 := some e, slot1 := some (e + 1) } }) ∧
    (p.up = true → p.rx = { slot0 := some e, slot1 := some (e + 1) } → port (.keyUpdate n) { p with rx := { slot0 := some (e + 2), slot1 := some (e + 1) } }) ∧
    (p.up = false → exec (.keyUpdate n) s = .next s) ∧
    (∀ ok, (s.barOpen = true → n < 16 → p.up = false → port (.portEnable n peer ok) (opened ok)) ∧
      (s.barOpen = false ∨ 16 ≤ n ∨ p.up = true → exec (.portEnable n peer ok) s = .next s) ∧
      (p.en = true → p.up = false → (∀ t, p.tried = some t → t + 1000000000 ≤ now) → port (.spdmRetry n peer ok) (opened ok)) ∧
      (p.en = false ∨ p.up = true ∨ (∃ t, p.tried = some t ∧ now < t + 1000000000) → exec (.spdmRetry n peer ok) s = .next s)) ∧
    (p.up = true → ∃ u, exec (.portDown n) s = .next u ∧ u.couri n = { en := p.en, crcErr := p.crcErr, authErr := p.authErr, peer := p.peer } ∧
      (∀ j, j ≠ n → u.couri j = s.couri j) ∧ ((s.fn 0).qsc = false → u.host.msix = s.host.msix ++ [(0, 4)]) ∧
      (Tab.wf {} s.links.rtab = true → let r := s.chipRoute c
        u.chipRoute c = if r.pport.toNat = n ∧ r.av = true then { r with use := true, pending := false } else r) ∧
      u.mem = s.mem ∧ u.cores = s.cores ∧ u.seqs = s.seqs) ∧
    (p.up = false → exec (.portDown n) s = .next s ∧ exec (.portUp n) s = .next s) ∧
    (p.up = true → ∃ u, exec (.portUp n) s = .next u ∧ u = { s with links := { s.links with rtab := u.links.rtab } } ∧
      (Tab.wf {} s.links.rtab = true → let r := s.chipRoute c
        u.chipRoute c = if r.pport.toNat = n ∧ r.use = true then
          (if (s.pair c).unacked.isEmpty ∧ (s.couri r.aport.toNat).holds.any (·.dst == c) = false then { r with use := false, pending := false }
           else { r with pending := true })
        else r)) ∧
    (k.dst ≠ s.chipId → exec (.packetReceive k) s = .next { s with links := { s.links with passing := s.links.passing ++ [(k, now)] } }) ∧
    (k.dst = s.chipId → isAck k.body = false → ahead = 0 → exec (.packetReceive k) s =
      .next ((((s.setPair k.src { from_ with expect := (from_.expect + 1) % 2 ^ 32 }).deliverBody k.src k.body).deliverHeld k.src
        from_.held.length).sendAck k.src)) ∧
    (k.dst = s.chipId → isAck k.body = false → 0 < ahead → ahead < 2 ^ 31 → (∀ x ∈ from_.held, x.psn ≠ k.psn) →
      exec (.packetReceive k) s = .next (s.setPair k.src { from_ with held := from_.held ++ [k] })) ∧
    (k.dst = s.chipId → isAck k.body = false → 2 ^ 31 ≤ ahead → ∃ u, exec (.packetReceive k) s = .next u ∧
      u = { s with links := { s.links with passing := u.links.passing } } ∧
      u.links.passing = s.links.passing ++ [({ src := s.chipId, dst := k.src, psn := 0, body := .ack from_.expect }, now)]) ∧
    (k.dst = s.chipId → k.body = .ack psn → from_.unacked = [] → ∃ u, exec (.packetReceive k) s = .next u ∧ u.mem = s.mem ∧ u.cores = s.cores ∧
      (u.pair k.src).unacked = []) ∧
    (p.up = true → passes = true → g.seq = p.rxSeq → g.packets = [k] →
      exec (.flitGroupReceive n g 0 true) s = .next ((s.setCouri n { p with rxSeq := p.rxSeq + 1 }).receive k)) ∧
    (p.up = true → 0 < bad → port (.flitGroupReceive n g bad true)
      (let x := { p with crcErr := BitVec.ofNat 16 (min 0xFFFF (p.crcErr.toNat + bad)), nakOut := some p.rxSeq }
      if passes then x else { x with authErr := bump p.authErr })) ∧
    (p.up = true → port (.flitGroupReceive n g 0 false) { p with authErr := bump p.authErr, nakOut := some p.rxSeq }) ∧
    (p.up = true → passes = true → g.seq < p.rxSeq → port (.flitGroupReceive n g 0 true) p) ∧
    (p.up = true → passes = true → p.rxSeq < g.seq → port (.flitGroupReceive n g 0 true) { p with nakOut := some p.rxSeq }) ∧
    (p.up = false → ∀ tag, exec (.flitGroupReceive n g bad tag) s = .next s) ∧
    (p.up = true → p.nakSeq = seq → p.naks < 15 → port (.nakResend n seq) { p with naks := p.naks + 1, resend := some seq }) ∧
    (p.up = true → p.nakSeq ≠ seq → port (.nakResend n seq) { p with nakSeq := seq, naks := 1, resend := some seq }) ∧
    (p.up = true → p.nakSeq = seq → 15 ≤ p.naks → exec (.nakResend n seq) s = exec (.portDown n) s) ∧
    (p.up = true → p.rotate = false → let left := p.replay.filter fun x => decide (seq < x.seq)
      port (.ackReceive n seq) { p with replay := left, naks := 0, tx := p.tx.keep fun d => d == p.txEpoch || left.any (·.epoch == d) }) ∧
    (p.up = false → exec (.nakResend n seq) s = .next s ∧ exec (.ackReceive n seq) s = .next s) ∧
    (s.portTo chip ≠ none → y.held = [] ∨ y.expect ≠ psn → exec dead s = .next s) ∧
    (s.portTo chip ≠ none → y.held ≠ [] → y.expect = psn →
      exec dead s = .next (((s.setPair chip { y with expect := (psn + 1) % 2 ^ 32 }).deliverHeld chip y.held.length).sendAck chip)) ∧
    (s.portTo chip = none → y.waiting = [(k, t0)] → k.dst = chip → k.psn = psn → t0 + 10000000 ≤ now → k.src = s.chipId →
      k.body = body → (∀ a b r x, body ≠ .launch a b r x) → (∀ a b d z w, body ≠ .member a b d z w) →
      ∃ u, exec dead s = .next u ∧ u.pair chip = { y with waiting := [] } ∧ (∀ j, j ≠ chip → u.pair j = s.pair j) ∧
        u = { s with links := { s.links with pairs := u.links.pairs } }) ∧
    (s.portTo chip = none → y.waiting = [(k, t0)] → now < t0 + 10000000 → s.links.passing = [] → y.held = [] → exec dead s = .next s) ∧
    (look 0 s.links.sentAt id = 0 ∨ now + 1 < look 0 s.links.sentAt id + 20000000 → exec (.requestTimeout id) s = .next s) ∧
    (look 0 s.links.sentAt id ≠ 0 → look 0 s.links.sentAt id + 20000000 ≤ now + 1 → look none s.mem.away id = none →
      s.seqs.find? (fun x => (x.2.wait.bind (·.id)) == some id) = some (m, q) →
      ∃ u, exec (.requestTimeout id) s = .next u ∧ look 0 u.links.sentAt id = 0 ∧ u.mem = s.mem ∧ (∀ j, j ≠ m → u.seq j = s.seq j) ∧
        u.seq m = { q with wait := q.wait.map fun w => { w with answer := some { code := 15, data := ((-1 : W64)).setWidth 512 } } }) ∧
    (∀ r, look 0 s.links.sentAt id ≠ 0 → look 0 s.links.sentAt id + 20000000 ≤ now + 1 → look none s.mem.away id = some r →
      exec (.requestTimeout id) s = .next (s.takeAnswer id { fault := some (0x06, r.ea) })) ∧
    (s.links.master = true ∨ s.links.ports.any (·.2.up) = false → exec (.podTimeSync ppm) s = .next s) ∧
    (s.links.master = false → s.links.ports.any (·.2.up) = true → ∃ u, exec (.podTimeSync ppm) s = .next u ∧ -100 ≤ u.mgmt.ppm ∧ u.mgmt.ppm ≤ 100 ∧
      (-100 ≤ ppm → ppm ≤ 100 → u.mgmt.ppm = ppm) ∧ u = { s with mgmt := { s.mgmt with ppm := u.mgmt.ppm } })

/-- R341, R343, R361, R368 to R371, R375, R388 to R397, R483: a package reset puts everything but fuses, flash and cause at its reset value, and
in stage 0 interrupts the programming of fuses, of which none is lost; ROM boots
the first image that passes or enters recovery, and the firmware measures the rest; a register takes a write where its rule lets it, a management
register by its number; the power limit is clamped, DUTY is the lower of two demands, and D3hot is refused while work is present.
Where it rests on a choice of the model: logs 3, 6, 93 to 95, 102, 103, 119, 156. -/
def Obligations.ManagementEvents : Prop :=
  ∀ (s : State) (v : W64) (f r q t p n c off : Nat) (w temp : BitVec 12) (duty : BitVec 7) (d3 : Bool),
    let g := s.mgmt
    let live := s.sec.fuses
    let x := s.queue q
    let ring := s.ring f r
    let cr := s.chipRoute c
    let wr (reg : Reg) : Instr := .registerWrite reg v
    let fuses := s.sec.fuses.complete
    let m0 := Config.sm3 Config.rom
    let boot : Prop := g.stage = 0 ∧ g.held = false
    let slot : Nat := if fuses.boots 0 = true then 0 else 1
    let h := fuses.header slot
    let m1 := Config.sm3 (fuses.image slot 0 (imageLen h))
    let h2 := live.header g.slot.toNat
    let offb := (h2.extractLsb' 96 32).toNat
    let offl := (h2.extractLsb' 64 32).toNat
    let d : BitVec 7 := if duty = 0 then 1 else if 64 < duty.toNat then 64 else duty
    let resets (i : Instr) (cause : BitVec 8) (held : Bool) : Prop := ∃ u, exec i s = .next u ∧ u.mgmt.cause = cause ∧ u.mgmt.held = held ∧
      u.mgmt.stage = 0 ∧ u.mgmt.pwrLim = 2200 ∧ u.mgmt.duty = 64 ∧ u.mgmt.podTime = 0 ∧ u.mem = {} ∧ u.seqs = [] ∧ u.cores = [] ∧ u.islands = [] ∧
      u.regions = [] ∧ u.fifos = [] ∧ u.transit = [] ∧ u.streams = {} ∧ u.brass = {} ∧ u.host = {} ∧ u.links = {} ∧ u.cycle = 0 ∧
      u.sec = { fuses := s.fusesLeft } ∧ (g.stage ≠ 0 ∨ g.held = true → u.sec.fuses = live) ∧
      (∀ k, live.counts k = true → u.sec.fuses.counts k = true) ∧ u.sec.fuses.flash = live.flash
    let brass (reg : Reg) (y : Queue) : Prop := s.barOpen = true → q < 4096 → ∃ u, exec (wr reg) s = .next u ∧ u.queue q = y ∧
      (∀ k, k ≠ q → u.queue k = s.queue k) ∧ u.mem = s.mem ∧ u.host = s.host ∧ u.seqs = s.seqs
    let part_ (reg : Reg) (y : Part) : Prop := p < 128 → ∃ u, exec (wr reg) s = .next u ∧ u.part (BitVec.ofNat 7 p) = y ∧
      (∀ k, k ≠ BitVec.ofNat 7 p → u.part k = s.part k) ∧ u.mem = s.mem ∧ u.host = s.host
    let ofRing (reg : Reg) (y : Ring) : Prop := ∃ u, exec (wr reg) s = .next u ∧ u.ring f r = y ∧ (∀ k, k ≠ r → u.ring f k = s.ring f k) ∧
      u.mem = s.mem ∧ u.brass = s.brass
    let z := s.part (BitVec.ofNat 7 p)
    resets .powerOnReset 1 false ∧ resets .perst 2 false ∧ resets .sidebandReset 3 false ∧ resets .thermalTrip 4 true ∧ resets .watchdogReset 5 false ∧
    exec .thermalTripCooled s = .next { s with mgmt := { g with held := false } } ∧
    (boot → fuses.boots 0 = false → fuses.boots 1 = false → ∃ u, exec .romBoot s = .next u ∧ u.mgmt = { g with stage := 0x80 } ∧ u.mem = s.mem ∧
      look 0 u.sec.meas 0 = m0 ∧ u.sec.fuses = fuses ∧ u.sec.bootLock = s.sec.bootLock) ∧
    (boot → fuses.boots slot = true → ∃ u, exec .romBoot s = .next u ∧ u.mgmt = { g with stage := 1, slot := slot == 1 } ∧ u.mem = s.mem ∧
      look 0 u.sec.meas 0 = m0 ∧ look 0 u.sec.meas 1 = m1 ∧
      u.sec.cdi = hmacSm3 fuses.uds (bytesOf m0 32 ++ bytesOf m1 32) ∧
      u.sec.devKey = sm2Scalar (hmacSm3 fuses.uds (labelDevid ++ bytesOf m0 32)) ∧
      u.sec.aliasKey = sm2Scalar (hmacSm3 u.sec.cdi labelAlias) ∧ u.sec.sealKey = sm2Scalar (hmacSm3 u.sec.cdi labelSeal) ∧
      u.sec.fuses = (if h.getLsbD 56 then fuses.advance fuses.svn (imageSvn h) 64 else fuses)) ∧
    (¬ boot → exec .romBoot s = .next s) ∧
    (g.stage = 1 → ∃ u, exec .firmwareBoot s = .next u ∧ u.mgmt = { g with stage := 2 } ∧ u.sec.bootLock = true ∧ u.mem = { s.mem with retired := live.retired } ∧
      look 0 u.sec.meas 2 = Config.sm3 (live.image g.slot.toNat offb (offl - offb)) ∧
      look 0 u.sec.meas 3 = Config.sm3 (live.image g.slot.toNat offl (imageLen h2 - 64 - offl)) ∧ u.sec.fuses = live ∧ u.seqs = s.seqs) ∧
    (g.stage ≠ 1 → exec .firmwareBoot s = .next s) ∧
    (∃ u, exec (.d3hotWrite d3) s = .next u ∧ u = { s with mgmt := { g with d3hot := u.mgmt.d3hot } } ∧
      (u.mgmt.d3hot = true ↔ d3 = true ∧ (∀ e ∈ s.brass.queues, e.2.en = false) ∧ s.anyRunning = false)) ∧
    (∃ u, exec (.cbPwrlimWrite v) s = .next u ∧ u = { s with mgmt := { g with pwrLim := u.mgmt.pwrLim } } ∧ 600 ≤ u.mgmt.pwrLim.toNat ∧
      u.mgmt.pwrLim.toNat ≤ 2200 ∧ (600 ≤ v.toNat % 4096 → v.toNat % 4096 ≤ 2200 → u.mgmt.pwrLim.toNat = v.toNat % 4096)) ∧
    (∃ u, exec (.powerDutyAdjust w duty) s = .next u ∧ u.mgmt.watts = w ∧ u.mgmt.wantPwr = d ∧
      u.mgmt.duty.toNat = Nat.min d.toNat g.wantTherm.toNat ∧ u.mgmt.pwr = decide (d.toNat < 64) ∧ u.mem = s.mem ∧ u.seqs = s.seqs) ∧
    (∃ u, exec (.thermalThrottle temp) s = .next u ∧ u.mgmt.temp = temp ∧ (u.mgmt.therm = true ↔ 1520 ≤ temp.toNat ∨ g.therm = true ∧ 1440 < temp.toNat) ∧
      (u.mgmt.hot = true ↔ g.hot = true ∨ 1520 ≤ temp.toNat) ∧ (u.mgmt.therm = false → u.mgmt.wantTherm = 64 ∧ u.mgmt.duty.toNat = Nat.min g.wantPwr.toNat 64) ∧
      (u.mgmt.therm = true → 1 < g.duty.toNat → u.mgmt.duty.toNat < g.duty.toNat) ∧ u.mem = s.mem ∧ u.seqs = s.seqs) ∧
    (exec (wr .cbThrstat) s = .next { s with mgmt := { g with hot := g.hot && !v.getLsbD 2 } }) ∧
    (exec (wr .unassigned) s = .next s) ∧
    exec (wr (.sideband 2)) s = exec (.cbPwrlimWrite v) s ∧ exec (wr (.sideband 5)) s = exec (wr .cbThrstat) s ∧
    exec (wr (.sideband 6)) s = (if v.getLsbD 0 then exec .sidebandReset s else .next s) ∧
    (n ≠ 2 → n ≠ 5 → n ≠ 6 → exec (wr (.sideband n)) s = .next s) ∧
    (s.barOpen = true → exec (wr .brAsidbase) s = .next { s with host := { s.host with asidBase := v } }) ∧
    brass (.brQring q) { x with ring := v &&& 0x7FFFFFFFFFFC0, ringSet := true } ∧
    brass (.brQdb q) { x with db := v &&& 0x7FFFFFFFFFFC0, dbSet := true } ∧
    (s.barOpen = true → q < 4096 → ∃ u, exec (wr (.brQstat q)) s = .next u ∧
      u.queue q = { x with ovf := x.ovf && !v.getLsbD 7, badr := x.badr && !v.getLsbD 6, cmpf := x.cmpf && !v.getLsbD 5 } ∧ u.mem = s.mem) ∧
    (s.barOpen = true → s.mayBind f = true → ∃ u, exec (wr (.brFnpart f)) s = .next u ∧ u.fn f = { s.fn f with part := v.setWidth 8 } ∧
      (∀ k, k ≠ f → u.fn k = s.fn k) ∧ u.mem = s.mem) ∧
    (s.mayBind f = false → exec (wr (.brFnpart f)) s = .next s) ∧
    (s.mayAssign q (v.setWidth 17) = true → brass (.brQvf q) { x with qvf := v.setWidth 17 }) ∧
    (s.mayAssign q (v.setWidth 17) = false → exec (wr (.brQvf q)) s = .next s) ∧
    (s.barOpen = true → t < 1024 → ∃ u, exec (wr (.brTwgt t)) s = .next u ∧ look 0 u.brass.weights t = v.setWidth 16 ∧
      (∀ k, k ≠ t → look 0 u.brass.weights k = look 0 s.brass.weights k) ∧ u.mem = s.mem) ∧
    (s.barOpen = true → s.otherShares p (·.lshr) + (v.extractLsb' 8 8).toNat ≤ 256 → s.otherShares p (·.mshr) + (v.setWidth 8 : BitVec 8).toNat ≤ 256 →
      part_ (.brPshr p) { z with lshr := v.extractLsb' 8 8, mshr := v.setWidth 8 }) ∧
    (256 < s.otherShares p (·.lshr) + (v.extractLsb' 8 8).toNat → exec (wr (.brPshr p)) s = .next s) ∧
    (s.barOpen = true → part_ (.brPfbase p) { z with pfBase := v } ∧
      (s.host.l2req.getLsbD 0 = false → part_ (.brPftop p) { z with pfTop := v })) ∧
    (s.barOpen = true → s.otherWays p &&& v.setWidth 15 = 0 → part_ (.brPway p) { z with ways := v.setWidth 15 }) ∧
    (s.otherWays p &&& v.setWidth 15 ≠ 0 → exec (wr (.brPway p)) s = .next s) ∧
    (s.barOpen = true → t < 1024 → ∃ u u', exec (wr (.brLtbase t)) s = .next u ∧ look 0 u.brass.ltBase t = v ∧ u.brass.ltCnt = s.brass.ltCnt ∧
      exec (wr (.brLtcnt t)) s = .next u' ∧ look 0 u'.brass.ltCnt t = v ∧ u'.brass.ltBase = s.brass.ltBase) ∧
    (s.barOpen = true → n < 16 → v.getLsbD 0 = true → v.getLsbD 1 = false → ∃ u, exec (wr (.clPctl n)) s = .next u ∧
      u.couri n = { s.couri n with en := true } ∧ ∀ k, k ≠ n → u.couri k = s.couri k) ∧
    (s.barOpen = true → n < 16 → v.getLsbD 0 = false → v.getLsbD 1 = false → ∃ u, exec (wr (.clPctl n)) s = .next u ∧ (u.couri n).en = false ∧
      (u.couri n).up = false) ∧
    (s.barOpen = true → (s.links.ports.any (·.2.up) = false → exec (wr .clChipid) s = .next { s with links := { s.links with chip := v.setWidth 12 } }) ∧
      (s.links.ports.any (·.2.up) = true → exec (wr .clChipid) s = .next s) ∧
      exec (wr .clPtctl) s = .next { s with links := { s.links with master := v.getLsbD 0 } }) ∧
    (s.barOpen = true → c < 4096 → ∃ u, exec (wr (.clRtab c)) s = .next u ∧ u.mem = s.mem ∧
      u.chipRoute c = { cr with v := v.getLsbD 63, av := v.getLsbD 8, aport := v.extractLsb' 4 4, pport := v.setWidth 4 }) ∧
    (s.ringOpen f r = true → ofRing (.hpDring f r) { ring with ring := v &&& ~~~(63#64), ringSet := true } ∧
      ofRing (.hpDcmp f r) { ring with cmp := v &&& ~~~(15#64), cmpSet := true } ∧
      ofRing (.hpDstat f r) { ring with ovf := ring.ovf && !v.getLsbD 2, err := ring.err && !v.getLsbD 1 } ∧
      (ring.en = false → ofRing (.hpDcfg f r)
        { ring with lsz := v.extractLsb' 56 4, vec := v.setWidth 6,
                    en := v.getLsbD 63 && decide ((v.extractLsb' 56 4 : BitVec 4).toNat ≤ 12) && ring.ringSet && ring.cmpSet })) ∧
    (s.boxOpen f = true → ∃ u, exec (wr (.cbMstat f)) s = .next u ∧ u.box f = { s.box f with done := (s.box f).done && !v.getLsbD 1 } ∧ u.mem = s.mem) ∧
    (s.boxOpen f = true → (s.box f).busy = false → off % 8 = 0 → off < 4096 → ∃ u, exec (wr (.cbMbuf f off)) s = .next u ∧ u.mem = s.mem ∧
      ∀ k, look 0 (u.box f).buf k = if off ≤ k ∧ k < off + 8 then v.extractLsb' (8 * (k - off)) 8 else look 0 (s.box f).buf k) ∧
    (s.boxOpen f = true → (s.box f).busy = true → exec (wr (.cbMbuf f off)) s = .next s) ∧
    (s.barOpen = false → exec (wr .brAsidbase) s = .next s ∧ exec (wr (.brQring q)) s = .next s ∧ exec (wr (.brQvf q)) s = .next s ∧
      exec (wr (.brFnpart f)) s = .next s ∧ exec (wr (.clPctl n)) s = .next s ∧ exec (wr .clChipid) s = .next s ∧ exec (wr (.clRtab c)) s = .next s)

/-! ### Words, turns and what every step keeps -/

/-- R117, R118, R202, R418 to R420: decoding the word of an instruction gives the instruction back, with every operand at every value, and a word
that decodes is the word of what it decodes to; no event has a word. -/
def Obligations.DecodeEncode : Prop :=
  ∀ (mn : Bool) (i : Instr) (w : Word),
    (encode i = some w → i.readBy mn = true → decode mn w = .ok i) ∧
    (decode mn w = .ok i → encode i = some w ∧ i.readBy mn = true) ∧
    (encode i = none ↔ formLegality i = .event)

/-- The memory's canonical form is an invariant: whatever the turn, a step from a state whose memory lists its bytes at rising addresses and
none that is zero leaves such a state. Where it rests on a choice of the model: log 7. -/
def Obligations.StepKeepsMemoryCanonical : Prop :=
  ∀ s t : State, step s = .next t → s.Inv → t.Inv

/-- R341, R343, R389: right after reset memory is canonical, the cause is power-on, every table is empty, no sequencer or island runs, the stage
is that of the ROM, and every line of HBM is poisoned while tiles and scratchpads read zero at version 0.
Where it rests on a choice of the model: logs 3, 7. -/
def Obligations.ResetState : Prop :=
  State.reset.Inv ∧ State.reset.mgmt.cause = 1 ∧ State.reset.mgmt.stage = 0 ∧ State.reset.mgmt.pwrLim = 2200 ∧ State.reset.sec.cerr = false ∧
  State.reset.sec.bootLock = false ∧ (∀ k, look none State.reset.sec.handles k = none) ∧ (∀ k, look {} State.reset.sec.keys k = {}) ∧
  (∀ k, look 0 State.reset.sec.meas k = 0) ∧ (∀ n, (State.reset.seq n).run ≠ .running) ∧ (∀ k, (State.reset.island k).enabled = false) ∧
  (∀ a, State.reset.mem.byte a = 0) ∧ (∀ l, State.reset.mem.ver l = 0) ∧ (∀ b, look false State.reset.mem.clean b = false) ∧
  (∀ a, State.reset.mem.poisoned a = inHbm a)

/-- R28, R117, R154, R418, R421: a step takes the next turn. A running sequencer executes the instruction that the word at its pc decodes to, and a
word that decodes to none is illegal; a pc outside the instruction memory or not aligned traps with kind 0x01 and TVAL the pc, or halts a
sequencer whose last trap is not acknowledged; a sequencer with a store that waits for room in
its replay queue stalls; in a slot a VE and then an MN execute the words of their rows; an event is its own instruction, and before a timing trap the
islands whose stall the arrivals have cleared are no longer due it. Words written
out from the formats of the spec decode to what they stand for. Where it rests on a choice of the model: logs 8, 124. -/
def Obligations.StepRunsWord : Prop :=
  ∀ (s s1 t : State) (n c : Nat) (i j : Instr) (rest : List Turn) (post : Bool),
    let pc := (s.seq n).pc
    let w := look 0 (s.seq n).imem (pc.toNat / 4)
    let runs : Prop := n ≤ 32 ∧ (s.seq n).run = .running ∧ (s.mgmt.d3hot = false ∨ n = 32)
    let ready := { s with turns := rest, actor := .seq n, scratch := { post := post } }
    let clear : Prop := s.stuckOn (.seq n) = false
    (s.turns = .seq n post :: rest → runs → clear → Fetchable pc → decode false w = .ok i → step s = exec i ready) ∧
    (s.turns = .seq n post :: rest → runs → clear → Fetchable pc → (∀ k, decode false w ≠ .ok k) → step s = exec (.illegalWordDecode w) ready) ∧
    (s.turns = .seq n post :: rest → runs → ¬ clear → step s = .next ready) ∧
    (s.turns = .seq n post :: rest → runs → clear → ¬ Fetchable pc → (s.seq n).unack = false →
      ∃ u q', step s = .next u ∧ SeqBecomes ready u n q' ∧ Traps (s.seq n) q' 0x0101 pc pc 0) ∧
    (s.turns = .seq n post :: rest → runs → clear → ¬ Fetchable pc → (s.seq n).unack = true → ∃ u q', step s = .next u ∧ SeqBecomes ready u n q' ∧
      q'.run = .halted ∧ q'.r1v = true ∧ q'.tpc1 = pc ∧ q'.tval1 = pc ∧ q'.pc = pc) ∧
    (s.turns = .seq n post :: rest → n ≤ 32 → ¬ runs → step s = .next { s with turns := rest }) ∧
    (s.turns = .seq n post :: rest → 32 < n → step s = .fault .noSuchAgent) ∧
    (s.turns = .event i :: rest → (∀ k, i ≠ .timingTrap k ∧ i ≠ .replyArrival k ∧ i ≠ .cnvReturn k) →
      step s = exec i { s with turns := rest, scratch := {} }) ∧
    (∀ e ∈ [Instr.replyArrival c, .cnvReturn c], s.turns = .event e :: rest → step s = exec e { s with turns := rest }) ∧
    (s.turns = .event (.timingTrap c) :: rest → step s = exec (.timingTrap c) { s with turns := rest }.stillSpent) ∧
    (∀ e, e ∈ { s with turns := rest }.stillSpent.scratch.spent ↔
      e ∈ s.scratch.spent ∧ ({ s with turns := rest }.fireSlot e.1).scratch.stalls ≠ []) ∧
    (s.turns = .cycle :: rest → step s = .next { s with turns := rest }.clockPeriod) ∧
    (s.turns = [] → s.mgmt.stage = 0 → step s = exec .romBoot { s with scratch := {} }) ∧
    (decode false (s.veRow c).word = .ok i → decode true (s.mnRow c).word = .ok j → exec i { s with actor := .ve c } = .next s1 →
      exec j { s1 with actor := .mn c } = .next t → s.fireCore c = t) ∧
    (∀ e ∈ specWords, decode e.1 e.2.1 = .ok e.2.2)

/-- R419: each of the 86 unassigned opcodes is an illegal word on every executor and at every level; 0xFFFF_FFFF is one, and the all-zero word is
NOP guarded on P0, legal on every executor. -/
def Obligations.UnassignedOpcodes : Prop :=
  ∀ (s : State) (w : Word) (mn : Bool) (n c : Nat) (k : Kind),
    let op := (w.extractLsb' 24 8).toNat
    let free (x : Nat) : Prop := 0x14 ≤ x ∧ x ≤ 0x1F ∨ x = 0x4E ∨ x = 0x4F ∨ 0x6C ≤ x ∧ x ≤ 0x7F ∨ 0x88 ≤ x ∧ x ≤ 0x8F ∨ 0x9C ≤ x ∧ x ≤ 0x9F ∨
      0xAE ≤ x ∧ x ≤ 0xBF ∨ 0xCC ≤ x ∧ x ≤ 0xCF ∨ 0xE2 ≤ x ∧ x ≤ 0xEF ∨ 0xFC ≤ x ∧ x ≤ 0xFF
    let faults : List (Nat × FaultRec) := s.scratch.faults
    (free op → decode mn w = .bad .unassigned) ∧
    (¬ free op → decode mn w ≠ .bad .unassigned) ∧
    (free op → s.actor = .seq n → (s.seq n).unack = false →
      ∃ t q', runWord mn w s = .next t ∧ SeqBecomes s t n q' ∧ Traps (s.seq n) q' 0x0102 (s.seq n).pc (w.setWidth 64) 0) ∧
    (free op → s.actor = .seq n → (s.seq n).unack = true → ∃ t q', runWord mn w s = .next t ∧ SeqBecomes s t n q' ∧ q'.run = .halted ∧
      q'.r1v = true ∧ q'.tpc1 = (s.seq n).pc ∧ q'.tval1 = w.setWidth 64 ∧ q'.pc = (s.seq n).pc) ∧
    (free op → s.actor = .ve c ∨ s.actor = .mn c → ∃ t r, runWord mn w s = .next t ∧ t.scratch.faults = faults ++ [r] ∧ r.2.cause = 0x0202 ∧ r.2.tval = w.setWidth 64 ∧
      t.cores = s.cores ∧ t.mem = s.mem) ∧
    decode mn 0xFFFFFFFF = .bad .unassigned ∧ decode mn 0 = .ok (.nop 0) ∧ Instr.wf k (.nop 0) = true
end

