-- ==== Sys2Proof/Laws/Tab.lean ====
section
/-! SUPPORT. Tables: reading after writing, and the canonical form. -/

namespace Sys2Proof.Machine

variable {α : Type}

@[simp] theorem look_nil (d : α) (k : Nat) : look d [] k = d := rfl

theorem look_enter (d : α) (t : Tab α) (k k' : Nat) (v : α) : look d (enter t k v) k' = if k = k' then v else look d t k' := by
  induction t with
  | nil => rfl
  | cons e t ih =>
    obtain ⟨i, x⟩ := e
    by_cases h1 : i < k
    · have hk : i ≠ k := by omega
      simp only [enter, h1, if_true, look, ih]
      by_cases h : i = k' <;> by_cases h' : k = k' <;> simp_all
    · by_cases h2 : i = k
      · subst h2
        simp only [enter, h1, if_true, if_false, look]
        by_cases h : i = k' <;> simp [h]
      · simp only [enter, h1, h2, if_false, look]

theorem look_strike (d : α) (t : Tab α) (k k' : Nat) : look d (strike t k) k' = if k = k' then d else look d t k' := by
  induction t with
  | nil => simp [strike, look]
  | cons e t ih =>
    obtain ⟨i, x⟩ := e
    by_cases h2 : i = k
    · subst h2
      simp only [strike, if_true, look, ih]
      by_cases h : i = k' <;> simp [h]
    · simp only [strike, h2, if_false, look, ih]
      by_cases h : i = k' <;> by_cases h' : k = k' <;> simp_all

/-- Reading any key after writing one. -/
theorem look_put [DecidableEq α] (d : α) (t : Tab α) (k k' : Nat) (v : α) :
    look d (put d t k v) k' = if k = k' then v else look d t k' := by
  unfold put
  split
  · subst_vars; exact look_strike _ _ _ _
  · exact look_enter _ _ _ _ _

@[simp] theorem look_put_same [DecidableEq α] (d : α) (t : Tab α) (k : Nat) (v : α) : look d (put d t k v) k = v := by
  simp [look_put]

theorem look_put_ne [DecidableEq α] (d : α) (t : Tab α) {k k' : Nat} (v : α) (h : k ≠ k') :
    look d (put d t k v) k' = look d t k' := by
  simp [look_put, h]

/-! ### The canonical form -/

theorem wfFrom_mono [DecidableEq α] (d : α) (t : Tab α) {lo hi : Nat} (h : lo ≤ hi) (w : Tab.wfFrom d hi t = true) :
    Tab.wfFrom d lo t = true := by
  cases t with
  | nil => rfl
  | cons e t =>
    simp only [Tab.wfFrom, Bool.and_eq_true, decide_eq_true_eq] at w ⊢
    exact ⟨⟨Nat.le_trans h w.1.1, w.1.2⟩, w.2⟩

theorem wfFrom_enter [DecidableEq α] (d : α) (t : Tab α) (lo k : Nat) (v : α) (hv : v ≠ d) (hk : lo ≤ k)
    (w : Tab.wfFrom d lo t = true) : Tab.wfFrom d lo (enter t k v) = true := by
  induction t generalizing lo with
  | nil => simp [enter, Tab.wfFrom, hk, hv]
  | cons e t ih =>
    obtain ⟨i, x⟩ := e
    simp only [Tab.wfFrom, Bool.and_eq_true, decide_eq_true_eq] at w
    by_cases h1 : i < k
    · simp only [enter, h1, if_true, Tab.wfFrom, Bool.and_eq_true, decide_eq_true_eq]
      exact ⟨w.1, ih (i + 1) h1 w.2⟩
    · by_cases h2 : i = k
      · subst h2
        simp only [enter, h1, if_true, if_false, Tab.wfFrom, Bool.and_eq_true, decide_eq_true_eq]
        exact ⟨⟨w.1.1, by simp [hv]⟩, w.2⟩
      · simp only [enter, h1, h2, if_false, Tab.wfFrom, Bool.and_eq_true, decide_eq_true_eq]
        exact ⟨⟨hk, by simp [hv]⟩, ⟨by omega, w.1.2⟩, w.2⟩

theorem wfFrom_strike [DecidableEq α] (d : α) (t : Tab α) (lo k : Nat) (w : Tab.wfFrom d lo t = true) :
    Tab.wfFrom d lo (strike t k) = true := by
  induction t generalizing lo with
  | nil => rfl
  | cons e t ih =>
    obtain ⟨i, x⟩ := e
    simp only [Tab.wfFrom, Bool.and_eq_true, decide_eq_true_eq] at w
    by_cases h2 : i = k
    · simp only [strike, h2, if_true]
      exact wfFrom_mono d _ (by omega) (ih (i + 1) w.2)
    · simp only [strike, h2, if_false, Tab.wfFrom, Bool.and_eq_true, decide_eq_true_eq]
      exact ⟨w.1, ih (i + 1) w.2⟩

/-- Writing a table keeps it canonical. -/
theorem wf_put [DecidableEq α] (d : α) (t : Tab α) (k : Nat) (v : α) (w : Tab.wf d t = true) : Tab.wf d (put d t k v) = true := by
  unfold put Tab.wf
  split
  · exact wfFrom_strike d t 0 k w
  · rename_i h; exact wfFrom_enter d t 0 k v h (Nat.zero_le _) w

/-- Leaving entries out keeps a table canonical. -/
theorem wfFrom_filter [DecidableEq α] (d : α) (t : Tab α) (lo : Nat) (p : Nat × α → Bool) (w : Tab.wfFrom d lo t = true) :
    Tab.wfFrom d lo (t.filter p) = true := by
  induction t generalizing lo with
  | nil => rfl
  | cons e t ih =>
    obtain ⟨i, x⟩ := e
    simp only [Tab.wfFrom, Bool.and_eq_true, decide_eq_true_eq] at w
    rw [List.filter_cons]
    split
    · simp only [Tab.wfFrom, Bool.and_eq_true, decide_eq_true_eq]
      exact ⟨w.1, ih (i + 1) w.2⟩
    · exact wfFrom_mono d _ (by omega) (ih (i + 1) w.2)

theorem wf_filter [DecidableEq α] (d : α) (t : Tab α) (p : Nat × α → Bool) (w : Tab.wf d t = true) :
    Tab.wf d (t.filter p) = true := wfFrom_filter d t 0 p w

/-- Below the first key a canonical table reads its default. -/
theorem look_below [DecidableEq α] (d : α) (t : Tab α) (lo k : Nat) (h : k < lo) (w : Tab.wfFrom d lo t = true) : look d t k = d := by
  induction t generalizing lo with
  | nil => rfl
  | cons e t ih =>
    obtain ⟨i, x⟩ := e
    simp only [Tab.wfFrom, Bool.and_eq_true, decide_eq_true_eq] at w
    have : i ≠ k := by omega
    simp only [look, this, if_false]
    exact ih (i + 1) (by omega) w.2

/-- Two canonical tables that read alike are the same list. -/
theorem tab_ext [DecidableEq α] (d : α) (t u : Tab α) (ht : Tab.wf d t = true) (hu : Tab.wf d u = true)
    (h : ∀ k, look d t k = look d u k) : t = u := by
  suffices H : ∀ lo, Tab.wfFrom d lo t = true → Tab.wfFrom d lo u = true → t = u from H 0 ht hu
  clear ht hu
  intro lo wt wu
  induction t generalizing u lo with
  | nil =>
    cases u with
    | nil => rfl
    | cons e u =>
      simp only [Tab.wfFrom, Bool.and_eq_true, decide_eq_true_eq] at wu
      have := h e.1
      simp [look] at this
      simp [← this] at wu
  | cons e t ih =>
    obtain ⟨i, x⟩ := e
    cases u with
    | nil =>
      simp only [Tab.wfFrom, Bool.and_eq_true, decide_eq_true_eq] at wt
      have := h i
      simp [look] at this
      simp [this] at wt
    | cons f u =>
      obtain ⟨j, y⟩ := f
      simp only [Tab.wfFrom, Bool.and_eq_true, decide_eq_true_eq] at wt wu
      have hij : i = j := by
        rcases Nat.lt_trichotomy i j with l | l | l
        · have a := h i
          have b := look_below d u (j + 1) i (by omega) wu.2
          have : j ≠ i := by omega
          simp only [look, if_true, this, if_false, b] at a
          simp [a] at wt
        · exact l
        · have a := h j
          have b := look_below d t (i + 1) j (by omega) wt.2
          have : i ≠ j := by omega
          simp only [look, if_true, this, if_false, b] at a
          simp [← a] at wu
      subst hij
      have hxy : x = y := by simpa [look] using h i
      subst hxy
      congr 1
      apply ih u _ (i + 1) wt.2 wu.2
      intro k
      by_cases hk : i = k
      · subst hk
        rw [look_below d t (i + 1) i (by omega) wt.2, look_below d u (i + 1) i (by omega) wu.2]
      · simpa [look, hk] using h k

end Sys2Proof.Machine
end

