-- ==== Sys2Proof/Laws/State.lean ====
section
/-! SUPPORT. What each update of the state leaves as it was: one lemma for each field and update. -/

namespace Sys2Proof.Machine

/-! ### setSeq -/

@[simp] theorem State.setSeq_turns (s : State) (n : Nat) (q : Seq) : (s.setSeq n q).turns = s.turns := rfl
@[simp] theorem State.setSeq_actor (s : State) (n : Nat) (q : Seq) : (s.setSeq n q).actor = s.actor := rfl
@[simp] theorem State.setSeq_scratch (s : State) (n : Nat) (q : Seq) : (s.setSeq n q).scratch = s.scratch := rfl
@[simp] theorem State.setSeq_free (s : State) (n : Nat) (q : Seq) : (s.setSeq n q).free = s.free := rfl
@[simp] theorem State.setSeq_cycle (s : State) (n : Nat) (q : Seq) : (s.setSeq n q).cycle = s.cycle := rfl
@[simp] theorem State.setSeq_cores (s : State) (n : Nat) (q : Seq) : (s.setSeq n q).cores = s.cores := rfl
@[simp] theorem State.setSeq_islands (s : State) (n : Nat) (q : Seq) : (s.setSeq n q).islands = s.islands := rfl
@[simp] theorem State.setSeq_regions (s : State) (n : Nat) (q : Seq) : (s.setSeq n q).regions = s.regions := rfl
@[simp] theorem State.setSeq_fifos (s : State) (n : Nat) (q : Seq) : (s.setSeq n q).fifos = s.fifos := rfl
@[simp] theorem State.setSeq_transit (s : State) (n : Nat) (q : Seq) : (s.setSeq n q).transit = s.transit := rfl
@[simp] theorem State.setSeq_mem (s : State) (n : Nat) (q : Seq) : (s.setSeq n q).mem = s.mem := rfl
@[simp] theorem State.setSeq_streams (s : State) (n : Nat) (q : Seq) : (s.setSeq n q).streams = s.streams := rfl
@[simp] theorem State.setSeq_brass (s : State) (n : Nat) (q : Seq) : (s.setSeq n q).brass = s.brass := rfl
@[simp] theorem State.setSeq_sec (s : State) (n : Nat) (q : Seq) : (s.setSeq n q).sec = s.sec := rfl
@[simp] theorem State.setSeq_host (s : State) (n : Nat) (q : Seq) : (s.setSeq n q).host = s.host := rfl
@[simp] theorem State.setSeq_links (s : State) (n : Nat) (q : Seq) : (s.setSeq n q).links = s.links := rfl
@[simp] theorem State.setSeq_mgmt (s : State) (n : Nat) (q : Seq) : (s.setSeq n q).mgmt = s.mgmt := rfl

/-! ### setCore -/

@[simp] theorem State.setCore_turns (s : State) (c : Nat) (k : Core) : (s.setCore c k).turns = s.turns := rfl
@[simp] theorem State.setCore_actor (s : State) (c : Nat) (k : Core) : (s.setCore c k).actor = s.actor := rfl
@[simp] theorem State.setCore_scratch (s : State) (c : Nat) (k : Core) : (s.setCore c k).scratch = s.scratch := rfl
@[simp] theorem State.setCore_free (s : State) (c : Nat) (k : Core) : (s.setCore c k).free = s.free := rfl
@[simp] theorem State.setCore_cycle (s : State) (c : Nat) (k : Core) : (s.setCore c k).cycle = s.cycle := rfl
@[simp] theorem State.setCore_seqs (s : State) (c : Nat) (k : Core) : (s.setCore c k).seqs = s.seqs := rfl
@[simp] theorem State.setCore_islands (s : State) (c : Nat) (k : Core) : (s.setCore c k).islands = s.islands := rfl
@[simp] theorem State.setCore_regions (s : State) (c : Nat) (k : Core) : (s.setCore c k).regions = s.regions := rfl
@[simp] theorem State.setCore_fifos (s : State) (c : Nat) (k : Core) : (s.setCore c k).fifos = s.fifos := rfl
@[simp] theorem State.setCore_transit (s : State) (c : Nat) (k : Core) : (s.setCore c k).transit = s.transit := rfl
@[simp] theorem State.setCore_mem (s : State) (c : Nat) (k : Core) : (s.setCore c k).mem = s.mem := rfl
@[simp] theorem State.setCore_streams (s : State) (c : Nat) (k : Core) : (s.setCore c k).streams = s.streams := rfl
@[simp] theorem State.setCore_brass (s : State) (c : Nat) (k : Core) : (s.setCore c k).brass = s.brass := rfl
@[simp] theorem State.setCore_sec (s : State) (c : Nat) (k : Core) : (s.setCore c k).sec = s.sec := rfl
@[simp] theorem State.setCore_host (s : State) (c : Nat) (k : Core) : (s.setCore c k).host = s.host := rfl
@[simp] theorem State.setCore_links (s : State) (c : Nat) (k : Core) : (s.setCore c k).links = s.links := rfl
@[simp] theorem State.setCore_mgmt (s : State) (c : Nat) (k : Core) : (s.setCore c k).mgmt = s.mgmt := rfl

/-! ### setVe -/

@[simp] theorem State.setVe_turns (s : State) (c : Nat) (v : Ve) : (s.setVe c v).turns = s.turns := rfl
@[simp] theorem State.setVe_actor (s : State) (c : Nat) (v : Ve) : (s.setVe c v).actor = s.actor := rfl
@[simp] theorem State.setVe_scratch (s : State) (c : Nat) (v : Ve) : (s.setVe c v).scratch = s.scratch := rfl
@[simp] theorem State.setVe_free (s : State) (c : Nat) (v : Ve) : (s.setVe c v).free = s.free := rfl
@[simp] theorem State.setVe_cycle (s : State) (c : Nat) (v : Ve) : (s.setVe c v).cycle = s.cycle := rfl
@[simp] theorem State.setVe_seqs (s : State) (c : Nat) (v : Ve) : (s.setVe c v).seqs = s.seqs := rfl
@[simp] theorem State.setVe_islands (s : State) (c : Nat) (v : Ve) : (s.setVe c v).islands = s.islands := rfl
@[simp] theorem State.setVe_regions (s : State) (c : Nat) (v : Ve) : (s.setVe c v).regions = s.regions := rfl
@[simp] theorem State.setVe_fifos (s : State) (c : Nat) (v : Ve) : (s.setVe c v).fifos = s.fifos := rfl
@[simp] theorem State.setVe_transit (s : State) (c : Nat) (v : Ve) : (s.setVe c v).transit = s.transit := rfl
@[simp] theorem State.setVe_mem (s : State) (c : Nat) (v : Ve) : (s.setVe c v).mem = s.mem := rfl
@[simp] theorem State.setVe_streams (s : State) (c : Nat) (v : Ve) : (s.setVe c v).streams = s.streams := rfl
@[simp] theorem State.setVe_brass (s : State) (c : Nat) (v : Ve) : (s.setVe c v).brass = s.brass := rfl
@[simp] theorem State.setVe_sec (s : State) (c : Nat) (v : Ve) : (s.setVe c v).sec = s.sec := rfl
@[simp] theorem State.setVe_host (s : State) (c : Nat) (v : Ve) : (s.setVe c v).host = s.host := rfl
@[simp] theorem State.setVe_links (s : State) (c : Nat) (v : Ve) : (s.setVe c v).links = s.links := rfl
@[simp] theorem State.setVe_mgmt (s : State) (c : Nat) (v : Ve) : (s.setVe c v).mgmt = s.mgmt := rfl

/-! ### setMn -/

@[simp] theorem State.setMn_turns (s : State) (c : Nat) (m : Mn) : (s.setMn c m).turns = s.turns := rfl
@[simp] theorem State.setMn_actor (s : State) (c : Nat) (m : Mn) : (s.setMn c m).actor = s.actor := rfl
@[simp] theorem State.setMn_scratch (s : State) (c : Nat) (m : Mn) : (s.setMn c m).scratch = s.scratch := rfl
@[simp] theorem State.setMn_free (s : State) (c : Nat) (m : Mn) : (s.setMn c m).free = s.free := rfl
@[simp] theorem State.setMn_cycle (s : State) (c : Nat) (m : Mn) : (s.setMn c m).cycle = s.cycle := rfl
@[simp] theorem State.setMn_seqs (s : State) (c : Nat) (m : Mn) : (s.setMn c m).seqs = s.seqs := rfl
@[simp] theorem State.setMn_islands (s : State) (c : Nat) (m : Mn) : (s.setMn c m).islands = s.islands := rfl
@[simp] theorem State.setMn_regions (s : State) (c : Nat) (m : Mn) : (s.setMn c m).regions = s.regions := rfl
@[simp] theorem State.setMn_fifos (s : State) (c : Nat) (m : Mn) : (s.setMn c m).fifos = s.fifos := rfl
@[simp] theorem State.setMn_transit (s : State) (c : Nat) (m : Mn) : (s.setMn c m).transit = s.transit := rfl
@[simp] theorem State.setMn_mem (s : State) (c : Nat) (m : Mn) : (s.setMn c m).mem = s.mem := rfl
@[simp] theorem State.setMn_streams (s : State) (c : Nat) (m : Mn) : (s.setMn c m).streams = s.streams := rfl
@[simp] theorem State.setMn_brass (s : State) (c : Nat) (m : Mn) : (s.setMn c m).brass = s.brass := rfl
@[simp] theorem State.setMn_sec (s : State) (c : Nat) (m : Mn) : (s.setMn c m).sec = s.sec := rfl
@[simp] theorem State.setMn_host (s : State) (c : Nat) (m : Mn) : (s.setMn c m).host = s.host := rfl
@[simp] theorem State.setMn_links (s : State) (c : Nat) (m : Mn) : (s.setMn c m).links = s.links := rfl
@[simp] theorem State.setMn_mgmt (s : State) (c : Nat) (m : Mn) : (s.setMn c m).mgmt = s.mgmt := rfl

/-! ### setIsland -/

@[simp] theorem State.setIsland_turns (s : State) (k : Nat) (i : Island) : (s.setIsland k i).turns = s.turns := rfl
@[simp] theorem State.setIsland_actor (s : State) (k : Nat) (i : Island) : (s.setIsland k i).actor = s.actor := rfl
@[simp] theorem State.setIsland_scratch (s : State) (k : Nat) (i : Island) : (s.setIsland k i).scratch = s.scratch := rfl
@[simp] theorem State.setIsland_free (s : State) (k : Nat) (i : Island) : (s.setIsland k i).free = s.free := rfl
@[simp] theorem State.setIsland_cycle (s : State) (k : Nat) (i : Island) : (s.setIsland k i).cycle = s.cycle := rfl
@[simp] theorem State.setIsland_seqs (s : State) (k : Nat) (i : Island) : (s.setIsland k i).seqs = s.seqs := rfl
@[simp] theorem State.setIsland_cores (s : State) (k : Nat) (i : Island) : (s.setIsland k i).cores = s.cores := rfl
@[simp] theorem State.setIsland_regions (s : State) (k : Nat) (i : Island) : (s.setIsland k i).regions = s.regions := rfl
@[simp] theorem State.setIsland_fifos (s : State) (k : Nat) (i : Island) : (s.setIsland k i).fifos = s.fifos := rfl
@[simp] theorem State.setIsland_transit (s : State) (k : Nat) (i : Island) : (s.setIsland k i).transit = s.transit := rfl
@[simp] theorem State.setIsland_mem (s : State) (k : Nat) (i : Island) : (s.setIsland k i).mem = s.mem := rfl
@[simp] theorem State.setIsland_streams (s : State) (k : Nat) (i : Island) : (s.setIsland k i).streams = s.streams := rfl
@[simp] theorem State.setIsland_brass (s : State) (k : Nat) (i : Island) : (s.setIsland k i).brass = s.brass := rfl
@[simp] theorem State.setIsland_sec (s : State) (k : Nat) (i : Island) : (s.setIsland k i).sec = s.sec := rfl
@[simp] theorem State.setIsland_host (s : State) (k : Nat) (i : Island) : (s.setIsland k i).host = s.host := rfl
@[simp] theorem State.setIsland_links (s : State) (k : Nat) (i : Island) : (s.setIsland k i).links = s.links := rfl
@[simp] theorem State.setIsland_mgmt (s : State) (k : Nat) (i : Island) : (s.setIsland k i).mgmt = s.mgmt := rfl

/-! ### setRegion -/

@[simp] theorem State.setRegion_turns (s : State) (k : Nat) (r : Region) : (s.setRegion k r).turns = s.turns := rfl
@[simp] theorem State.setRegion_actor (s : State) (k : Nat) (r : Region) : (s.setRegion k r).actor = s.actor := rfl
@[simp] theorem State.setRegion_scratch (s : State) (k : Nat) (r : Region) : (s.setRegion k r).scratch = s.scratch := rfl
@[simp] theorem State.setRegion_free (s : State) (k : Nat) (r : Region) : (s.setRegion k r).free = s.free := rfl
@[simp] theorem State.setRegion_cycle (s : State) (k : Nat) (r : Region) : (s.setRegion k r).cycle = s.cycle := rfl
@[simp] theorem State.setRegion_seqs (s : State) (k : Nat) (r : Region) : (s.setRegion k r).seqs = s.seqs := rfl
@[simp] theorem State.setRegion_cores (s : State) (k : Nat) (r : Region) : (s.setRegion k r).cores = s.cores := rfl
@[simp] theorem State.setRegion_islands (s : State) (k : Nat) (r : Region) : (s.setRegion k r).islands = s.islands := rfl
@[simp] theorem State.setRegion_fifos (s : State) (k : Nat) (r : Region) : (s.setRegion k r).fifos = s.fifos := rfl
@[simp] theorem State.setRegion_transit (s : State) (k : Nat) (r : Region) : (s.setRegion k r).transit = s.transit := rfl
@[simp] theorem State.setRegion_mem (s : State) (k : Nat) (r : Region) : (s.setRegion k r).mem = s.mem := rfl
@[simp] theorem State.setRegion_streams (s : State) (k : Nat) (r : Region) : (s.setRegion k r).streams = s.streams := rfl
@[simp] theorem State.setRegion_brass (s : State) (k : Nat) (r : Region) : (s.setRegion k r).brass = s.brass := rfl
@[simp] theorem State.setRegion_sec (s : State) (k : Nat) (r : Region) : (s.setRegion k r).sec = s.sec := rfl
@[simp] theorem State.setRegion_host (s : State) (k : Nat) (r : Region) : (s.setRegion k r).host = s.host := rfl
@[simp] theorem State.setRegion_links (s : State) (k : Nat) (r : Region) : (s.setRegion k r).links = s.links := rfl
@[simp] theorem State.setRegion_mgmt (s : State) (k : Nat) (r : Region) : (s.setRegion k r).mgmt = s.mgmt := rfl

/-! ### setFifo -/

@[simp] theorem State.setFifo_turns (s : State) (k : Nat) (l : List Token) : (s.setFifo k l).turns = s.turns := rfl
@[simp] theorem State.setFifo_actor (s : State) (k : Nat) (l : List Token) : (s.setFifo k l).actor = s.actor := rfl
@[simp] theorem State.setFifo_scratch (s : State) (k : Nat) (l : List Token) : (s.setFifo k l).scratch = s.scratch := rfl
@[simp] theorem State.setFifo_free (s : State) (k : Nat) (l : List Token) : (s.setFifo k l).free = s.free := rfl
@[simp] theorem State.setFifo_cycle (s : State) (k : Nat) (l : List Token) : (s.setFifo k l).cycle = s.cycle := rfl
@[simp] theorem State.setFifo_seqs (s : State) (k : Nat) (l : List Token) : (s.setFifo k l).seqs = s.seqs := rfl
@[simp] theorem State.setFifo_cores (s : State) (k : Nat) (l : List Token) : (s.setFifo k l).cores = s.cores := rfl
@[simp] theorem State.setFifo_islands (s : State) (k : Nat) (l : List Token) : (s.setFifo k l).islands = s.islands := rfl
@[simp] theorem State.setFifo_regions (s : State) (k : Nat) (l : List Token) : (s.setFifo k l).regions = s.regions := rfl
@[simp] theorem State.setFifo_transit (s : State) (k : Nat) (l : List Token) : (s.setFifo k l).transit = s.transit := rfl
@[simp] theorem State.setFifo_mem (s : State) (k : Nat) (l : List Token) : (s.setFifo k l).mem = s.mem := rfl
@[simp] theorem State.setFifo_streams (s : State) (k : Nat) (l : List Token) : (s.setFifo k l).streams = s.streams := rfl
@[simp] theorem State.setFifo_brass (s : State) (k : Nat) (l : List Token) : (s.setFifo k l).brass = s.brass := rfl
@[simp] theorem State.setFifo_sec (s : State) (k : Nat) (l : List Token) : (s.setFifo k l).sec = s.sec := rfl
@[simp] theorem State.setFifo_host (s : State) (k : Nat) (l : List Token) : (s.setFifo k l).host = s.host := rfl
@[simp] theorem State.setFifo_links (s : State) (k : Nat) (l : List Token) : (s.setFifo k l).links = s.links := rfl
@[simp] theorem State.setFifo_mgmt (s : State) (k : Nat) (l : List Token) : (s.setFifo k l).mgmt = s.mgmt := rfl

/-! ### setPort -/

@[simp] theorem State.setPort_turns (s : State) (k : Nat) (p : Port) : (s.setPort k p).turns = s.turns := rfl
@[simp] theorem State.setPort_actor (s : State) (k : Nat) (p : Port) : (s.setPort k p).actor = s.actor := rfl
@[simp] theorem State.setPort_scratch (s : State) (k : Nat) (p : Port) : (s.setPort k p).scratch = s.scratch := rfl
@[simp] theorem State.setPort_free (s : State) (k : Nat) (p : Port) : (s.setPort k p).free = s.free := rfl
@[simp] theorem State.setPort_cycle (s : State) (k : Nat) (p : Port) : (s.setPort k p).cycle = s.cycle := rfl
@[simp] theorem State.setPort_seqs (s : State) (k : Nat) (p : Port) : (s.setPort k p).seqs = s.seqs := rfl
@[simp] theorem State.setPort_cores (s : State) (k : Nat) (p : Port) : (s.setPort k p).cores = s.cores := rfl
@[simp] theorem State.setPort_islands (s : State) (k : Nat) (p : Port) : (s.setPort k p).islands = s.islands := rfl
@[simp] theorem State.setPort_regions (s : State) (k : Nat) (p : Port) : (s.setPort k p).regions = s.regions := rfl
@[simp] theorem State.setPort_fifos (s : State) (k : Nat) (p : Port) : (s.setPort k p).fifos = s.fifos := rfl
@[simp] theorem State.setPort_transit (s : State) (k : Nat) (p : Port) : (s.setPort k p).transit = s.transit := rfl
@[simp] theorem State.setPort_mem (s : State) (k : Nat) (p : Port) : (s.setPort k p).mem = s.mem := rfl
@[simp] theorem State.setPort_brass (s : State) (k : Nat) (p : Port) : (s.setPort k p).brass = s.brass := rfl
@[simp] theorem State.setPort_sec (s : State) (k : Nat) (p : Port) : (s.setPort k p).sec = s.sec := rfl
@[simp] theorem State.setPort_host (s : State) (k : Nat) (p : Port) : (s.setPort k p).host = s.host := rfl
@[simp] theorem State.setPort_links (s : State) (k : Nat) (p : Port) : (s.setPort k p).links = s.links := rfl
@[simp] theorem State.setPort_mgmt (s : State) (k : Nat) (p : Port) : (s.setPort k p).mgmt = s.mgmt := rfl

/-! ### setBinding -/

@[simp] theorem State.setBinding_turns (s : State) (b : Nat) (x : Option Binding) : (s.setBinding b x).turns = s.turns := rfl
@[simp] theorem State.setBinding_actor (s : State) (b : Nat) (x : Option Binding) : (s.setBinding b x).actor = s.actor := rfl
@[simp] theorem State.setBinding_scratch (s : State) (b : Nat) (x : Option Binding) : (s.setBinding b x).scratch = s.scratch := rfl
@[simp] theorem State.setBinding_free (s : State) (b : Nat) (x : Option Binding) : (s.setBinding b x).free = s.free := rfl
@[simp] theorem State.setBinding_cycle (s : State) (b : Nat) (x : Option Binding) : (s.setBinding b x).cycle = s.cycle := rfl
@[simp] theorem State.setBinding_seqs (s : State) (b : Nat) (x : Option Binding) : (s.setBinding b x).seqs = s.seqs := rfl
@[simp] theorem State.setBinding_cores (s : State) (b : Nat) (x : Option Binding) : (s.setBinding b x).cores = s.cores := rfl
@[simp] theorem State.setBinding_islands (s : State) (b : Nat) (x : Option Binding) : (s.setBinding b x).islands = s.islands := rfl
@[simp] theorem State.setBinding_regions (s : State) (b : Nat) (x : Option Binding) : (s.setBinding b x).regions = s.regions := rfl
@[simp] theorem State.setBinding_fifos (s : State) (b : Nat) (x : Option Binding) : (s.setBinding b x).fifos = s.fifos := rfl
@[simp] theorem State.setBinding_transit (s : State) (b : Nat) (x : Option Binding) : (s.setBinding b x).transit = s.transit := rfl
@[simp] theorem State.setBinding_mem (s : State) (b : Nat) (x : Option Binding) : (s.setBinding b x).mem = s.mem := rfl
@[simp] theorem State.setBinding_brass (s : State) (b : Nat) (x : Option Binding) : (s.setBinding b x).brass = s.brass := rfl
@[simp] theorem State.setBinding_sec (s : State) (b : Nat) (x : Option Binding) : (s.setBinding b x).sec = s.sec := rfl
@[simp] theorem State.setBinding_host (s : State) (b : Nat) (x : Option Binding) : (s.setBinding b x).host = s.host := rfl
@[simp] theorem State.setBinding_links (s : State) (b : Nat) (x : Option Binding) : (s.setBinding b x).links = s.links := rfl
@[simp] theorem State.setBinding_mgmt (s : State) (b : Nat) (x : Option Binding) : (s.setBinding b x).mgmt = s.mgmt := rfl

/-! ### setMem -/

@[simp] theorem State.setMem_turns (s : State) (m : Mem) : (s.setMem m).turns = s.turns := rfl
@[simp] theorem State.setMem_actor (s : State) (m : Mem) : (s.setMem m).actor = s.actor := rfl
@[simp] theorem State.setMem_scratch (s : State) (m : Mem) : (s.setMem m).scratch = s.scratch := rfl
@[simp] theorem State.setMem_free (s : State) (m : Mem) : (s.setMem m).free = s.free := rfl
@[simp] theorem State.setMem_cycle (s : State) (m : Mem) : (s.setMem m).cycle = s.cycle := rfl
@[simp] theorem State.setMem_seqs (s : State) (m : Mem) : (s.setMem m).seqs = s.seqs := rfl
@[simp] theorem State.setMem_cores (s : State) (m : Mem) : (s.setMem m).cores = s.cores := rfl
@[simp] theorem State.setMem_islands (s : State) (m : Mem) : (s.setMem m).islands = s.islands := rfl
@[simp] theorem State.setMem_regions (s : State) (m : Mem) : (s.setMem m).regions = s.regions := rfl
@[simp] theorem State.setMem_fifos (s : State) (m : Mem) : (s.setMem m).fifos = s.fifos := rfl
@[simp] theorem State.setMem_transit (s : State) (m : Mem) : (s.setMem m).transit = s.transit := rfl
@[simp] theorem State.setMem_streams (s : State) (m : Mem) : (s.setMem m).streams = s.streams := rfl
@[simp] theorem State.setMem_brass (s : State) (m : Mem) : (s.setMem m).brass = s.brass := rfl
@[simp] theorem State.setMem_sec (s : State) (m : Mem) : (s.setMem m).sec = s.sec := rfl
@[simp] theorem State.setMem_host (s : State) (m : Mem) : (s.setMem m).host = s.host := rfl
@[simp] theorem State.setMem_links (s : State) (m : Mem) : (s.setMem m).links = s.links := rfl
@[simp] theorem State.setMem_mgmt (s : State) (m : Mem) : (s.setMem m).mgmt = s.mgmt := rfl

/-! ### setBrass -/

@[simp] theorem State.setBrass_turns (s : State) (b : Brass) : (s.setBrass b).turns = s.turns := rfl
@[simp] theorem State.setBrass_actor (s : State) (b : Brass) : (s.setBrass b).actor = s.actor := rfl
@[simp] theorem State.setBrass_scratch (s : State) (b : Brass) : (s.setBrass b).scratch = s.scratch := rfl
@[simp] theorem State.setBrass_free (s : State) (b : Brass) : (s.setBrass b).free = s.free := rfl
@[simp] theorem State.setBrass_cycle (s : State) (b : Brass) : (s.setBrass b).cycle = s.cycle := rfl
@[simp] theorem State.setBrass_seqs (s : State) (b : Brass) : (s.setBrass b).seqs = s.seqs := rfl
@[simp] theorem State.setBrass_cores (s : State) (b : Brass) : (s.setBrass b).cores = s.cores := rfl
@[simp] theorem State.setBrass_islands (s : State) (b : Brass) : (s.setBrass b).islands = s.islands := rfl
@[simp] theorem State.setBrass_regions (s : State) (b : Brass) : (s.setBrass b).regions = s.regions := rfl
@[simp] theorem State.setBrass_fifos (s : State) (b : Brass) : (s.setBrass b).fifos = s.fifos := rfl
@[simp] theorem State.setBrass_transit (s : State) (b : Brass) : (s.setBrass b).transit = s.transit := rfl
@[simp] theorem State.setBrass_mem (s : State) (b : Brass) : (s.setBrass b).mem = s.mem := rfl
@[simp] theorem State.setBrass_streams (s : State) (b : Brass) : (s.setBrass b).streams = s.streams := rfl
@[simp] theorem State.setBrass_sec (s : State) (b : Brass) : (s.setBrass b).sec = s.sec := rfl
@[simp] theorem State.setBrass_host (s : State) (b : Brass) : (s.setBrass b).host = s.host := rfl
@[simp] theorem State.setBrass_links (s : State) (b : Brass) : (s.setBrass b).links = s.links := rfl
@[simp] theorem State.setBrass_mgmt (s : State) (b : Brass) : (s.setBrass b).mgmt = s.mgmt := rfl

/-! ### setQueue -/

@[simp] theorem State.setQueue_turns (s : State) (q : Nat) (x : Queue) : (s.setQueue q x).turns = s.turns := rfl
@[simp] theorem State.setQueue_actor (s : State) (q : Nat) (x : Queue) : (s.setQueue q x).actor = s.actor := rfl
@[simp] theorem State.setQueue_scratch (s : State) (q : Nat) (x : Queue) : (s.setQueue q x).scratch = s.scratch := rfl
@[simp] theorem State.setQueue_free (s : State) (q : Nat) (x : Queue) : (s.setQueue q x).free = s.free := rfl
@[simp] theorem State.setQueue_cycle (s : State) (q : Nat) (x : Queue) : (s.setQueue q x).cycle = s.cycle := rfl
@[simp] theorem State.setQueue_seqs (s : State) (q : Nat) (x : Queue) : (s.setQueue q x).seqs = s.seqs := rfl
@[simp] theorem State.setQueue_cores (s : State) (q : Nat) (x : Queue) : (s.setQueue q x).cores = s.cores := rfl
@[simp] theorem State.setQueue_islands (s : State) (q : Nat) (x : Queue) : (s.setQueue q x).islands = s.islands := rfl
@[simp] theorem State.setQueue_regions (s : State) (q : Nat) (x : Queue) : (s.setQueue q x).regions = s.regions := rfl
@[simp] theorem State.setQueue_fifos (s : State) (q : Nat) (x : Queue) : (s.setQueue q x).fifos = s.fifos := rfl
@[simp] theorem State.setQueue_transit (s : State) (q : Nat) (x : Queue) : (s.setQueue q x).transit = s.transit := rfl
@[simp] theorem State.setQueue_mem (s : State) (q : Nat) (x : Queue) : (s.setQueue q x).mem = s.mem := rfl
@[simp] theorem State.setQueue_streams (s : State) (q : Nat) (x : Queue) : (s.setQueue q x).streams = s.streams := rfl
@[simp] theorem State.setQueue_sec (s : State) (q : Nat) (x : Queue) : (s.setQueue q x).sec = s.sec := rfl
@[simp] theorem State.setQueue_host (s : State) (q : Nat) (x : Queue) : (s.setQueue q x).host = s.host := rfl
@[simp] theorem State.setQueue_links (s : State) (q : Nat) (x : Queue) : (s.setQueue q x).links = s.links := rfl
@[simp] theorem State.setQueue_mgmt (s : State) (q : Nat) (x : Queue) : (s.setQueue q x).mgmt = s.mgmt := rfl

/-! ### setTask -/

@[simp] theorem State.setTask_turns (s : State) (t : Nat) (x : Option Task) : (s.setTask t x).turns = s.turns := rfl
@[simp] theorem State.setTask_actor (s : State) (t : Nat) (x : Option Task) : (s.setTask t x).actor = s.actor := rfl
@[simp] theorem State.setTask_scratch (s : State) (t : Nat) (x : Option Task) : (s.setTask t x).scratch = s.scratch := rfl
@[simp] theorem State.setTask_free (s : State) (t : Nat) (x : Option Task) : (s.setTask t x).free = s.free := rfl
@[simp] theorem State.setTask_cycle (s : State) (t : Nat) (x : Option Task) : (s.setTask t x).cycle = s.cycle := rfl
@[simp] theorem State.setTask_seqs (s : State) (t : Nat) (x : Option Task) : (s.setTask t x).seqs = s.seqs := rfl
@[simp] theorem State.setTask_cores (s : State) (t : Nat) (x : Option Task) : (s.setTask t x).cores = s.cores := rfl
@[simp] theorem State.setTask_islands (s : State) (t : Nat) (x : Option Task) : (s.setTask t x).islands = s.islands := rfl
@[simp] theorem State.setTask_regions (s : State) (t : Nat) (x : Option Task) : (s.setTask t x).regions = s.regions := rfl
@[simp] theorem State.setTask_fifos (s : State) (t : Nat) (x : Option Task) : (s.setTask t x).fifos = s.fifos := rfl
@[simp] theorem State.setTask_transit (s : State) (t : Nat) (x : Option Task) : (s.setTask t x).transit = s.transit := rfl
@[simp] theorem State.setTask_mem (s : State) (t : Nat) (x : Option Task) : (s.setTask t x).mem = s.mem := rfl
@[simp] theorem State.setTask_streams (s : State) (t : Nat) (x : Option Task) : (s.setTask t x).streams = s.streams := rfl
@[simp] theorem State.setTask_sec (s : State) (t : Nat) (x : Option Task) : (s.setTask t x).sec = s.sec := rfl
@[simp] theorem State.setTask_host (s : State) (t : Nat) (x : Option Task) : (s.setTask t x).host = s.host := rfl
@[simp] theorem State.setTask_links (s : State) (t : Nat) (x : Option Task) : (s.setTask t x).links = s.links := rfl
@[simp] theorem State.setTask_mgmt (s : State) (t : Nat) (x : Option Task) : (s.setTask t x).mgmt = s.mgmt := rfl

/-! ### setPart -/

@[simp] theorem State.setPart_turns (s : State) (p : BitVec 7) (x : Part) : (s.setPart p x).turns = s.turns := rfl
@[simp] theorem State.setPart_actor (s : State) (p : BitVec 7) (x : Part) : (s.setPart p x).actor = s.actor := rfl
@[simp] theorem State.setPart_scratch (s : State) (p : BitVec 7) (x : Part) : (s.setPart p x).scratch = s.scratch := rfl
@[simp] theorem State.setPart_free (s : State) (p : BitVec 7) (x : Part) : (s.setPart p x).free = s.free := rfl
@[simp] theorem State.setPart_cycle (s : State) (p : BitVec 7) (x : Part) : (s.setPart p x).cycle = s.cycle := rfl
@[simp] theorem State.setPart_seqs (s : State) (p : BitVec 7) (x : Part) : (s.setPart p x).seqs = s.seqs := rfl
@[simp] theorem State.setPart_cores (s : State) (p : BitVec 7) (x : Part) : (s.setPart p x).cores = s.cores := rfl
@[simp] theorem State.setPart_islands (s : State) (p : BitVec 7) (x : Part) : (s.setPart p x).islands = s.islands := rfl
@[simp] theorem State.setPart_regions (s : State) (p : BitVec 7) (x : Part) : (s.setPart p x).regions = s.regions := rfl
@[simp] theorem State.setPart_fifos (s : State) (p : BitVec 7) (x : Part) : (s.setPart p x).fifos = s.fifos := rfl
@[simp] theorem State.setPart_transit (s : State) (p : BitVec 7) (x : Part) : (s.setPart p x).transit = s.transit := rfl
@[simp] theorem State.setPart_mem (s : State) (p : BitVec 7) (x : Part) : (s.setPart p x).mem = s.mem := rfl
@[simp] theorem State.setPart_streams (s : State) (p : BitVec 7) (x : Part) : (s.setPart p x).streams = s.streams := rfl
@[simp] theorem State.setPart_sec (s : State) (p : BitVec 7) (x : Part) : (s.setPart p x).sec = s.sec := rfl
@[simp] theorem State.setPart_host (s : State) (p : BitVec 7) (x : Part) : (s.setPart p x).host = s.host := rfl
@[simp] theorem State.setPart_links (s : State) (p : BitVec 7) (x : Part) : (s.setPart p x).links = s.links := rfl
@[simp] theorem State.setPart_mgmt (s : State) (p : BitVec 7) (x : Part) : (s.setPart p x).mgmt = s.mgmt := rfl

/-! ### setHandle -/

@[simp] theorem State.setHandle_turns (s : State) (h : BitVec 16) (x : Option KeyRec) : (s.setHandle h x).turns = s.turns := rfl
@[simp] theorem State.setHandle_actor (s : State) (h : BitVec 16) (x : Option KeyRec) : (s.setHandle h x).actor = s.actor := rfl
@[simp] theorem State.setHandle_scratch (s : State) (h : BitVec 16) (x : Option KeyRec) : (s.setHandle h x).scratch = s.scratch := rfl
@[simp] theorem State.setHandle_free (s : State) (h : BitVec 16) (x : Option KeyRec) : (s.setHandle h x).free = s.free := rfl
@[simp] theorem State.setHandle_cycle (s : State) (h : BitVec 16) (x : Option KeyRec) : (s.setHandle h x).cycle = s.cycle := rfl
@[simp] theorem State.setHandle_seqs (s : State) (h : BitVec 16) (x : Option KeyRec) : (s.setHandle h x).seqs = s.seqs := rfl
@[simp] theorem State.setHandle_cores (s : State) (h : BitVec 16) (x : Option KeyRec) : (s.setHandle h x).cores = s.cores := rfl
@[simp] theorem State.setHandle_islands (s : State) (h : BitVec 16) (x : Option KeyRec) : (s.setHandle h x).islands = s.islands := rfl
@[simp] theorem State.setHandle_regions (s : State) (h : BitVec 16) (x : Option KeyRec) : (s.setHandle h x).regions = s.regions := rfl
@[simp] theorem State.setHandle_fifos (s : State) (h : BitVec 16) (x : Option KeyRec) : (s.setHandle h x).fifos = s.fifos := rfl
@[simp] theorem State.setHandle_transit (s : State) (h : BitVec 16) (x : Option KeyRec) : (s.setHandle h x).transit = s.transit := rfl
@[simp] theorem State.setHandle_mem (s : State) (h : BitVec 16) (x : Option KeyRec) : (s.setHandle h x).mem = s.mem := rfl
@[simp] theorem State.setHandle_streams (s : State) (h : BitVec 16) (x : Option KeyRec) : (s.setHandle h x).streams = s.streams := rfl
@[simp] theorem State.setHandle_brass (s : State) (h : BitVec 16) (x : Option KeyRec) : (s.setHandle h x).brass = s.brass := rfl
@[simp] theorem State.setHandle_host (s : State) (h : BitVec 16) (x : Option KeyRec) : (s.setHandle h x).host = s.host := rfl
@[simp] theorem State.setHandle_links (s : State) (h : BitVec 16) (x : Option KeyRec) : (s.setHandle h x).links = s.links := rfl
@[simp] theorem State.setHandle_mgmt (s : State) (h : BitVec 16) (x : Option KeyRec) : (s.setHandle h x).mgmt = s.mgmt := rfl

/-! ### setBox -/

@[simp] theorem State.setBox_turns (s : State) (f : Nat) (x : Mailbox) : (s.setBox f x).turns = s.turns := rfl
@[simp] theorem State.setBox_actor (s : State) (f : Nat) (x : Mailbox) : (s.setBox f x).actor = s.actor := rfl
@[simp] theorem State.setBox_scratch (s : State) (f : Nat) (x : Mailbox) : (s.setBox f x).scratch = s.scratch := rfl
@[simp] theorem State.setBox_free (s : State) (f : Nat) (x : Mailbox) : (s.setBox f x).free = s.free := rfl
@[simp] theorem State.setBox_cycle (s : State) (f : Nat) (x : Mailbox) : (s.setBox f x).cycle = s.cycle := rfl
@[simp] theorem State.setBox_seqs (s : State) (f : Nat) (x : Mailbox) : (s.setBox f x).seqs = s.seqs := rfl
@[simp] theorem State.setBox_cores (s : State) (f : Nat) (x : Mailbox) : (s.setBox f x).cores = s.cores := rfl
@[simp] theorem State.setBox_islands (s : State) (f : Nat) (x : Mailbox) : (s.setBox f x).islands = s.islands := rfl
@[simp] theorem State.setBox_regions (s : State) (f : Nat) (x : Mailbox) : (s.setBox f x).regions = s.regions := rfl
@[simp] theorem State.setBox_fifos (s : State) (f : Nat) (x : Mailbox) : (s.setBox f x).fifos = s.fifos := rfl
@[simp] theorem State.setBox_transit (s : State) (f : Nat) (x : Mailbox) : (s.setBox f x).transit = s.transit := rfl
@[simp] theorem State.setBox_mem (s : State) (f : Nat) (x : Mailbox) : (s.setBox f x).mem = s.mem := rfl
@[simp] theorem State.setBox_streams (s : State) (f : Nat) (x : Mailbox) : (s.setBox f x).streams = s.streams := rfl
@[simp] theorem State.setBox_brass (s : State) (f : Nat) (x : Mailbox) : (s.setBox f x).brass = s.brass := rfl
@[simp] theorem State.setBox_host (s : State) (f : Nat) (x : Mailbox) : (s.setBox f x).host = s.host := rfl
@[simp] theorem State.setBox_links (s : State) (f : Nat) (x : Mailbox) : (s.setBox f x).links = s.links := rfl
@[simp] theorem State.setBox_mgmt (s : State) (f : Nat) (x : Mailbox) : (s.setBox f x).mgmt = s.mgmt := rfl

/-! ### setFn -/

@[simp] theorem State.setFn_turns (s : State) (f : Nat) (x : Fn) : (s.setFn f x).turns = s.turns := rfl
@[simp] theorem State.setFn_actor (s : State) (f : Nat) (x : Fn) : (s.setFn f x).actor = s.actor := rfl
@[simp] theorem State.setFn_scratch (s : State) (f : Nat) (x : Fn) : (s.setFn f x).scratch = s.scratch := rfl
@[simp] theorem State.setFn_free (s : State) (f : Nat) (x : Fn) : (s.setFn f x).free = s.free := rfl
@[simp] theorem State.setFn_cycle (s : State) (f : Nat) (x : Fn) : (s.setFn f x).cycle = s.cycle := rfl
@[simp] theorem State.setFn_seqs (s : State) (f : Nat) (x : Fn) : (s.setFn f x).seqs = s.seqs := rfl
@[simp] theorem State.setFn_cores (s : State) (f : Nat) (x : Fn) : (s.setFn f x).cores = s.cores := rfl
@[simp] theorem State.setFn_islands (s : State) (f : Nat) (x : Fn) : (s.setFn f x).islands = s.islands := rfl
@[simp] theorem State.setFn_regions (s : State) (f : Nat) (x : Fn) : (s.setFn f x).regions = s.regions := rfl
@[simp] theorem State.setFn_fifos (s : State) (f : Nat) (x : Fn) : (s.setFn f x).fifos = s.fifos := rfl
@[simp] theorem State.setFn_transit (s : State) (f : Nat) (x : Fn) : (s.setFn f x).transit = s.transit := rfl
@[simp] theorem State.setFn_mem (s : State) (f : Nat) (x : Fn) : (s.setFn f x).mem = s.mem := rfl
@[simp] theorem State.setFn_streams (s : State) (f : Nat) (x : Fn) : (s.setFn f x).streams = s.streams := rfl
@[simp] theorem State.setFn_brass (s : State) (f : Nat) (x : Fn) : (s.setFn f x).brass = s.brass := rfl
@[simp] theorem State.setFn_sec (s : State) (f : Nat) (x : Fn) : (s.setFn f x).sec = s.sec := rfl
@[simp] theorem State.setFn_links (s : State) (f : Nat) (x : Fn) : (s.setFn f x).links = s.links := rfl
@[simp] theorem State.setFn_mgmt (s : State) (f : Nat) (x : Fn) : (s.setFn f x).mgmt = s.mgmt := rfl

/-! ### setCouri -/

@[simp] theorem State.setCouri_turns (s : State) (n : Nat) (p : CouriPort) : (s.setCouri n p).turns = s.turns := rfl
@[simp] theorem State.setCouri_actor (s : State) (n : Nat) (p : CouriPort) : (s.setCouri n p).actor = s.actor := rfl
@[simp] theorem State.setCouri_scratch (s : State) (n : Nat) (p : CouriPort) : (s.setCouri n p).scratch = s.scratch := rfl
@[simp] theorem State.setCouri_free (s : State) (n : Nat) (p : CouriPort) : (s.setCouri n p).free = s.free := rfl
@[simp] theorem State.setCouri_cycle (s : State) (n : Nat) (p : CouriPort) : (s.setCouri n p).cycle = s.cycle := rfl
@[simp] theorem State.setCouri_seqs (s : State) (n : Nat) (p : CouriPort) : (s.setCouri n p).seqs = s.seqs := rfl
@[simp] theorem State.setCouri_cores (s : State) (n : Nat) (p : CouriPort) : (s.setCouri n p).cores = s.cores := rfl
@[simp] theorem State.setCouri_islands (s : State) (n : Nat) (p : CouriPort) : (s.setCouri n p).islands = s.islands := rfl
@[simp] theorem State.setCouri_regions (s : State) (n : Nat) (p : CouriPort) : (s.setCouri n p).regions = s.regions := rfl
@[simp] theorem State.setCouri_fifos (s : State) (n : Nat) (p : CouriPort) : (s.setCouri n p).fifos = s.fifos := rfl
@[simp] theorem State.setCouri_transit (s : State) (n : Nat) (p : CouriPort) : (s.setCouri n p).transit = s.transit := rfl
@[simp] theorem State.setCouri_mem (s : State) (n : Nat) (p : CouriPort) : (s.setCouri n p).mem = s.mem := rfl
@[simp] theorem State.setCouri_streams (s : State) (n : Nat) (p : CouriPort) : (s.setCouri n p).streams = s.streams := rfl
@[simp] theorem State.setCouri_brass (s : State) (n : Nat) (p : CouriPort) : (s.setCouri n p).brass = s.brass := rfl
@[simp] theorem State.setCouri_sec (s : State) (n : Nat) (p : CouriPort) : (s.setCouri n p).sec = s.sec := rfl
@[simp] theorem State.setCouri_host (s : State) (n : Nat) (p : CouriPort) : (s.setCouri n p).host = s.host := rfl
@[simp] theorem State.setCouri_mgmt (s : State) (n : Nat) (p : CouriPort) : (s.setCouri n p).mgmt = s.mgmt := rfl

/-! ### addFault -/

@[simp] theorem State.addFault_turns (s : State) (c : Nat) (mn : Bool) (kind : BitVec 8) (val : W64) : (s.addFault c mn kind val).turns = s.turns := rfl
@[simp] theorem State.addFault_actor (s : State) (c : Nat) (mn : Bool) (kind : BitVec 8) (val : W64) : (s.addFault c mn kind val).actor = s.actor := rfl
@[simp] theorem State.addFault_free (s : State) (c : Nat) (mn : Bool) (kind : BitVec 8) (val : W64) : (s.addFault c mn kind val).free = s.free := rfl
@[simp] theorem State.addFault_cycle (s : State) (c : Nat) (mn : Bool) (kind : BitVec 8) (val : W64) : (s.addFault c mn kind val).cycle = s.cycle := rfl
@[simp] theorem State.addFault_seqs (s : State) (c : Nat) (mn : Bool) (kind : BitVec 8) (val : W64) : (s.addFault c mn kind val).seqs = s.seqs := rfl
@[simp] theorem State.addFault_cores (s : State) (c : Nat) (mn : Bool) (kind : BitVec 8) (val : W64) : (s.addFault c mn kind val).cores = s.cores := rfl
@[simp] theorem State.addFault_islands (s : State) (c : Nat) (mn : Bool) (kind : BitVec 8) (val : W64) : (s.addFault c mn kind val).islands = s.islands := rfl
@[simp] theorem State.addFault_regions (s : State) (c : Nat) (mn : Bool) (kind : BitVec 8) (val : W64) : (s.addFault c mn kind val).regions = s.regions := rfl
@[simp] theorem State.addFault_fifos (s : State) (c : Nat) (mn : Bool) (kind : BitVec 8) (val : W64) : (s.addFault c mn kind val).fifos = s.fifos := rfl
@[simp] theorem State.addFault_transit (s : State) (c : Nat) (mn : Bool) (kind : BitVec 8) (val : W64) : (s.addFault c mn kind val).transit = s.transit := rfl
@[simp] theorem State.addFault_mem (s : State) (c : Nat) (mn : Bool) (kind : BitVec 8) (val : W64) : (s.addFault c mn kind val).mem = s.mem := rfl
@[simp] theorem State.addFault_streams (s : State) (c : Nat) (mn : Bool) (kind : BitVec 8) (val : W64) : (s.addFault c mn kind val).streams = s.streams := rfl
@[simp] theorem State.addFault_brass (s : State) (c : Nat) (mn : Bool) (kind : BitVec 8) (val : W64) : (s.addFault c mn kind val).brass = s.brass := rfl
@[simp] theorem State.addFault_sec (s : State) (c : Nat) (mn : Bool) (kind : BitVec 8) (val : W64) : (s.addFault c mn kind val).sec = s.sec := rfl
@[simp] theorem State.addFault_host (s : State) (c : Nat) (mn : Bool) (kind : BitVec 8) (val : W64) : (s.addFault c mn kind val).host = s.host := rfl
@[simp] theorem State.addFault_links (s : State) (c : Nat) (mn : Bool) (kind : BitVec 8) (val : W64) : (s.addFault c mn kind val).links = s.links := rfl
@[simp] theorem State.addFault_mgmt (s : State) (c : Nat) (mn : Bool) (kind : BitVec 8) (val : W64) : (s.addFault c mn kind val).mgmt = s.mgmt := rfl

/-! ### addStall -/

@[simp] theorem State.addStall_turns (s : State) (src : BitVec 2) : (s.addStall src).turns = s.turns := rfl
@[simp] theorem State.addStall_actor (s : State) (src : BitVec 2) : (s.addStall src).actor = s.actor := rfl
@[simp] theorem State.addStall_free (s : State) (src : BitVec 2) : (s.addStall src).free = s.free := rfl
@[simp] theorem State.addStall_cycle (s : State) (src : BitVec 2) : (s.addStall src).cycle = s.cycle := rfl
@[simp] theorem State.addStall_seqs (s : State) (src : BitVec 2) : (s.addStall src).seqs = s.seqs := rfl
@[simp] theorem State.addStall_cores (s : State) (src : BitVec 2) : (s.addStall src).cores = s.cores := rfl
@[simp] theorem State.addStall_islands (s : State) (src : BitVec 2) : (s.addStall src).islands = s.islands := rfl
@[simp] theorem State.addStall_regions (s : State) (src : BitVec 2) : (s.addStall src).regions = s.regions := rfl
@[simp] theorem State.addStall_fifos (s : State) (src : BitVec 2) : (s.addStall src).fifos = s.fifos := rfl
@[simp] theorem State.addStall_transit (s : State) (src : BitVec 2) : (s.addStall src).transit = s.transit := rfl
@[simp] theorem State.addStall_mem (s : State) (src : BitVec 2) : (s.addStall src).mem = s.mem := rfl
@[simp] theorem State.addStall_streams (s : State) (src : BitVec 2) : (s.addStall src).streams = s.streams := rfl
@[simp] theorem State.addStall_brass (s : State) (src : BitVec 2) : (s.addStall src).brass = s.brass := rfl
@[simp] theorem State.addStall_sec (s : State) (src : BitVec 2) : (s.addStall src).sec = s.sec := rfl
@[simp] theorem State.addStall_host (s : State) (src : BitVec 2) : (s.addStall src).host = s.host := rfl
@[simp] theorem State.addStall_links (s : State) (src : BitVec 2) : (s.addStall src).links = s.links := rfl
@[simp] theorem State.addStall_mgmt (s : State) (src : BitVec 2) : (s.addStall src).mgmt = s.mgmt := rfl

end Sys2Proof.Machine
end

