-- ==== Sys2Proof/Laws/Reads.lean ====
section
/-! SUPPORT. Reading a part of the state after an update of that part. -/

namespace Sys2Proof.Machine

theorem State.seq_setSeq (s : State) (n m : Nat) (q : Seq) : (s.setSeq n q).seq m = if n = m then q else s.seq m := look_put ..
theorem State.core_setCore (s : State) (c e : Nat) (k : Core) : (s.setCore c k).core e = if c = e then k else s.core e := look_put ..
theorem State.island_setIsland (s : State) (k m : Nat) (i : Island) : (s.setIsland k i).island m = if k = m then i else s.island m :=
  look_put ..
theorem State.region_setRegion (s : State) (k m : Nat) (r : Region) : (s.setRegion k r).region m = if k = m then r else s.region m :=
  look_put ..
theorem State.fifo_setFifo (s : State) (k m : Nat) (l : List Token) : (s.setFifo k l).fifo m = if k = m then l else s.fifo m := look_put ..
theorem State.port_setPort (s : State) (k m : Nat) (p : Port) : (s.setPort k p).port m = if k = m then p else s.port m := look_put ..
theorem State.binding_setBinding (s : State) (b m : Nat) (x : Option Binding) :
    (s.setBinding b x).binding m = if b = m then x else s.binding m := look_put ..
theorem State.queue_setQueue (s : State) (q m : Nat) (x : Queue) : (s.setQueue q x).queue m = if q = m then x else s.queue m := look_put ..
theorem State.task_setTask (s : State) (t m : Nat) (x : Option Task) : (s.setTask t x).task m = if t = m then x else s.task m :=
  look_put ..
theorem State.box_setBox (s : State) (f m : Nat) (x : Mailbox) : (s.setBox f x).box m = if f = m then x else s.box m := look_put ..
theorem State.fn_setFn (s : State) (f m : Nat) (x : Fn) : (s.setFn f x).fn m = if f = m then x else s.fn m := look_put ..
theorem State.couri_setCouri (s : State) (n m : Nat) (p : CouriPort) : (s.setCouri n p).couri m = if n = m then p else s.couri m :=
  look_put ..

theorem State.ve_setVe (s : State) (c e : Nat) (v : Ve) : (s.setVe c v).ve e = if c = e then v else s.ve e := by
  unfold State.ve State.setVe
  rw [State.core_setCore]
  split <;> simp_all

theorem State.mn_setMn (s : State) (c e : Nat) (m : Mn) : (s.setMn c m).mn e = if c = e then m else s.mn e := by
  unfold State.mn State.setMn
  rw [State.core_setCore]
  split <;> simp_all

theorem State.mn_setVe (s : State) (c e : Nat) (v : Ve) : (s.setVe c v).mn e = s.mn e := by
  unfold State.mn State.setVe
  rw [State.core_setCore]
  split <;> simp_all

theorem State.ve_setMn (s : State) (c e : Nat) (m : Mn) : (s.setMn c m).ve e = s.ve e := by
  unfold State.ve State.setMn
  rw [State.core_setCore]
  split <;> simp_all

@[simp] theorem State.seq_setSeq_same (s : State) (n : Nat) (q : Seq) : (s.setSeq n q).seq n = q := by simp [State.seq_setSeq]
@[simp] theorem State.ve_setVe_same (s : State) (c : Nat) (v : Ve) : (s.setVe c v).ve c = v := by simp [State.ve_setVe]
@[simp] theorem State.mn_setMn_same (s : State) (c : Nat) (m : Mn) : (s.setMn c m).mn c = m := by simp [State.mn_setMn]
@[simp] theorem State.island_setIsland_same (s : State) (k : Nat) (i : Island) : (s.setIsland k i).island k = i := by
  simp [State.island_setIsland]
@[simp] theorem State.mem_setMem (s : State) (m : Mem) : (s.setMem m).mem = m := rfl
@[simp] theorem State.brass_setBrass (s : State) (b : Brass) : (s.setBrass b).brass = b := rfl

/-! ### Registers of a sequencer (R62) -/

theorem Seq.get_set (q : Seq) (k m : BitVec 4) (v : W64) : (q.set k v).get m = if m = 0 then 0 else if k = m then v else q.get m := by
  unfold Seq.set Seq.get
  by_cases hm : m = 0
  · simp [hm]
  · by_cases hk : k = 0
    · subst hk
      have : ¬ (0 : BitVec 4) = m := fun h => hm h.symm
      rw [if_pos rfl, if_neg hm, if_neg hm, if_neg this]
    · simp only [hk, hm, if_false, look_put]
      have : (k.toNat = m.toNat) = (k = m) := propext ⟨BitVec.eq_of_toNat_eq, fun h => by rw [h]⟩
      simp [this]

@[simp] theorem Seq.get_zero (q : Seq) : q.get 0 = 0 := rfl
@[simp] theorem Seq.set_zero (q : Seq) (v : W64) : q.set 0 v = q := rfl

/-- R62, R124: P7 reads true, and a write to it is discarded. -/
@[simp] theorem predGet_seven (p : BitVec 8) : predGet p 7 = true := rfl
@[simp] theorem predSet_seven (p : BitVec 8) (v : Bool) : predSet p 7 v = p := rfl

theorem predGet_predSet (p : BitVec 8) (k m : BitVec 3) (v : Bool) :
    predGet (predSet p k v) m = if m = 7 then true else if k = m then v else predGet p m := by
  have h1 : ∀ i : Nat, (1#8 <<< k.toNat).getLsbD i = (decide (i < 8) && decide (i = k.toNat)) := by
    intro i
    have := k.isLt
    simp only [BitVec.getLsbD_shiftLeft, BitVec.getLsbD_one]
    by_cases h : i = k.toNat <;> by_cases h8 : i < 8 <;> simp [h, h8] <;> omega
  have hm := m.isLt
  have hk : (m.toNat = k.toNat) = (k = m) := propext ⟨fun h => BitVec.eq_of_toNat_eq h.symm, fun h => by rw [h]⟩
  unfold predSet predGet
  by_cases h7 : m = 7
  · simp [h7]
  · have b7 : (m == 7) = false := by simpa using h7
    rw [b7, if_neg h7]
    simp only [Bool.false_or]
    by_cases k7 : k = 7
    · subst k7
      have : ¬ ((7 : BitVec 3) = m) := fun h => h7 h.symm
      rw [if_pos rfl, if_neg this]
    · rw [if_neg k7]
      cases v
      · rw [if_neg (by decide), BitVec.getLsbD_and, BitVec.getLsbD_not, h1]
        by_cases e : k = m
        · simp [hk, e]
        · simp [hk, e, show m.toNat < 8 from hm]
      · rw [if_pos rfl, BitVec.getLsbD_or, h1]
        by_cases e : k = m
        · simp [hk, e, show m.toNat < 8 from hm]
        · simp [hk, e]

/-! ### The words' frame (R418) -/

/-- What a word does at a sequencer that accepts it and whose level may execute it. -/
theorem word_seq (i : Instr) (g : BitVec 8 → Bool) (f v m : Nat → State → State) (s : State) (n : Nat) (ha : s.actor = .seq n)
    (hw : i.wf (seqKind n) = true) (hg : g (s.seq n).preds = true) (hl : formLegality i = .supervisor → (s.seq n).super = true) :
    word i g f v m s = .next (f n s) := by
  unfold word
  rw [ha]
  simp only [hw, hg, if_true]
  by_cases h : formLegality i = .supervisor
  · simp [hl h]
  · simp [h]

theorem word_ve (i : Instr) (g : BitVec 8 → Bool) (f v m : Nat → State → State) (s : State) (c : Nat) (ha : s.actor = .ve c)
    (hw : i.wf .ve = true) (hg : g (s.ve c).preds = true) : word i g f v m s = .next (v c s) := by
  unfold word
  rw [ha]
  simp [hw, hg]

theorem word_mn (i : Instr) (g : BitVec 8 → Bool) (f v m : Nat → State → State) (s : State) (c : Nat) (ha : s.actor = .mn c)
    (hw : i.wf .mn = true) (hg : g (s.mn c).preds = true) : word i g f v m s = .next (m c s) := by
  unfold word
  rw [ha]
  simp [hw, hg]

/-- A word whose guard fails only moves a sequencer past it. -/
theorem word_seq_off (i : Instr) (g : BitVec 8 → Bool) (f v m : Nat → State → State) (s : State) (n : Nat) (ha : s.actor = .seq n)
    (hw : i.wf (seqKind n) = true) (hg : g (s.seq n).preds = false) : word i g f v m s = .next (s.seqNext n (s.seq n)) := by
  unfold word
  rw [ha]
  simp [hw, hg]

end Sys2Proof.Machine
end

