-- ==== Sys2Proof/Laws/Memory.lean ====
section
/-! SUPPORT. Memory: what a write changes and what it leaves, and that every memory operation keeps the canonical form. -/

namespace Sys2Proof.Machine

/-! ### Bytes -/

theorem Mem.byte_setByte (m : Mem) (a x : Nat) (v : Byte) : (m.setByte a v).byte x = if a = x then v else m.byte x := look_put ..

/-- A write leaves every byte outside it alone. -/
theorem Mem.byte_write_out (m : Mem) (a w x : Nat) (v : BitVec 512) (h : x < a ∨ a + w ≤ x) : (m.write a w v).byte x = m.byte x := by
  induction w generalizing m a v with
  | zero => rfl
  | succ w ih =>
    rw [Mem.write, ih _ _ _ (by omega), Mem.byte_setByte, if_neg (by omega)]

/-- A write puts byte `x - a` of its value at `x`. -/
theorem Mem.byte_write_in (m : Mem) (a w x : Nat) (v : BitVec 512) (h : a ≤ x) (h' : x < a + w) :
    (m.write a w v).byte x = (v >>> (8 * (x - a))).setWidth 8 := by
  induction w generalizing m a v with
  | zero => omega
  | succ w ih =>
    rw [Mem.write]
    by_cases e : a = x
    · subst e
      rw [Mem.byte_write_out _ _ _ _ _ (by omega), Mem.byte_setByte, if_pos rfl]
      simp
    · rw [ih _ _ _ (by omega) (by omega), ← BitVec.shiftRight_add]
      congr 2
      omega

/-- A read depends on the bytes it names alone. -/
theorem Mem.read_congr (m m' : Mem) (a w : Nat) (h : ∀ x, a ≤ x → x < a + w → m.byte x = m'.byte x) : m.read a w = m'.read a w := by
  induction w generalizing a with
  | zero => rfl
  | succ w ih =>
    rw [Mem.read, Mem.read, ih (a + 1) (fun x h1 h2 => h x (by omega) (by omega)), h a (by omega) (by omega)]

/-- The bits of a read: bit `k` of byte `j`. -/
theorem Mem.getLsbD_read (m : Mem) (a w i : Nat) (hw : w ≤ 64) :
    (m.read a w).getLsbD i = (decide (i < 8 * w) && (m.byte (a + i / 8)).getLsbD (i % 8)) := by
  induction w generalizing a i with
  | zero => simp [Mem.read]
  | succ w ih =>
    rw [Mem.read, BitVec.getLsbD_or, BitVec.getLsbD_shiftLeft, BitVec.getLsbD_setWidth]
    by_cases h8 : i < 8
    · have : i / 8 = 0 := by omega
      have : i % 8 = i := by omega
      have h512 : i < 512 := by omega
      have hw' : i < 8 * (w + 1) := by omega
      simp [*]
    · have e1 : (i - 8) / 8 = i / 8 - 1 := by omega
      have e2 : (i - 8) % 8 = i % 8 := by omega
      have e3 : a + 1 + (i / 8 - 1) = a + i / 8 := by omega
      have e4 : (m.byte a).getLsbD i = false := BitVec.getLsbD_of_ge _ _ (by omega)
      rw [ih (a + 1) (i - 8) (by omega), e1, e2, e3, e4]
      by_cases hi : i < 8 * (w + 1)
      · have h512 : i < 512 := by omega
        simp [hi, h512, h8]
        intro _
        omega
      · have : ¬ (i - 8 < 8 * w) := by omega
        simp [hi, this]

/-- R3: reading back what has been written gives its low bytes. -/
theorem Mem.read_write (m : Mem) (a w : Nat) (v : BitVec 512) (hw : w ≤ 64) :
    (m.write a w v).read a w = v &&& (BitVec.allOnes 512 >>> (512 - 8 * w)) := by
  apply BitVec.eq_of_getLsbD_eq
  intro i hi
  rw [Mem.getLsbD_read _ _ _ _ hw, BitVec.getLsbD_and, BitVec.getLsbD_ushiftRight, BitVec.getLsbD_allOnes]
  by_cases h : i < 8 * w
  · rw [Mem.byte_write_in _ _ _ _ _ (by omega) (by omega), BitVec.getLsbD_setWidth, BitVec.getLsbD_ushiftRight]
    have e : 8 * (a + i / 8 - a) + i % 8 = i := by omega
    have e2 : i % 8 < 8 := by omega
    have e3 : 512 - 8 * w + i < 512 := by omega
    rw [e]
    simp [h, e2, e3]
  · have : ¬ (512 - 8 * w + i < 512) := by omega
    simp [h, this]

/-- A read that a write does not meet gives what it gave before. -/
theorem Mem.read_write_out (m : Mem) (a w b n : Nat) (v : BitVec 512) (h : b + n ≤ a ∨ a + w ≤ b) :
    (m.write a w v).read b n = m.read b n :=
  Mem.read_congr _ _ _ _ fun x h1 h2 => Mem.byte_write_out _ _ _ _ _ (by omega)

/-! ### Versions -/

@[simp] theorem Mem.ver_setVer_same (m : Mem) (l : Nat) (v : BitVec 16) : (m.setVer l v).ver l = v := look_put_same ..

theorem Mem.ver_setVer (m : Mem) (l k : Nat) (v : BitVec 16) : (m.setVer l v).ver k = if l = k then v else m.ver k := look_put ..

@[simp] theorem Mem.bytes_setVer (m : Mem) (l : Nat) (v : BitVec 16) : (m.setVer l v).bytes = m.bytes := rfl

/-! ### Bytes that operations on waits, versions and poison leave alone -/

@[simp] theorem Mem.bytes_satisfy (m : Mem) (l : Nat) : (m.satisfy l).bytes = m.bytes := rfl

/-- R320: a doorbell that rings changes its tail word alone. -/
theorem Mem.rest_ring (m : Mem) (l : Nat) : m.ring l = { m with bells := (m.ring l).bells } := by
  unfold Mem.ring
  split
  · dsimp only
    split <;> rfl
  · rfl

@[simp] theorem Mem.bytes_ring (m : Mem) (l : Nat) : (m.ring l).bytes = m.bytes := by rw [Mem.rest_ring]
@[simp] theorem Mem.vers_ring (m : Mem) (l : Nat) : (m.ring l).vers = m.vers := by rw [Mem.rest_ring]
@[simp] theorem Mem.bad_ring (m : Mem) (l : Nat) : (m.ring l).bad = m.bad := by rw [Mem.rest_ring]

/-- After a write only what waits on its line changes, and its doorbell. -/
theorem Mem.rest_afterWrite (m : Mem) (l : Nat) :
    m.afterWrite l = { m with staged := (m.afterWrite l).staged, due := (m.afterWrite l).due, chain := (m.afterWrite l).chain,
                              bells := (m.afterWrite l).bells } := by
  have h := Mem.rest_ring m l
  unfold Mem.afterWrite
  dsimp only
  split <;> (rw [h]; rfl)

@[simp] theorem Mem.bytes_afterWrite (m : Mem) (l : Nat) : (m.afterWrite l).bytes = m.bytes := by rw [Mem.rest_afterWrite]
@[simp] theorem Mem.vers_afterWrite (m : Mem) (l : Nat) : (m.afterWrite l).vers = m.vers := by rw [Mem.rest_afterWrite]
@[simp] theorem Mem.bad_afterWrite (m : Mem) (l : Nat) : (m.afterWrite l).bad = m.bad := by rw [Mem.rest_afterWrite]

@[simp] theorem Mem.bytes_report (m : Mem) (e : ErrEntry) : (m.report e).bytes = m.bytes := by unfold Mem.report; split <;> rfl

@[simp] theorem Mem.bytes_poisonWaits (m : Mem) (l : Nat) : (m.poisonWaits l).bytes = m.bytes := rfl

@[simp] theorem Mem.bytes_poisonLine (m : Mem) (l : Nat) : (m.poisonLine l).bytes = m.bytes := rfl

@[simp] theorem Mem.bytes_poisonBlock (m : Mem) (b : Nat) : (m.poisonBlock b).bytes = m.bytes := by
  suffices ∀ (l : List Nat) (x : Mem), (l.foldl (fun x k => x.poisonWaits (8 * b + k)) x).bytes = x.bytes from this _ _
  intro l
  induction l with
  | nil => intro x; rfl
  | cons k l ih => intro x; rw [List.foldl_cons, ih]; rfl

@[simp] theorem Mem.bytes_reclaim (m : Mem) (l : Nat) (b : BitVec 16) : (m.reclaim l b).1.bytes = m.bytes := rfl

/-! ### The canonical form is kept -/

/-- Canonical bytes stay so under anything that leaves them alone. -/
theorem Mem.wf_congr {m m' : Mem} (e : m'.bytes = m.bytes) (h : m.wf) : m'.wf := by unfold Mem.wf; rw [e]; exact h

theorem Mem.wf_setByte (m : Mem) (a : Nat) (v : Byte) (h : m.wf) : (m.setByte a v).wf := wf_put _ _ _ _ h

theorem Mem.wf_write (m : Mem) (a w : Nat) (v : BitVec 512) (h : m.wf) : (m.write a w v).wf := by
  induction w generalizing m a v with
  | zero => exact h
  | succ w ih => exact ih _ _ _ (Mem.wf_setByte _ _ _ h)

theorem Mem.bytes_plainWrite (m : Mem) (a w : Nat) (v : BitVec 512) (ver : Bool) (f : BitVec 16) :
    (m.plainWrite a w v ver f).bytes = (m.write a w v).bytes := by
  unfold Mem.plainWrite
  dsimp only
  split
  · simp
  · split <;> simp

theorem Mem.bytes_versionedWrite (m : Mem) (a w : Nat) (v : BitVec 512) (n : BitVec 16) :
    (m.versionedWrite a w v n).bytes = (m.write a w v).bytes := by simp [Mem.versionedWrite]

theorem Mem.wf_plainWrite (m : Mem) (a w : Nat) (v : BitVec 512) (ver : Bool) (f : BitVec 16) (h : m.wf) :
    (m.plainWrite a w v ver f).wf := Mem.wf_congr (Mem.bytes_plainWrite ..) (Mem.wf_write _ _ _ _ h)

theorem Mem.wf_versionedWrite (m : Mem) (a w : Nat) (v : BitVec 512) (n : BitVec 16) (h : m.wf) : (m.versionedWrite a w v n).wf :=
  Mem.wf_congr (Mem.bytes_versionedWrite ..) (Mem.wf_write _ _ _ _ h)

theorem Mem.wf_chainStep (m : Mem) (l : Nat) (h : m.wf) : (m.chainStep l).wf := by
  unfold Mem.chainStep
  split
  · split
    · exact Mem.wf_versionedWrite _ _ _ _ _ h
    · exact h
  · exact h

/-- What every step of a fold keeps, the fold keeps. -/
theorem foldl_keeps {α β : Type} (p : β → Prop) (f : β → α → β) (hf : ∀ b a, p b → p (f b a)) (l : List α) (b : β) (h : p b) :
    p (l.foldl f b) := by
  induction l generalizing b with
  | nil => exact h
  | cons a l ih => exact ih _ (hf _ _ h)

theorem Mem.wf_settleChain (m : Mem) (l : Nat) (h : m.wf) : (m.settleChain l).wf := by
  unfold Mem.settleChain
  split
  · exact foldl_keeps _ _ (fun b _ hb => Mem.wf_chainStep b l hb) _ _ h
  · exact h

theorem Mem.wf_poisonLine (m : Mem) (l : Nat) (h : m.wf) : (m.poisonLine l).wf := Mem.wf_congr (Mem.bytes_poisonLine ..) h

theorem Mem.wf_poisonBlock (m : Mem) (b : Nat) (h : m.wf) : (m.poisonBlock b).wf := Mem.wf_congr (Mem.bytes_poisonBlock ..) h

theorem Mem.wf_reclaim (m : Mem) (l : Nat) (b : BitVec 16) (h : m.wf) : (m.reclaim l b).1.wf := Mem.wf_congr (Mem.bytes_reclaim ..) h

theorem Mem.wf_filter (m : Mem) (p : Nat × Byte → Bool) (h : m.wf) : ({ m with bytes := m.bytes.filter p } : Mem).wf :=
  Sys2Proof.Machine.wf_filter _ _ _ h

end Sys2Proof.Machine
end

