-- ==== Sys2Proof/Laws/Lanes.lean ====
section
/-! SUPPORT. Reading a lane of a value that was put together from lanes. -/

namespace Sys2Proof.Machine

theorem assemble_lt (w : Nat) (f : Nat → Nat) (n : Nat) : assemble w f n < 2 ^ (w * n) := by
  induction n with
  | zero => simp [assemble]
  | succ n ih =>
    have h : f n % 2 ^ w < 2 ^ w := Nat.mod_lt _ (Nat.two_pow_pos w)
    have e : 2 ^ (w * (n + 1)) = 2 ^ w * 2 ^ (w * n) := by rw [← Nat.pow_add]; congr 1; rw [Nat.mul_succ]; omega
    rw [assemble, e]
    have : f n % 2 ^ w * 2 ^ (w * n) + 2 ^ (w * n) ≤ 2 ^ w * 2 ^ (w * n) := by
      rw [← Nat.succ_mul]
      exact Nat.mul_le_mul_right _ h
    omega

theorem assemble_div_mod (w : Nat) (f : Nat → Nat) (n k : Nat) (h : k < n) :
    assemble w f n / 2 ^ (w * k) % 2 ^ w = f k % 2 ^ w := by
  induction n with
  | zero => omega
  | succ n ih =>
    rw [assemble]
    by_cases e : k = n
    · subst e
      rw [Nat.add_mul_div_right _ _ (Nat.two_pow_pos _), Nat.div_eq_of_lt (assemble_lt w f k), Nat.zero_add]
      exact Nat.mod_eq_of_lt (Nat.mod_lt _ (Nat.two_pow_pos w))
    · have hk : k < n := by omega
      obtain ⟨m, hm⟩ : ∃ m, w * n = w * k + w + m := by
        refine ⟨w * (n - k - 1), ?_⟩
        have h1 : n = k + 1 + (n - k - 1) := by omega
        generalize n - k - 1 = q at h1 ⊢
        subst h1
        rw [Nat.mul_add, Nat.mul_add, Nat.mul_one]
      have e2 : f n % 2 ^ w * 2 ^ (w * n) = f n % 2 ^ w * 2 ^ m * 2 ^ w * 2 ^ (w * k) := by
        rw [hm, Nat.pow_add, Nat.pow_add]
        simp only [Nat.mul_comm, Nat.mul_left_comm, Nat.mul_assoc]
      rw [e2, Nat.add_mul_div_right _ _ (Nat.two_pow_pos _), Nat.add_mul_mod_self_right]
      exact ih hk

/-- R145: a lane of a value put together from lanes. -/
theorem lane_ofLanes (N w : Nat) (f : Nat → Nat) (k : Nat) (h : k < N / w) : lane (ofLanes N w f) w k = BitVec.ofNat w (f k) := by
  apply BitVec.eq_of_toNat_eq
  unfold lane ofLanes
  have hN : w * (N / w) ≤ N := Nat.mul_div_le N w
  have hlt : assemble w f (N / w) < 2 ^ N := Nat.lt_of_lt_of_le (assemble_lt w f _) (Nat.pow_le_pow_right (by decide) hN)
  rw [BitVec.extractLsb'_toNat, BitVec.toNat_ofNat, BitVec.toNat_ofNat, Nat.mod_eq_of_lt hlt, Nat.shiftRight_eq_div_pow]
  exact assemble_div_mod w f _ k h

theorem lane_mapLanes {N : Nat} (w : Nat) (op : BitVec w → BitVec w → BitVec w) (x y : BitVec N) (k : Nat) (h : k < N / w) :
    lane (mapLanes w op x y) w k = op (lane x w k) (lane y w k) := by
  rw [mapLanes, lane_ofLanes _ _ _ _ h]
  simp

end Sys2Proof.Machine
end

