-- ==== Sys2Proof/Laws/Rows.lean ====
section
/-! SUPPORT. What a row of a VE does when it finds its operands, and what a word does at an executor that runs it. -/

namespace Sys2Proof.Machine

/-! ### The frame of a word -/

theorem SeqRuns.word {i : Instr} {g : BitVec 8 → Bool} {s : State} {n : Nat} (h : SeqRuns i g s n) (f v m : Nat → State → State) :
    Sys2Proof.Machine.word i g f v m s = .next (f n s) := word_seq i g f v m s n h.turn h.legal h.guard h.level

theorem VeRuns.word {i : Instr} {g : BitVec 8 → Bool} {s : State} {c : Nat} (h : VeRuns i g s c) (f v m : Nat → State → State) :
    Sys2Proof.Machine.word i g f v m s = .next (v c s) := word_ve i g f v m s c h.turn h.legal h.guard

theorem MnRuns.word {i : Instr} {g : BitVec 8 → Bool} {s : State} {c : Nat} (h : MnRuns i g s c) (f v m : Nat → State → State) :
    Sys2Proof.Machine.word i g f v m s = .next (m c s) := word_mn i g f v m s c h.turn h.legal h.guard

/-- Moving a sequencer past its word changes that sequencer alone. -/
theorem seqBecomes_seqNext (s : State) (n : Nat) (q : Seq) : SeqBecomes s (s.seqNext n q) n q.step where
  seq := by simp [State.seqNext]
  others m h := by simp [State.seqNext, State.seq_setSeq, h.symm]
  rest := rfl

theorem seqBecomes_setSeq (s : State) (n : Nat) (q : Seq) : SeqBecomes s (s.setSeq n q) n q where
  seq := by simp
  others m h := by simp [State.seq_setSeq, h.symm]
  rest := rfl

theorem SeqBecomes.trans {s t u : State} {n : Nat} {q r : Seq} (h : SeqBecomes s t n q) (k : SeqBecomes t u n r) : SeqBecomes s u n r where
  seq := k.seq
  others m e := (k.others m e).trans (h.others m e)
  rest := by rw [k.rest, h.rest]

theorem veBecomes_setVe (s : State) (c : Nat) (v : Ve) : VeBecomes s (s.setVe c v) c v where
  core := by simp [State.setVe, State.core_setCore]
  others e h := by simp [State.setVe, State.core_setCore, h.symm]
  rest := rfl

theorem mnBecomes_setMn (s : State) (c : Nat) (m : Mn) : MnBecomes s (s.setMn c m) c m where
  core := by simp [State.setMn, State.core_setCore]
  others e h := by simp [State.setMn, State.core_setCore, h.symm]
  rest := rfl

/-! ### Reads -/

theorem settle_got (s : State) (c : Nat) (ops : List Operand) : s.settle c (ops.map .got) false = .inr ops := by
  have h : ∀ l : List Operand, l.findSome? (fun _ => (none : Option (BitVec 8))) = none := by intro l; induction l <;> simp_all
  unfold State.settle
  simp [h, List.filterMap_map, List.findSome?_map, Function.comp_def]

/-- A row that finds its operands consumes them and runs its body. -/
theorem Finds.fires {s : State} {c : Nat} {reads : List Read} {r : BitVec 4} {ops : List Operand} (h : Finds s c reads r ops)
    (onM : Token → List Operand → State → State) (body : List Operand → State → State) :
    s.veFireReads c reads r onM body = body ops (s.consume c ops) := by
  have hm : checkMarkers (s.ve c) ops = .data := by
    have : ((ops.filter (·.real)).map (·.tok)).find? isMarker = none := by
      rw [List.find?_eq_none]
      intro t ht
      obtain ⟨o, ho, rfl⟩ := List.mem_map.1 ht
      obtain ⟨ho, hr⟩ := List.mem_filter.1 ho
      simp [h.data o ho hr]
    unfold checkMarkers
    simp [this]
  have ht : s.checkTags c ops = none := by
    have : ops.filter (mustSteer (s.veRow c).tags) = [] := by
      rw [List.filter_eq_nil_iff]
      intro o ho
      unfold mustSteer
      by_cases hr : o.real = true
      · have := h.tags o ho hr
        simp only [this]
        simp
      · simp [hr]
    unfold State.checkTags
    simp [this]
  unfold State.veFireReads
  rw [h.got, h.room, settle_got]
  simp [hm, ht]

/-- The same for a row that names its operands by selectors. -/
theorem Finds.fire {s : State} {c : Nat} {sels : List (BitVec 4)} {r : BitVec 4} {ops : List Operand}
    (h : Finds s c (sels.map (s.readSel c)) r ops) (d : BitVec 4) (discard : Bool) (body : List Operand → State → State) :
    s.veFire c sels d r discard body = body ops (s.consume c ops) := by
  unfold State.veFire
  exact h.fires _ _

/-- The same for a row whose result is computed from its operands. -/
theorem Finds.result {s : State} {c : Nat} {sels : List (BitVec 4)} {r : BitVec 4} {ops : List Operand}
    (h : Finds s c (sels.map (s.readSel c)) r ops) (d : BitVec 4) (f : List Operand → BitVec 512 × BitVec 3) :
    s.veResult c sels d r f =
      (s.consume c ops).emit c d r { data := (f ops).1, tag := (f ops).2, rnd := resultRound (s.ve c) ops } := by
  unfold State.veResult
  exact h.fire _ _ _

/-- Operands that a row finds are no markers. -/
theorem Finds.data_only {s : State} {c : Nat} {reads : List Read} {r : BitVec 4} {ops : List Operand} (h : Finds s c reads r ops) :
    allMarkers reads = false := by
  unfold allMarkers
  rw [h.got]
  simp only [List.filterMap_map]
  generalize ht : List.filterMap _ ops = l
  cases l with
  | nil => rfl
  | cons t l =>
    have hm : t ∈ List.filterMap _ ops := ht ▸ List.mem_cons_self
    obtain ⟨o, ho, he⟩ := List.mem_filterMap.1 hm
    simp only [Function.comp_apply] at he
    by_cases hr : o.real = true
    · rw [if_pos hr, Option.some.injEq] at he
      subst he
      simp [h.data o ho hr]
    · rw [if_neg hr] at he
      cases he

/-- R226: a release whose accesses have been performed at its scope changes nothing. -/
@[simp] theorem release_quiet {s : State} {a : Actor} {k : Nat} (h : s.quiet a k = true) : s.release a k = s := if_pos h

/-- A memory row that need not wait has nothing to release. -/
theorem veRelease_mayIssue {s : State} {c : Nat} {o : BitVec 2} {sc : BitVec 3} (h : s.veMayIssue c o sc) : s.veRelease c o sc = s := by
  unfold State.veRelease
  split
  · rename_i ho
    apply release_quiet
    unfold State.veMayIssue State.veMustWait at h
    simp only [ho, Bool.true_and, Bool.or_eq_false_iff, Bool.not_eq_false'] at h
    exact h.2
  · rfl

/-- A memory row that finds its operands and need not wait issues its plan. -/
theorem Finds.memory {s : State} {c : Nat} {reads : List Read} {ops : List Operand} {o : BitVec 2} {sc : BitVec 3}
    (h : Finds s c reads 0 ops) (hm : s.veMayIssue c o sc) (reply : Bool) (plan : List Operand → VePlan) :
    s.veMemory c reads o sc reply false plan = (s.consume c ops).veIssue c o sc reply (resultRound (s.ve c) ops) (plan ops) := by
  unfold State.veMemory
  rw [h.data_only]
  have : s.veMustWait c true o sc = false := hm
  simp only [Bool.false_eq_true, if_false, veRelease_mayIssue hm, this, Bool.or_false]
  rw [h.fires]

theorem entry_above (l : List Entry) (k : Nat) :
    k ≤ l.foldl (fun m e => Nat.max m (e.num + 1)) k ∧ ∀ y ∈ l, y.num < l.foldl (fun m e => Nat.max m (e.num + 1)) k := by
  induction l generalizing k with
  | nil => simp
  | cons a l ih =>
    simp only [List.foldl_cons]
    have h := ih (Nat.max k (a.num + 1))
    have h1 : k ≤ Nat.max k (a.num + 1) := Nat.le_max_left _ _
    have h2 : a.num + 1 ≤ Nat.max k (a.num + 1) := Nat.le_max_right _ _
    refine ⟨by omega, fun y hy => ?_⟩
    rcases List.mem_cons.1 hy with rfl | hy
    · omega
    · exact h.2 y hy

/-- Everything that issuing a plan does. -/
theorem issues_veIssue (s : State) (c : Nat) (o : BitVec 2) (sc : BitVec 3) (reply : Bool) (rnd : BitVec 8) (p : VePlan) :
    ∃ e r, s.veIssue c o sc reply rnd p = s.issues c e r ∧ e.wantsX = reply ∧ e.acquire = o.getLsbD 0 ∧ e.link = p.link ∧
      e.left = p.accs.length ∧ e.tok = ⟨0, 0, rnd⟩ ∧ (∀ y ∈ (s.ve c).replies, y.num < e.num) ∧
      r.map (fun q => (q.ea, q.op, q.elem)) = p.accs ∧
      ∀ q ∈ r, q.iss = s.veIssuer c ∧ q.entry = some e.num ∧ q.ord = o ∧ q.scope = sc := by
  refine ⟨_, _, rfl, rfl, rfl, rfl, rfl, rfl, (entry_above _ 0).2, ?_, ?_⟩
  · simp [Function.comp_def]
  · intro q hq
    obtain ⟨x, -, rfl⟩ := List.mem_map.1 hq
    exact ⟨rfl, rfl, rfl, rfl⟩

/-- A row without operands finds them, when no route is full. -/
theorem finds_none (s : State) (c : Nat) (r : BitVec 4) (h : s.routeStall c r = false) : Finds s c [] r [] where
  got := rfl
  room := h
  data := by simp
  tags := by simp

theorem routeStall_zero (s : State) (c : Nat) : s.routeStall c 0 = false := by simp [State.routeStall, routeDirs]

@[simp] theorem consume_nil (s : State) (c : Nat) : s.consume c [] = s := rfl

end Sys2Proof.Machine
end

