-- ==== Sys2Proof/Laws/Accesses.lean ====
section
/-! SUPPORT. What an access of a sequencer does when its home is reached at once, and what a plain write leaves. -/

namespace Sys2Proof.Machine

/-! ### A plain write at its home -/

@[simp] theorem setMem_self (s : State) : s.setMem s.mem = s := rfl

@[simp] theorem Mem.settleChain_self (m : Mem) (l : Nat) (h : m.chain.contains l = false) : m.settleChain l = m := by
  unfold Mem.settleChain
  rw [h]
  rfl

theorem Mem.rest_write (m : Mem) (a w : Nat) (v : BitVec 512) : m.write a w v = { m with bytes := (m.write a w v).bytes } := by
  induction w generalizing m a v with
  | zero => rfl
  | succ w ih => rw [Mem.write, ih]; rfl

@[simp] theorem Mem.vers_write (m : Mem) (a w : Nat) (v : BitVec 512) : (m.write a w v).vers = m.vers := by rw [Mem.rest_write]

@[simp] theorem Mem.bad_write (m : Mem) (a w : Nat) (v : BitVec 512) : (m.write a w v).bad = m.bad := by rw [Mem.rest_write]

theorem Mem.byte_bytes {m m' : Mem} (h : m.bytes = m'.bytes) (x : Nat) : m.byte x = m'.byte x := by unfold Mem.byte; rw [h]

theorem Mem.ver_vers {m m' : Mem} (h : m.vers = m'.vers) (l : Nat) : m.ver l = m'.ver l := by unfold Mem.ver; rw [h]

/-- R81: the version of the line written, and of the others. -/
theorem Mem.ver_plainWrite (m : Mem) (a w : Nat) (v : BitVec 512) (f : BitVec 16)
    (h : inHbm a = true ∨ look false m.bad (lineOf a) = false) : (m.plainWrite a w v true f).ver (lineOf a) = m.ver (lineOf a) + 1 := by
  have e : (!inHbm a && look false m.bad (lineOf a)) = false := by rcases h with h | h <;> simp [h]
  unfold Mem.plainWrite
  dsimp only
  rw [e, if_neg (by decide), if_pos rfl, Mem.ver_vers (Mem.vers_afterWrite _ _), Mem.ver_setVer_same]

theorem Mem.ver_plainWrite_other (m : Mem) (a w : Nat) (v : BitVec 512) (b : Bool) (f : BitVec 16) (l : Nat) (h : l ≠ lineOf a) :
    (m.plainWrite a w v b f).ver l = m.ver l := by
  unfold Mem.plainWrite
  dsimp only
  split
  · rw [Mem.ver_vers (Mem.vers_afterWrite _ _), Mem.ver_setVer, if_neg h.symm]
    exact Mem.ver_vers (Mem.vers_write _ _ _ _) l
  · split
    · rw [Mem.ver_vers (Mem.vers_afterWrite _ _), Mem.ver_setVer, if_neg h.symm]
      exact Mem.ver_vers (Mem.vers_write _ _ _ _) l
    · rw [Mem.ver_vers (Mem.vers_ring _ _), Mem.ver_setVer, if_neg h.symm]
      exact Mem.ver_vers (Mem.vers_write _ _ _ _) l

theorem Mem.rest_plainWrite (m : Mem) (a w : Nat) (v : BitVec 512) (b : Bool) (f : BitVec 16) :
    ∃ m', m' = m.plainWrite a w v b f ∧
      m' = { m with bytes := m'.bytes, vers := m'.vers, bad := m'.bad, staged := m'.staged, due := m'.due, chain := m'.chain,
                    bells := m'.bells } := by
  refine ⟨_, rfl, ?_⟩
  unfold Mem.plainWrite
  dsimp only
  split
  · rw [Mem.rest_afterWrite, Mem.rest_write]
    rfl
  · split
    · rw [Mem.rest_afterWrite, Mem.rest_write]
      rfl
    · rw [Mem.rest_ring, Mem.rest_write]
      rfl

/-! ### Versions that R79 leaves undefined -/

theorem giveVersions_succ (s : State) (f k : Nat) :
    s.giveVersions f (k + 1) =
      { s.giveVersions f k with
        free := (s.giveVersions f k).free + 1
        mem := (s.giveVersions f k).mem.setVer (512 * f + k) (Config.freeVersion (s.giveVersions f k).free) } := by
  unfold State.giveVersions
  rw [List.range_succ, List.foldl_append]
  rfl

/-- Giving versions to lines changes nothing else. -/
theorem rest_giveVersions (s : State) (f k : Nat) :
    s.giveVersions f k = { s with free := s.free + k, mem := { s.mem with vers := (s.giveVersions f k).mem.vers } } := by
  induction k with
  | zero => rfl
  | succ k ih => rw [giveVersions_succ, ih]; rfl

theorem ver_giveVersions (s : State) (f k l : Nat) (hk : k ≤ 512) :
    (s.giveVersions f k).mem.ver l = if l / 512 = f ∧ l % 512 < k then Config.freeVersion (s.free + l % 512) else s.mem.ver l := by
  induction k with
  | zero => simp [State.giveVersions]
  | succ k ih =>
    have hf : (s.giveVersions f k).free = s.free + k := by rw [rest_giveVersions]
    rw [giveVersions_succ]
    show ((s.giveVersions f k).mem.setVer _ _).ver l = _
    rw [Mem.ver_setVer, hf, ih (by omega)]
    by_cases h : 512 * f + k = l
    · rw [if_pos h, if_pos ⟨by omega, by omega⟩, show l % 512 = k by omega]
    · rw [if_neg h]
      by_cases h1 : l / 512 = f ∧ l % 512 < k
      · rw [if_pos h1, if_pos ⟨h1.1, by omega⟩]
      · rw [if_neg h1, if_neg (by omega)]

/-- An access notes versions alone. -/
theorem rest_noteVersions (s : State) (t : Target) :
    s.noteVersions t = { s with free := (s.noteVersions t).free,
                                mem := { s.mem with vers := (s.noteVersions t).mem.vers, unver := (s.noteVersions t).mem.unver } } := by
  unfold State.noteVersions
  dsimp only
  split
  · rfl
  · split
    · rfl
    · split
      · rw [rest_giveVersions]
      · rfl

/-- The versions of a frame that stand are left alone, and those of every other frame. -/
theorem ver_noteVersions (s : State) (t : Target) (l : Nat) (h : s.versionsStand t ∨ l / 512 ≠ frameOf t.la) :
    (s.noteVersions t).mem.ver l = s.mem.ver l := by
  unfold State.noteVersions
  dsimp only
  split
  · rfl
  · rename_i h1
    split
    · rfl
    · rename_i h2
      split
      · rename_i h3
        have hs : l / 512 ≠ frameOf t.la := by
          rcases h with h | h
          · rw [h (by simpa using h1) (by simpa using h2)] at h3
            cases h3
          · exact h
        rw [ver_giveVersions _ _ _ _ (by omega), if_neg (fun e => hs e.1)]
        rfl
      · rfl

theorem foundVer_noteVersions (s : State) (t : Target) : (s.noteVersions t).mem.ver (lineOf t.la) = s.foundVer t := by
  by_cases h1 : inHbm t.la = true <;> by_cases h2 : t.ver = true <;> by_cases h3 : look false s.mem.unver (frameOf t.la) = true
  case pos =>
    have hf : lineOf t.la / 512 = frameOf t.la := by unfold lineOf frameOf; omega
    unfold State.noteVersions State.foundVer
    simp only [h1, h2, h3, Bool.not_true, Bool.false_eq_true, if_false, if_true, Bool.and_self]
    rw [ver_giveVersions _ _ _ _ (by omega), if_pos ⟨hf, by omega⟩]
  all_goals
    rw [ver_noteVersions s t _ (.inl (by unfold State.versionsStand; simp_all))]
    unfold State.foundVer
    simp_all

/-- Once noted, the versions of a frame stand. -/
theorem versionsStand_noteVersions (s : State) (t : Target) : (s.noteVersions t).versionsStand t := by
  intro h1 h2
  unfold State.noteVersions
  simp only [h1, h2, Bool.not_true, Bool.false_eq_true, if_false]
  split
  · rw [rest_giveVersions]
    exact look_put_same false s.mem.unver (frameOf t.la) false
  · rename_i h
    simpa using h

/-- The version that an access finds, where the frame's versions stand. -/
theorem foundVer_stands {s : State} {t : Target} (h : s.versionsStand t) : s.foundVer t = s.mem.ver (lineOf t.la) := by
  rw [← foundVer_noteVersions, ver_noteVersions s t _ (.inl h)]

/-- What an access does after the versions are noted, it does. -/
theorem Stores.noted {s u : State} {n : Nat} {q : Seq} {t : Target} {w : Nat} {v : BitVec 512}
    (h : Stores (s.noteVersions t) u n q t w v) : Stores s u n q t w v := by
  have e := rest_noteVersions s t
  have hs := versionsStand_noteVersions s t
  constructor
  · exact h.seq
  · intro m hm
    rw [h.others m hm, e]
    rfl
  · refine ⟨h.bytes.inside, fun x hx => ?_⟩
    rw [h.bytes.outside x hx, e]
    rfl
  · intro hv hb
    rw [h.version hv (by rw [e]; exact hb), foundVer_stands hs, foundVer_noteVersions]
  · intro l hl hk
    rw [h.lines l hl (.inl hs), ver_noteVersions s t l hk]
  · rw [h.mem, e]
  · rw [h.rest, e]

theorem Reads.noted {s u : State} {n : Nat} {q : Seq} {t : Target} {b : Bool} (h : Reads (s.noteVersions t) u n q t b) :
    Reads s u n q t b := by
  have e := rest_noteVersions s t
  have hs := versionsStand_noteVersions s t
  constructor
  · exact h.seq
  · intro m hm
    rw [h.others m hm, e]
    rfl
  · rw [h.found, foundVer_stands hs, foundVer_noteVersions]
  · intro l hk
    rw [h.lines l (.inl hs), ver_noteVersions s t l hk]
  · rw [h.l2]
    cases b
    · rw [e]; rfl
    · rw [e]
      show (State.cache _ _ _ _).mem.l2 = (State.cache _ _ _ _).mem.l2
      unfold State.cache
      split <;> (rename_i hc; first | rw [if_pos (by exact hc)]; rfl | rw [if_neg (by exact hc)])
  · rw [h.mem, e]
  · rw [h.rest, e]

/-- Caching a line changes the cache alone. -/
theorem rest_cache (s : State) (t : Target) (p : BitVec 7) (b : Bool) :
    s.cache t p b = { s with mem := { s.mem with l2 := (s.cache t p b).mem.l2 } } := by
  unfold State.cache
  split <;> rfl

/-- Everything that an answered access which writes nothing does. -/
theorem reads_self (s : State) (t : Target) (n : Nat) (q : Seq) (h : s.versionsStand t) : Reads s (s.setSeq n q) n q t false where
  seq := by simp
  others m hm := by rw [State.seq_setSeq, if_neg hm.symm]
  found := (foundVer_stands h).symm
  lines _ _ := rfl
  l2 := rfl
  mem := rfl
  rest := rfl

theorem reads_cache (s : State) (t : Target) (n : Nat) (q : Seq) (h : s.versionsStand t) :
    Reads s ((s.cache t (s.seqIssuer n).part false).setSeq n q) n q t true := by
  have e := rest_cache s t (s.seqIssuer n).part false
  constructor
  · simp
  · intro m hm
    rw [State.seq_setSeq, if_neg hm.symm, e]
    rfl
  · rw [foundVer_stands h, State.setSeq_mem, e]
    rfl
  · intro l _
    rw [State.setSeq_mem, e]
    rfl
  · rfl
  · rw [State.setSeq_mem, e]
  · rw [e]
    rfl

/-- Everything a plain write at its home does. -/
theorem stores_plainAt (s : State) (t : Target) (part : BitVec 7) (w : Nat) (v : BitVec 512) (n : Nat) (q : Seq)
    (hs : s.versionsStand t) : Stores s ((s.plainAt t part w v).setSeq n q) n q t w v := by
  obtain ⟨m', hm, hr⟩ := Mem.rest_plainWrite s.mem t.la w v t.ver (Config.freeVersion s.free)
  have key : ∃ l2 fr, s.plainAt t part w v = { s with mem := { m' with l2 := l2 }, free := fr } := by
    unfold State.plainAt
    rw [rest_cache]
    unfold State.setMem
    cases ht : t.ver <;> rw [ht] at hm <;> simp only [hm, Bool.false_eq_true, if_false, if_true] <;> exact ⟨_, _, rfl⟩
  obtain ⟨l2, fr, hk⟩ := key
  have hb : ∀ x, m'.byte x = (s.mem.write t.la w v).byte x := fun x => Mem.byte_bytes (by rw [hm, Mem.bytes_plainWrite]) x
  constructor
  · simp
  · intro m h
    rw [State.seq_setSeq, if_neg h.symm, hk]
    rfl
  · rw [hk]
    constructor
    · intro x h1 h2
      refine (hb x).trans ?_
      rw [Mem.byte_write_in _ _ _ _ _ h1 h2]
      unfold byteAt
      apply BitVec.eq_of_getLsbD_eq
      intro i hi
      simp [hi]
    · intro x h
      exact (hb x).trans (Mem.byte_write_out _ _ _ _ _ h)
  · intro hv h
    rw [hk]
    show m'.ver _ = _
    rw [hm, hv, foundVer_stands hs]
    exact Mem.ver_plainWrite _ _ _ _ _ h
  · intro l h _
    rw [hk]
    show m'.ver _ = _
    rw [hm]
    exact Mem.ver_plainWrite_other _ _ _ _ _ _ _ h
  · rw [hk]
    show ({ m' with l2 := l2 } : Mem) = _
    rw [hr]
    rfl
  · rw [hk]
    rfl

/-- A plain or versioned write changes, beside its bytes and versions, only what waits on the line. -/
theorem Mem.rest_versionedWrite (m : Mem) (a w : Nat) (v : BitVec 512) (k : BitVec 16) :
    ∃ m', m' = m.versionedWrite a w v k ∧
      m' = { m with bytes := m'.bytes, vers := m'.vers, bad := m'.bad, staged := m'.staged, due := m'.due, chain := m'.chain,
                    bells := m'.bells } := by
  refine ⟨_, rfl, ?_⟩
  unfold Mem.versionedWrite
  rw [Mem.rest_afterWrite, Mem.rest_write]
  rfl

/-- Everything a versioned store of the next version does at its home. -/
theorem stores_versionedAt (s : State) (t : Target) (part : BitVec 7) (w : Nat) (v : BitVec 512) (n : Nat) (q : Seq) (k : BitVec 16)
    (hv : k = s.foundVer t + 1) :
    Stores s (((s.setMem (s.mem.versionedWrite t.la w v k)).cache t part true).setSeq n q) n q t w v := by
  obtain ⟨m', hm, hr⟩ := Mem.rest_versionedWrite s.mem t.la w v k
  have key : ∃ l2, (s.setMem (s.mem.versionedWrite t.la w v k)).cache t part true = { s with mem := { m' with l2 := l2 } } := by
    rw [rest_cache, ← hm]
    exact ⟨_, rfl⟩
  obtain ⟨l2, hk⟩ := key
  have hb : ∀ x, m'.byte x = (s.mem.write t.la w v).byte x := fun x => Mem.byte_bytes (by rw [hm, Mem.bytes_versionedWrite]) x
  constructor
  · simp
  · intro m h
    rw [State.seq_setSeq, if_neg h.symm, hk]
    rfl
  · rw [hk]
    constructor
    · intro x h1 h2
      refine (hb x).trans ?_
      rw [Mem.byte_write_in _ _ _ _ _ h1 h2]
      unfold byteAt
      apply BitVec.eq_of_getLsbD_eq
      intro i hi
      simp [hi]
    · intro x h
      exact (hb x).trans (Mem.byte_write_out _ _ _ _ _ h)
  · intro _ _
    rw [hk]
    show m'.ver _ = _
    rw [hm, ← hv, Mem.versionedWrite, Mem.ver_vers (Mem.vers_afterWrite _ _), Mem.ver_setVer_same]
  · intro l h _
    rw [hk]
    show m'.ver _ = _
    rw [hm, Mem.versionedWrite, Mem.ver_vers (Mem.vers_afterWrite _ _), Mem.ver_setVer, if_neg h.symm]
    exact Mem.ver_vers (Mem.vers_write _ _ _ _) l
  · rw [hk]
    show ({ m' with l2 := l2 } : Mem) = _
    rw [hr]
    rfl
  · rw [hk]
    rfl

/-! ### An access of a sequencer -/

/-- An access that reaches its home is applied there: it is accepted and not held, and its line has no chain. -/
theorem Open.at {s : State} {n : Nat} {x : Access} {t : Target} (h : Open s n x t) (e : Option Nat) (y : Bool) :
    s.atHome t (s.seqIssuer n) e x.ea y x.op = (s.noteVersions t).applyAt t (s.seqIssuer n) e x.ea y x.op := by
  have hc : (s.noteVersions t).mem.chain.contains (lineOf t.la) = false := by rw [rest_noteVersions]; exact h.settled
  unfold State.atHome
  rw [h.accepted]
  dsimp only
  rw [h.unheld, Mem.settleChain_self _ _ hc, setMem_self]
  rfl

/-- A sequencer whose instruction has no record is as it was when the record is dropped. -/
theorem Seq.drop_wait (q : Seq) (h : q.wait = none) : { q with wait := none } = q := by
  cases q
  simp only at h
  rw [h]

/-- The next state of a finished instruction, in which its record is dropped. -/
theorem seqBecomes_endWait (s : State) (n : Nat) : SeqBecomes s (s.endWait n) n { s.seq n with wait := none } := seqBecomes_setSeq ..

/-- R226: an instruction that need not wait begins. -/
theorem seqRelease_goes {s : State} {n : Nat} {ord : BitVec 2} {sc : BitVec 3} (h : s.mayRelease n ord sc) (body : State → State) :
    s.seqRelease n ord sc body = body s := by
  unfold State.seqRelease
  split
  · rename_i c
    simp only [release_quiet (h c.1), h c.1, if_true]
  · rfl

/-- An access that reaches its home is answered there. -/
theorem Open.issue {s : State} {n : Nat} {x : Access} {t : Target} (h : Open s n x t) {s' : State} {a : Answer} (hf : a.fault = none)
    (hh : ∀ e, (s.noteVersions t).applyAt t (s.seqIssuer n) e x.ea x.status x.op = .answered s' a) : s.issue n x = .answered a s' := by
  replace hh := fun e => (h.at e x.status).trans (hh e)
  have hr : ∀ e, s.homeRun t (s.seqIssuer n) e x.ea x.status x.op 64 = .answered s' a := by
    intro e
    unfold State.homeRun
    rw [hh e]
  have hp : (opIsStv x.op && s.pageParked (s.seqIssuer n) x.ea && !(s.seq n).unack) = false := by rw [h.unparked]; simp
  unfold State.issue
  simp only [h.free, h.resolved, Bool.false_eq_true, if_false]
  have hfit : (x.hbmOnly && !inHbm t.la) = false := by
    by_cases hb : x.hbmOnly = true
    · simp [h.fits hb]
    · simp [hb]
  simp only [hfit, h.egress, h.arriving, hp, Bool.or_self, Bool.false_eq_true, if_false]
  split
  · rename_i w v hp
    have hw : opWidth x.op = w := by
      unfold parkable at hp
      split at hp
      · simp only [Option.some.injEq, Prod.mk.injEq] at hp; rename_i e; rw [e]; exact hp.1
      · simp only [Option.some.injEq, Prod.mk.injEq] at hp; rename_i e; rw [e]; exact hp.1
      · split at hp
        · cases hp
        · simp only [Option.some.injEq, Prod.mk.injEq] at hp; rename_i e _; rw [e]; exact hp.1
      · cases hp
    have hap := h.apart
    rw [hw] at hap
    simp only [h.unparked, hap, h.here, h.accepted, h.now, Bool.and_false, Bool.false_and, Bool.false_eq_true, if_false, ne_eq,
      not_true, hh, hf]
  · simp only [h.apart, h.near, h.here, h.now, Bool.or_false, Bool.false_and, Bool.false_eq_true, if_false, ne_eq, not_true, hr, hf]

/-- One access of a script, and what follows its answer. -/
theorem Open.script {s : State} {n : Nat} {x : Access} {t : Target} (h : Open s n x t) {next : List Answer → Access ⊕ (State → State)}
    {g : List Answer} (hw : ((s.seq n).wait).getD {} = { got := g }) (hx : next g = .inl x) {s' : State} {a : Answer} (hf : a.fault = none)
    (hh : ∀ e, (s.noteVersions t).applyAt t (s.seqIssuer n) e x.ea x.status x.op = .answered s' a) (scatter : Bool) :
    s.seqScript n next scatter = match next (g ++ [a]) with
      | .inr fin => fin (s'.endWait n)
      | .inl _ => s'.setSeq n { s'.seq n with wait := some { got := g ++ [a] } } := by
  unfold State.seqScript
  simp only [hw, hx, h.issue hf hh, hf]
  first | done | (cases next (g ++ [a]) <;> rfl)

/-- A single access whose home answers at once runs its finish on what the home left. -/
theorem Reaches.access {s : State} {n : Nat} {x : Access} {t : Target} (h : Reaches s n x t) {ord : BitVec 2} {sc : BitVec 3}
    (hr : s.mayRelease n ord sc) (fin : Answer → State → State) {s' : State} {a : Answer} (hf : a.fault = none)
    (hh : ∀ e, (s.noteVersions t).applyAt t (s.seqIssuer n) e x.ea x.status x.op = .answered s' a) :
    s.seqAccess n ord sc x fin = fin a (s'.endWait n) := by
  unfold State.seqAccess
  rw [seqRelease_goes hr, h.toOpen.script (g := []) (by rw [h.begins]; rfl) rfl hf hh]
  rfl

/-- The end of an instruction of accesses that has left memory alone. -/
theorem seqBecomes_finish {s : State} {n : Nat} {q : Seq} (h : (s.seq n).wait = none) (f : Seq → Seq) (hq : q = f (s.seq n)) :
    SeqBecomes s ((s.endWait n).seqNext n (f ((s.endWait n).seq n))) n q.step := by
  have e : (s.endWait n).seq n = s.seq n := by rw [(seqBecomes_endWait s n).seq, Seq.drop_wait _ h]
  rw [e, ← hq]
  exact (seqBecomes_endWait s n).trans (seqBecomes_seqNext _ _ _)

/-- The end of an instruction whose last access wrote. -/
theorem Stores.finish {s u : State} {n : Nat} {q : Seq} {t : Target} {w : Nat} {v : BitVec 512}
    (h : Stores s (u.setSeq n (s.seq n)) n (s.seq n) t w v) (hu : u.seq n = s.seq n) (hw : (s.seq n).wait = none) (f : Seq → Seq)
    (hq : q = f (s.seq n)) : Stores s ((u.endWait n).seqNext n (f ((u.endWait n).seq n))) n q.step t w v := by
  have e : (u.endWait n).seq n = s.seq n := by rw [(seqBecomes_endWait u n).seq, hu, Seq.drop_wait _ hw]
  rw [e, ← hq]
  have b := (seqBecomes_endWait u n).trans (seqBecomes_seqNext _ n q)
  have hm : ((u.endWait n).seqNext n q).mem = (u.setSeq n (s.seq n)).mem := by rw [b.rest]; rfl
  constructor
  · exact b.seq
  · intro m hne
    rw [b.others m hne]
    have := h.others m hne
    rwa [State.seq_setSeq, if_neg hne.symm] at this
  · exact ⟨fun x h1 h2 => by rw [hm]; exact h.bytes.inside x h1 h2, fun x h1 => by rw [hm]; exact h.bytes.outside x h1⟩
  · rw [hm]; exact h.version
  · rw [hm]; exact h.lines
  · rw [hm]; exact h.mem
  · have hr : u = { s with mem := u.mem, seqs := u.seqs, free := u.free } := by
      have := h.rest
      unfold State.setSeq at this
      cases u
      simpa using this
    rw [b.rest, hr]

/-- The end of an instruction whose last access wrote nothing. -/
theorem Reads.finish {s u : State} {n : Nat} {q : Seq} {t : Target} {b : Bool}
    (h : Reads s (u.setSeq n (s.seq n)) n (s.seq n) t b) (hu : u.seq n = s.seq n) (hw : (s.seq n).wait = none) (f : Seq → Seq)
    (hq : q = f (s.seq n)) : Reads s ((u.endWait n).seqNext n (f ((u.endWait n).seq n))) n q.step t b := by
  have e : (u.endWait n).seq n = s.seq n := by rw [(seqBecomes_endWait u n).seq, hu, Seq.drop_wait _ hw]
  rw [e, ← hq]
  have k := (seqBecomes_endWait u n).trans (seqBecomes_seqNext _ n q)
  have hm : ((u.endWait n).seqNext n q).mem = (u.setSeq n (s.seq n)).mem := by rw [k.rest]; rfl
  constructor
  · exact k.seq
  · intro m hne
    rw [k.others m hne]
    have := h.others m hne
    rwa [State.seq_setSeq, if_neg hne.symm] at this
  · rw [hm]; exact h.found
  · rw [hm]; exact h.lines
  · rw [hm]; exact h.l2
  · rw [hm]; exact h.mem
  · have hr : u = { s with mem := u.mem, seqs := u.seqs, free := u.free } := by
      have := h.rest
      unfold State.setSeq at this
      cases u
      simpa using this
    rw [k.rest, hr]

theorem seq_plainAt (s : State) (t : Target) (part : BitVec 7) (w : Nat) (v : BitVec 512) (n : Nat) (hs : s.versionsStand t) :
    (s.plainAt t part w v).seq n = s.seq n := by
  have h := (stores_plainAt s t part w v (n + 1) {} hs).others n (by omega)
  rwa [State.seq_setSeq, if_neg (by omega)] at h

/-- An instruction of one access that ends with a plain write. -/
theorem stores_finish {s : State} {n : Nat} {q : Seq} (h : (s.seq n).wait = none) (t : Target) (part : BitVec 7) (w : Nat)
    (v : BitVec 512) (f : Seq → Seq) (hq : q = f (s.seq n)) :
    Stores s ((((s.noteVersions t).plainAt t part w v).endWait n).seqNext n
      (f ((((s.noteVersions t).plainAt t part w v).endWait n).seq n))) n q.step t w v := by
  have e : (s.noteVersions t).seq n = s.seq n := by rw [rest_noteVersions]; rfl
  have hs := versionsStand_noteVersions s t
  apply Stores.noted
  exact (stores_plainAt (s.noteVersions t) t part w v n ((s.noteVersions t).seq n) hs).finish (seq_plainAt _ _ _ _ _ _ hs)
    (by rw [e]; exact h) f (by rw [e]; exact hq)

end Sys2Proof.Machine
end

