-- ==== Sys2Proof/Laws/PerInstr.lean ====
section
/-! SUPPORT. What holds of every instruction as syntax, one lemma per constructor: it has a word unless it is an event. -/

namespace Sys2Proof.Laws.Worded

/-- An instruction has a word exactly when it is no event (R117). -/
def Statement (i : Instr) : Prop := (encode i).isSome = (formLegality i != Legality.event)

theorem nop (p : BitVec 3) : Statement (.nop p) := rfl
theorem idle (p : BitVec 3) : Statement (.idle p) := rfl
theorem b (c : BitVec 4) (f : BitVec 20) : Statement (.b c f) := rfl
theorem bi (a : BitVec 4) (p : BitVec 3) : Statement (.bi a p) := rfl
theorem call (c : BitVec 4) (f : BitVec 20) : Statement (.call c f) := rfl
theorem calli (a : BitVec 4) (p : BitVec 3) : Statement (.calli a p) := rfl
theorem ret (p : BitVec 3) : Statement (.ret p) := rfl
theorem loop (d : BitVec 4) (i : BitVec 16) : Statement (.loop d i) := rfl
theorem waitt (s : BitVec 8) : Statement (.waitt s) := rfl
theorem csrr (d : BitVec 4) (i : BitVec 12) : Statement (.csrr d i) := rfl
theorem csrw (d a : BitVec 4) (i : BitVec 12) : Statement (.csrw d a i) := rfl
theorem csrs (d a : BitVec 4) (i : BitVec 12) : Statement (.csrs d a i) := rfl
theorem csrc (d a : BitVec 4) (i : BitVec 12) : Statement (.csrc d a i) := rfl
theorem fence (o : BitVec 2) (s : BitVec 3) : Statement (.fence o s) := rfl
theorem rstpt (a : BitVec 4) (i : BitVec 12) : Statement (.rstpt a i) := rfl
theorem trap (a : BitVec 4) (i : BitVec 12) : Statement (.trap a i) := rfl
theorem tack (p : BitVec 3) : Statement (.tack p) := rfl
theorem tret (p : BitVec 3) : Statement (.tret p) := rfl
theorem svc (a : BitVec 4) (i : BitVec 12) : Statement (.svc a i) := rfl
theorem scanr (a d : BitVec 4) (e : BitVec 12) : Statement (.scanr a d e) := rfl
theorem add (a b d r : BitVec 4) (p : BitVec 3) (j : Bool) (w : BitVec 2) : Statement (.add a b d r p j w) := rfl
theorem sub (a b d r : BitVec 4) (p : BitVec 3) (w : BitVec 2) : Statement (.sub a b d r p w) := rfl
theorem mul (a b d r : BitVec 4) (p : BitVec 3) (w : BitVec 2) : Statement (.mul a b d r p w) := rfl
theorem mulh (a b d r : BitVec 4) (p : BitVec 3) (w : BitVec 2) : Statement (.mulh a b d r p w) := rfl
theorem mulhu (a b d r : BitVec 4) (p : BitVec 3) (w : BitVec 2) : Statement (.mulhu a b d r p w) := rfl
theorem div (a b d : BitVec 4) (p : BitVec 3) (u : Bool) (w : BitVec 2) : Statement (.div a b d p u w) := rfl
theorem rem (a b d : BitVec 4) (p : BitVec 3) (u : Bool) (w : BitVec 2) : Statement (.rem a b d p u w) := rfl
theorem and (a b d r : BitVec 4) (p : BitVec 3) (j : Bool) (w : BitVec 2) : Statement (.and a b d r p j w) := rfl
theorem or (a b d r : BitVec 4) (p : BitVec 3) (j : Bool) (w : BitVec 2) : Statement (.or a b d r p j w) := rfl
theorem xor (a b d r : BitVec 4) (p : BitVec 3) (j : Bool) (w : BitVec 2) : Statement (.xor a b d r p j w) := rfl
theorem andn (a b d r : BitVec 4) (p : BitVec 3) (w : BitVec 2) : Statement (.andn a b d r p w) := rfl
theorem shl (a b d r : BitVec 4) (p : BitVec 3) (w : BitVec 2) : Statement (.shl a b d r p w) := rfl
theorem shr (a b d r : BitVec 4) (p : BitVec 3) (w : BitVec 2) : Statement (.shr a b d r p w) := rfl
theorem sra (a b d r : BitVec 4) (p : BitVec 3) (w : BitVec 2) : Statement (.sra a b d r p w) := rfl
theorem rot (a b d r : BitVec 4) (p : BitVec 3) (w : BitVec 2) : Statement (.rot a b d r p w) := rfl
theorem min (a b d r : BitVec 4) (p : BitVec 3) (j : Bool) (w : BitVec 2) : Statement (.min a b d r p j w) := rfl
theorem max (a b d r : BitVec 4) (p : BitVec 3) (j : Bool) (w : BitVec 2) : Statement (.max a b d r p j w) := rfl
theorem minu (a b d r : BitVec 4) (p : BitVec 3) (j : Bool) (w : BitVec 2) : Statement (.minu a b d r p j w) := rfl
theorem maxu (a b d r : BitVec 4) (p : BitVec 3) (j : Bool) (w : BitVec 2) : Statement (.maxu a b d r p j w) := rfl
theorem abs (a d r : BitVec 4) (p : BitVec 3) (w : BitVec 2) : Statement (.abs a d r p w) := rfl
theorem neg (a d r : BitVec 4) (p : BitVec 3) (w : BitVec 2) : Statement (.neg a d r p w) := rfl
theorem adds (a b d r : BitVec 4) (p : BitVec 3) (u : Bool) (w : BitVec 2) : Statement (.adds a b d r p u w) := rfl
theorem subs (a b d r : BitVec 4) (p : BitVec 3) (u : Bool) (w : BitVec 2) : Statement (.subs a b d r p u w) := rfl
theorem clz (a d r : BitVec 4) (p : BitVec 3) (w : BitVec 2) : Statement (.clz a d r p w) := rfl
theorem popc (a d r : BitVec 4) (p : BitVec 3) (w : BitVec 2) : Statement (.popc a d r p w) := rfl
theorem sel (a b d r : BitVec 4) (p n : BitVec 3) : Statement (.sel a b d r p n) := rfl
theorem addi (a d : BitVec 4) (i : BitVec 16) : Statement (.addi a d i) := rfl
theorem andi (a d : BitVec 4) (i : BitVec 16) : Statement (.andi a d i) := rfl
theorem ori (a d : BitVec 4) (i : BitVec 16) : Statement (.ori a d i) := rfl
theorem movi (d : BitVec 4) (i : BitVec 16) : Statement (.movi d i) := rfl
theorem movhi (a d : BitVec 4) (i : BitVec 16) : Statement (.movhi a d i) := rfl
theorem lea (a b d : BitVec 4) (k : BitVec 3) (f : BitVec 9) : Statement (.lea a b d k f) := rfl
theorem cmp (a b d : BitVec 4) (p c : BitVec 3) (w : BitVec 2) : Statement (.cmp a b d p c w) := rfl
theorem fcmp (a b d : BitVec 4) (p : BitVec 3) (c : BitVec 2) (f : Bool) : Statement (.fcmp a b d p c f) := rfl
theorem plog (a b d p f : BitVec 3) : Statement (.plog a b d p f) := rfl
theorem prd (d : BitVec 4) (p : BitVec 3) : Statement (.prd d p) := rfl
theorem pwr (a b : BitVec 4) (p : BitVec 3) : Statement (.pwr a b p) := rfl
theorem itset (d : BitVec 2) (i : BitVec 16) : Statement (.itset d i) := rfl
theorem itnxt (a : BitVec 2) (d p : BitVec 3) : Statement (.itnxt a d p) := rfl
theorem rndget (d r : BitVec 4) (p : BitVec 3) : Statement (.rndget d r p) := rfl
theorem rndset (a : BitVec 4) (p : BitVec 3) : Statement (.rndset a p) := rfl
theorem mkemit (d r : BitVec 4) (p : BitVec 3) (k : BitVec 2) : Statement (.mkemit d r p k) := rfl
theorem mktst (a : BitVec 4) (d p : BitVec 3) (k : BitVec 2) : Statement (.mktst a d p k) := rfl
theorem tagset (a d r : BitVec 4) (p t : BitVec 3) : Statement (.tagset a d r p t) := rfl
theorem tagchk (a : BitVec 4) (d p t : BitVec 3) : Statement (.tagchk a d p t) := rfl
theorem tagget (a d r : BitVec 4) (p : BitVec 3) : Statement (.tagget a d r p) := rfl
theorem fadd (a b d r : BitVec 4) (p : BitVec 3) (j f : Bool) (u : BitVec 2) : Statement (.fadd a b d r p j f u) := rfl
theorem fsub (a b d r : BitVec 4) (p : BitVec 3) (f : Bool) (u : BitVec 2) : Statement (.fsub a b d r p f u) := rfl
theorem fmul (a b d r : BitVec 4) (p : BitVec 3) (f : Bool) (u : BitVec 2) : Statement (.fmul a b d r p f u) := rfl
theorem fma (a b d r : BitVec 4) (p : BitVec 3) (j f : Bool) (u : BitVec 2) : Statement (.fma a b d r p j f u) := rfl
theorem fms (a b d r : BitVec 4) (p : BitVec 3) (f : Bool) (u : BitVec 2) : Statement (.fms a b d r p f u) := rfl
theorem fnma (a b d r : BitVec 4) (p : BitVec 3) (f : Bool) (u : BitVec 2) : Statement (.fnma a b d r p f u) := rfl
theorem fmin (a b d r : BitVec 4) (p : BitVec 3) (j f : Bool) : Statement (.fmin a b d r p j f) := rfl
theorem fmax (a b d r : BitVec 4) (p : BitVec 3) (j f : Bool) : Statement (.fmax a b d r p j f) := rfl
theorem fabs (a d r : BitVec 4) (p : BitVec 3) (f : Bool) : Statement (.fabs a d r p f) := rfl
theorem fneg (a d r : BitVec 4) (p : BitVec 3) (f : Bool) : Statement (.fneg a d r p f) := rfl
theorem fclamp (a b d r : BitVec 4) (p : BitVec 3) (f : Bool) : Statement (.fclamp a b d r p f) := rfl
theorem fsel (a b d r : BitVec 4) (p : BitVec 3) (c : BitVec 2) (f : Bool) : Statement (.fsel a b d r p c f) := rfl
theorem frsum (a d r : BitVec 4) (p : BitVec 3) (f : Bool) (u : BitVec 2) : Statement (.frsum a d r p f u) := rfl
theorem frmax (a d r : BitVec 4) (p : BitVec 3) (f : Bool) : Statement (.frmax a d r p f) := rfl
theorem frmin (a d r : BitVec 4) (p : BitVec 3) (f : Bool) : Statement (.frmin a d r p f) := rfl
theorem frsqs (a d r : BitVec 4) (p : BitVec 3) (f : Bool) (u : BitVec 2) : Statement (.frsqs a d r p f u) := rfl
theorem vperm (a b d : BitVec 4) (z : BitVec 2) : Statement (.vperm a b d z) := rfl
theorem vbcast (a d : BitVec 4) (z : BitVec 2) (x : BitVec 6) : Statement (.vbcast a d z x) := rfl
theorem vslide (a b d : BitVec 4) (z : BitVec 2) (k : BitVec 7) : Statement (.vslide a b d z k) := rfl
theorem exp2 (a d r : BitVec 4) (p : BitVec 3) (f : Bool) : Statement (.exp2 a d r p f) := rfl
theorem log2 (a d r : BitVec 4) (p : BitVec 3) (f : Bool) : Statement (.log2 a d r p f) := rfl
theorem rcp (a d r : BitVec 4) (p : BitVec 3) (f : Bool) : Statement (.rcp a d r p f) := rfl
theorem rsqrt (a d r : BitVec 4) (p : BitVec 3) (f : Bool) : Statement (.rsqrt a d r p f) := rfl
theorem tanh (a d r : BitVec 4) (p : BitVec 3) (f : Bool) : Statement (.tanh a d r p f) := rfl
theorem fsqrt (a d r : BitVec 4) (p : BitVec 3) (f : Bool) (u : BitVec 2) : Statement (.fsqrt a d r p f u) := rfl
theorem fscale (a b d r : BitVec 4) (p : BitVec 3) (f : Bool) (u : BitVec 2) : Statement (.fscale a b d r p f u) := rfl
theorem frint (a d r : BitVec 4) (p : BitVec 3) (f : Bool) (u : BitVec 2) : Statement (.frint a d r p f u) := rfl
theorem fcpys (a b d r : BitVec 4) (p : BitVec 3) (f : Bool) : Statement (.fcpys a b d r p f) := rfl
theorem cvt (a : BitVec 4) (b : BitVec 3) (d r : BitVec 4) (p : BitVec 3) (q : BitVec 2) (n : Bool) (u : BitVec 2) : Statement (.cvt a b d r p q n u) := rfl
theorem cvti (a b d r : BitVec 4) (p : BitVec 3) (t : Bool) (u : BitVec 2) : Statement (.cvti a b d r p t u) := rfl
theorem qnt (a b d : BitVec 4) (t q : BitVec 2) (n : Bool) (u : BitVec 2) (p : Bool) (l : BitVec 4) : Statement (.qnt a b d t q n u p l) := rfl
theorem dqnt (a b d : BitVec 4) (t : Bool) (q : BitVec 3) (u : BitVec 2) (p : Bool) (l : BitVec 4) : Statement (.dqnt a b d t q u p l) := rfl
theorem qntr (a b d : BitVec 4) (t : BitVec 2) (q n : Bool) (u : BitVec 2) (p : Bool) (l : BitVec 4) : Statement (.qntr a b d t q n u p l) := rfl
theorem absmx (a b d r : BitVec 4) (p : BitVec 3) (s : BitVec 2) : Statement (.absmx a b d r p s) := rfl
theorem pk4 (a b d r : BitVec 4) (p : BitVec 3) (u : BitVec 2) : Statement (.pk4 a b d r p u) := rfl
theorem upk4 (a d r : BitVec 4) (p : BitVec 3) (h : Bool) : Statement (.upk4 a d r p h) := rfl
theorem wclm (c : BitVec 3) (n : BitVec 5) : Statement (.wclm c n) := rfl
theorem wrel (c : BitVec 3) (n : BitVec 5) : Statement (.wrel c n) := rfl
theorem wstatMn (m : BitVec 3) (t : BitVec 2) (n : BitVec 5) : Statement (.wstatMn m t n) := rfl
theorem wstatSeq (d a : BitVec 4) (h : Bool) (n : BitVec 5) : Statement (.wstatSeq d a h n) := rfl
theorem pxd (n : BitVec 5) (b r : Bool) (c : BitVec 3) : Statement (.pxd n b r c) := rfl
theorem mma (a : BitVec 4) (d : BitVec 2) (y : BitVec 3) (x h r : Bool) (i : BitVec 2) (n : Bool) (c : BitVec 3) : Statement (.mma a d y x h r i n c) := rfl
theorem ldrs (q : BitVec 2) (k : Bool) (c : BitVec 3) : Statement (.ldrs q k c) := rfl
theorem ldcs (q : BitVec 2) (k : Bool) (c : BitVec 3) : Statement (.ldcs q k c) := rfl
theorem prom (d : BitVec 2) (c : BitVec 3) : Statement (.prom d c) := rfl
theorem adrn (d q : BitVec 2) (f z : Bool) (i : BitVec 2) (n : Bool) (c : BitVec 3) : Statement (.adrn d q f z i n c) := rfl
theorem azer (d : BitVec 2) (c : BitVec 3) : Statement (.azer d c) := rfl
theorem arel (d : BitVec 2) (c : BitVec 3) : Statement (.arel d c) := rfl
theorem ptld (n : BitVec 5) (t : BitVec 2) (h : Bool) (c : BitVec 3) : Statement (.ptld n t h c) := rfl
theorem ld (b d : BitVec 4) (o : BitVec 2) (s w : BitVec 3) (f : BitVec 8) : Statement (.ld b d o s w f) := rfl
theorem st (b d : BitVec 4) (o : BitVec 2) (s w : BitVec 3) (f : BitVec 8) : Statement (.st b d o s w f) := rfl
theorem pref (b : BitVec 4) (f : BitVec 8) : Statement (.pref b f) := rfl
theorem ldl (b d : BitVec 4) (o : BitVec 2) (s w : BitVec 3) (f : BitVec 8) : Statement (.ldl b d o s w f) := rfl
theorem ldv (a b d : BitVec 4) (o : BitVec 2) (s w : BitVec 3) (t : Bool) (p : BitVec 3) : Statement (.ldv a b d o s w t p) := rfl
theorem stv (a b d : BitVec 4) (o : BitVec 2) (s w : BitVec 3) (t : Bool) (p : BitVec 3) : Statement (.stv a b d o s w t p) := rfl
theorem lde (a b d : BitVec 4) (o : BitVec 2) (s w : BitVec 3) : Statement (.lde a b d o s w) := rfl
theorem vrd (a d : BitVec 4) (o : BitVec 2) (s : BitVec 3) : Statement (.vrd a d o s) := rfl
theorem recl (a b d : BitVec 4) : Statement (.recl a b d) := rfl
theorem gath (a b d : BitVec 4) (o : BitVec 2) (s w : BitVec 3) : Statement (.gath a b d o s w) := rfl
theorem scat (a b d : BitVec 4) (o : BitVec 2) (s w : BitVec 3) : Statement (.scat a b d o s w) := rfl
theorem cpyl (a b d : BitVec 4) (o : BitVec 2) (s : BitVec 3) : Statement (.cpyl a b d o s) := rfl
theorem zrol (a : BitVec 4) (o : BitVec 2) (s : BitVec 3) : Statement (.zrol a o s) := rfl
theorem otjn (a b d r : BitVec 4) (p : BitVec 3) (w : Bool) (s : BitVec 3) : Statement (.otjn a b d r p w s) := rfl
theorem aadd (a b d : BitVec 4) (o : BitVec 2) (s w : BitVec 3) (t : Bool) (p : BitVec 3) : Statement (.aadd a b d o s w t p) := rfl
theorem aand (a b d : BitVec 4) (o : BitVec 2) (s w : BitVec 3) (t : Bool) (p : BitVec 3) : Statement (.aand a b d o s w t p) := rfl
theorem aor (a b d : BitVec 4) (o : BitVec 2) (s w : BitVec 3) (t : Bool) (p : BitVec 3) : Statement (.aor a b d o s w t p) := rfl
theorem axor (a b d : BitVec 4) (o : BitVec 2) (s w : BitVec 3) (t : Bool) (p : BitVec 3) : Statement (.axor a b d o s w t p) := rfl
theorem aswp (a b d : BitVec 4) (o : BitVec 2) (s w : BitVec 3) (t : Bool) (p : BitVec 3) : Statement (.aswp a b d o s w t p) := rfl
theorem acas (a b d : BitVec 4) (o : BitVec 2) (s w : BitVec 3) (t : Bool) (p : BitVec 3) : Statement (.acas a b d o s w t p) := rfl
theorem ammax (a b d : BitVec 4) (o : BitVec 2) (s w : BitVec 3) (t : Bool) (p : BitVec 3) : Statement (.ammax a b d o s w t p) := rfl
theorem afadd (a b d : BitVec 4) (o : BitVec 2) (s : BitVec 3) (t : Bool) (p : BitVec 3) : Statement (.afadd a b d o s t p) := rfl
theorem mcas (a b d : BitVec 4) (o : BitVec 2) (s w : BitVec 3) (t : Bool) (p : BitVec 3) : Statement (.mcas a b d o s w t p) := rfl
theorem enq (a b d : BitVec 4) (o : BitVec 2) (s : BitVec 3) (t : Bool) (p : BitVec 3) : Statement (.enq a b d o s t p) := rfl
theorem chase (a b d : BitVec 4) (o : BitVec 2) (s : BitVec 3) (t : Bool) (p : BitVec 3) : Statement (.chase a b d o s t p) := rfl
theorem abar (a b d : BitVec 4) (o : BitVec 2) (s x : BitVec 3) (t : Bool) (p : BitVec 3) : Statement (.abar a b d o s x t p) := rfl
theorem patw (a : BitVec 4) (n : BitVec 5) : Statement (.patw a n) := rfl
theorem patr (a : BitVec 4) (n : BitVec 5) : Statement (.patr a n) := rfl
theorem layw (a n : BitVec 4) : Statement (.layw a n) := rfl
theorem sgo (a b d : BitVec 4) (n : BitVec 5) (r i : Bool) (t : BitVec 3) : Statement (.sgo a b d n r i t) := rfl
theorem scnl (s : BitVec 8) : Statement (.scnl s) := rfl
theorem spos (d : BitVec 4) (s : BitVec 2) (t : BitVec 3) : Statement (.spos d s t) := rfl
theorem coll (a : BitVec 4) (t : BitVec 3) : Statement (.coll a t) := rfl
theorem rcpy (a b d : BitVec 4) (o : BitVec 2) (s t : BitVec 3) : Statement (.rcpy a b d o s t) := rfl
theorem gopen (n : BitVec 6) : Statement (.gopen n) := rfl
theorem gst (a b d : BitVec 4) (o : BitVec 2) (s w : BitVec 3) (t : Bool) (p : BitVec 3) : Statement (.gst a b d o s w t p) := rfl
theorem gcmt (d : BitVec 4) (n : BitVec 6) : Statement (.gcmt d n) := rfl
theorem gabrt (n : BitVec 6) : Statement (.gabrt n) := rfl
theorem gstat (d : BitVec 4) (n : BitVec 6) : Statement (.gstat d n) := rfl
theorem lnch (a b d : BitVec 4) (t : Bool) (p : BitVec 3) : Statement (.lnch a b d t p) := rfl
theorem sig (a : BitVec 4) : Statement (.sig a) := rfl
theorem gbar (n : BitVec 4) : Statement (.gbar n) := rfl
theorem drain (t : BitVec 3) : Statement (.drain t) := rfl
theorem done (a : BitVec 4) : Statement (.done a) := rfl
theorem cfgld (a b d : BitVec 4) : Statement (.cfgld a b d) := rfl
theorem bswap (t : BitVec 3) (a : BitVec 4) : Statement (.bswap t a) := rfl
theorem fold (a : BitVec 4) : Statement (.fold a) := rfl
theorem rqsc (t : BitVec 3) (a : BitVec 4) (r : Bool) : Statement (.rqsc t a r) := rfl
theorem asids (a : BitVec 4) : Statement (.asids a) := rfl
theorem xinv (a b : BitVec 4) (s : BitVec 2) : Statement (.xinv a b s) := rfl
theorem l2md (d a : BitVec 4) : Statement (.l2md d a) := rfl
theorem scrb (a b d : BitVec 4) : Statement (.scrb a b d) := rfl
theorem khnd (a d : BitVec 4) : Statement (.khnd a d) := rfl
theorem kdel (a : BitVec 4) : Statement (.kdel a) := rfl
theorem mext (a b : BitVec 4) : Statement (.mext a b) := rfl
theorem ksign (a b d : BitVec 4) : Statement (.ksign a b d) := rfl
theorem tokenArrival (core dir : Nat) : Statement (.tokenArrival core dir) := rfl
theorem fifoTokenArrival (core dir : Nat) : Statement (.fifoTokenArrival core dir) := rfl
theorem replyArrival (core : Nat) : Statement (.replyArrival core) := rfl
theorem conversionReturn (core sel : Nat) : Statement (.conversionReturn core sel) := rfl
theorem cnvReturn (core : Nat) : Statement (.cnvReturn core) := rfl
theorem drainDelivery (core : Nat) : Statement (.drainDelivery core) := rfl
theorem timingTrap (isl : Nat) : Statement (.timingTrap isl) := rfl
theorem bankSwapEffect (reg : Nat) : Statement (.bankSwapEffect reg) := rfl
theorem rqscStop (isl : Nat) : Statement (.rqscStop isl) := rfl
theorem drainHold (isl : Nat) : Statement (.drainHold isl) := rfl
theorem beginDecode (core : Nat) : Statement (.beginDecode core) := rfl
theorem decodeEnd (core : Nat) : Statement (.decodeEnd core) := rfl
theorem ptldComplete (core : Nat) : Statement (.ptldComplete core) := rfl
theorem slotFill (bind : Nat) : Statement (.slotFill bind) := rfl
theorem pendingFillStart (core slot : Nat) : Statement (.pendingFillStart core slot) := rfl
theorem fillComplete (core slot : Nat) : Statement (.fillComplete core slot) := rfl
theorem homeAccess (pick : Pick) : Statement (.homeAccess pick) := rfl
theorem chainApply (line : Nat) : Statement (.chainApply line) := rfl
theorem waitingLoadAnswer (line : Nat) : Statement (.waitingLoadAnswer line) := rfl
theorem barrierWaitAnswer (line : Nat) : Statement (.barrierWaitAnswer line) := rfl
theorem translationWalk (unit : Nat) (asid : BitVec 16) (va : BitVec 64) : Statement (.translationWalk unit asid va) := rfl
theorem parkedStoreRetry (who : Actor) : Statement (.parkedStoreRetry who) := rfl
theorem parkedStoreAgeExpiry (who : Actor) : Statement (.parkedStoreAgeExpiry who) := rfl
theorem correctableError : Statement (.correctableError) := rfl
theorem uncorrectableError (place : Place) : Statement (.uncorrectableError place) := rfl
theorem bindingStart (port : Nat) : Statement (.bindingStart port) := rfl
theorem bindingComplete (bind : Nat) : Statement (.bindingComplete bind) := rfl
theorem streamRoundHoldRelease (bind : Nat) : Statement (.streamRoundHoldRelease bind) := rfl
theorem collectiveComplete (cid : BitVec 32) : Statement (.collectiveComplete cid) := rfl
theorem groupStoreStaging (k : Nat) : Statement (.groupStoreStaging k) := rfl
theorem gstAck (k : Nat) : Statement (.gstAck k) := rfl
theorem decisionRecordWrite (g : GroupId) : Statement (.decisionRecordWrite g) := rfl
theorem commitPacket (g : GroupId) : Statement (.commitPacket g) := rfl
theorem abortPacket (g : GroupId) : Statement (.abortPacket g) := rfl
theorem groupLifetimeExpiry (asid : BitVec 16) (n : BitVec 6) : Statement (.groupLifetimeExpiry asid n) := rfl
theorem holdTimeoutResolve (line : Nat) (initiator : Bool) : Statement (.holdTimeoutResolve line initiator) := rfl
theorem groupResolveQuery (g : GroupId) (chip : Nat) : Statement (.groupResolveQuery g chip) := rfl
theorem chipLost (chip : Nat) : Statement (.chipLost chip) := rfl
theorem eventFlagSet (n : Nat) : Statement (.eventFlagSet n) := rfl
theorem gangBarrierRelease (task : Nat) (n : BitVec 4) : Statement (.gangBarrierRelease task n) := rfl
theorem sequencerCodeLoad (n : Nat) : Statement (.sequencerCodeLoad n) := rfl
theorem faultDelivery (n : Nat) : Statement (.faultDelivery n) := rfl
theorem contextFault (n : Nat) : Statement (.contextFault n) := rfl
theorem tailUpdate (q : Nat) : Statement (.tailUpdate q) := rfl
theorem queueRecordRead (q : Nat) : Statement (.queueRecordRead q) := rfl
theorem dependenceCheck (task : Nat) : Statement (.dependenceCheck task) := rfl
theorem taskSelect (part : Nat) : Statement (.taskSelect part) := rfl
theorem levelStarved (part lvl : Nat) : Statement (.levelStarved part lvl) := rfl
theorem sliceExpiry (task : Nat) : Statement (.sliceExpiry task) := rfl
theorem placement (part : Nat) : Statement (.placement part) := rfl
theorem stageStart (task stage : Nat) : Statement (.stageStart task stage) := rfl
theorem fullPreemption (task : Nat) : Statement (.fullPreemption task) := rfl
theorem saveResume (part : Nat) : Statement (.saveResume part) := rfl
theorem restore (task : Nat) : Statement (.restore task) := rfl
theorem stageRestart (task stage : Nat) : Statement (.stageRestart task stage) := rfl
theorem failedCoreRecovery (task stage : Nat) : Statement (.failedCoreRecovery task stage) := rfl
theorem taskCompletion (task : Nat) : Statement (.taskCompletion task) := rfl
theorem taskEnd (task : Nat) : Statement (.taskEnd task) := rfl
theorem memberRequest (chip gang stage : Nat) (asid : BitVec 16) (entry : BitVec 512) (arg : BitVec 64) : Statement (.memberRequest chip gang stage asid entry arg) := rfl
theorem gangStartTime (task : Nat) : Statement (.gangStartTime task) := rfl
theorem gangSkewExpiry (task : Nat) : Statement (.gangSkewExpiry task) := rfl
theorem memberRequestTimeout (task : Nat) : Statement (.memberRequestTimeout task) := rfl
theorem gangRetry (task : Nat) : Statement (.gangRetry task) := rfl
theorem remoteLaunch (chip id : Nat) (asid : BitVec 16) (q : Nat) (rec : BitVec 512) : Statement (.remoteLaunch chip id asid q rec) := rfl
theorem memberUnreachable (task chip : Nat) : Statement (.memberUnreachable task chip) := rfl
theorem gangChannelReplay (chan : Nat) : Statement (.gangChannelReplay chan) := rfl
theorem settleTimeout (task : Nat) : Statement (.settleTimeout task) := rfl
theorem brQtailWrite (q : Nat) (v : BitVec 64) : Statement (.brQtailWrite q v) := rfl
theorem queueEnable (q : Nat) (v : BitVec 64) : Statement (.queueEnable q v) := rfl
theorem brL2reqWrite (v : BitVec 64) : Statement (.brL2reqWrite v) := rfl
theorem hpDtailWrite (f r : Nat) (v : BitVec 64) : Statement (.hpDtailWrite f r v) := rfl
theorem dmaRingDisable (f r : Nat) : Statement (.dmaRingDisable f r) := rfl
theorem functionLevelReset (f : Nat) : Statement (.functionLevelReset f) := rfl
theorem vfEnableClear : Statement (.vfEnableClear) := rfl
theorem quiesceEnd (f : Nat) : Statement (.quiesceEnd f) := rfl
theorem hostReadTimeout (f n : Nat) : Statement (.hostReadTimeout f n) := rfl
theorem unexpectedCompletion (f : Nat) : Statement (.unexpectedCompletion f) := rfl
theorem mailboxGo (f : Nat) : Statement (.mailboxGo f) := rfl
theorem attestation (f : Nat) : Statement (.attestation f) := rfl
theorem sealInstall (f : Nat) : Statement (.sealInstall f) := rfl
theorem sessionOpen (f : Nat) : Statement (.sessionOpen f) := rfl
theorem usageReport (f : Nat) : Statement (.usageReport f) := rfl
theorem teardown (f : Nat) : Statement (.teardown f) := rfl
theorem partitionKeys (f : Nat) : Statement (.partitionKeys f) := rfl
theorem certificateChain (f : Nat) : Statement (.certificateChain f) := rfl
theorem handleDelete (f : Nat) : Statement (.handleDelete f) := rfl
theorem measureExtend (f : Nat) : Statement (.measureExtend f) := rfl
theorem recoveryImageWrite : Statement (.recoveryImageWrite) := rfl
theorem cobaltError : Statement (.cobaltError) := rfl
theorem brErrpopWrite (v : BitVec 64) : Statement (.brErrpopWrite v) := rfl
theorem saveEnd (part : Nat) : Statement (.saveEnd part) := rfl
theorem saveCancel (part : Nat) : Statement (.saveCancel part) := rfl
theorem portRotateRequest (n : Nat) : Statement (.portRotateRequest n) := rfl
theorem portEnable (n peer : Nat) (ok : Bool) : Statement (.portEnable n peer ok) := rfl
theorem d3hotWrite (d3 : Bool) : Statement (.d3hotWrite d3) := rfl
theorem cbPwrlimWrite (v : BitVec 64) : Statement (.cbPwrlimWrite v) := rfl
theorem registerWrite (reg : Reg) (v : BitVec 64) : Statement (.registerWrite reg v) := rfl
theorem flitGroupReceive (n : Nat) (g : FlitGroup) (bad : Nat) (tag : Bool) : Statement (.flitGroupReceive n g bad tag) := rfl
theorem nakResend (n seq : Nat) : Statement (.nakResend n seq) := rfl
theorem ackReceive (n seq : Nat) : Statement (.ackReceive n seq) := rfl
theorem keyUpdate (n : Nat) : Statement (.keyUpdate n) := rfl
theorem epochGroupLimit (n : Nat) : Statement (.epochGroupLimit n) := rfl
theorem portDown (n : Nat) : Statement (.portDown n) := rfl
theorem portUp (n : Nat) : Statement (.portUp n) := rfl
theorem packetReceive (p : Packet) : Statement (.packetReceive p) := rfl
theorem packetWaitExpiry (chip psn : Nat) : Statement (.packetWaitExpiry chip psn) := rfl
theorem requestTimeout (id : Nat) : Statement (.requestTimeout id) := rfl
theorem spdmRetry (n peer : Nat) (ok : Bool) : Statement (.spdmRetry n peer ok) := rfl
theorem podTimeSync (ppm : Int) : Statement (.podTimeSync ppm) := rfl
theorem powerOnReset : Statement (.powerOnReset) := rfl
theorem perst : Statement (.perst) := rfl
theorem sidebandReset : Statement (.sidebandReset) := rfl
theorem watchdogReset : Statement (.watchdogReset) := rfl
theorem thermalTrip : Statement (.thermalTrip) := rfl
theorem thermalThrottle (temp : BitVec 12) : Statement (.thermalThrottle temp) := rfl
theorem powerDutyAdjust (watts : BitVec 12) (duty : BitVec 7) : Statement (.powerDutyAdjust watts duty) := rfl
theorem romBoot : Statement (.romBoot) := rfl
theorem firmwareBoot : Statement (.firmwareBoot) := rfl
theorem illegalWordDecode (w : BitVec 32) : Statement (.illegalWordDecode w) := rfl
theorem groupDestinationAck (g : GroupId) (chip : Nat) : Statement (.groupDestinationAck g chip) := rfl
theorem hostReadCompletion (f n : Nat) : Statement (.hostReadCompletion f n) := rfl
theorem thermalTripCooled : Statement (.thermalTripCooled) := rfl
theorem decodeSpanDelivered (core : Nat) (n : Nat) : Statement (.decodeSpanDelivered core n) := rfl
theorem recoverySkewExpiry (task stage : Nat) : Statement (.recoverySkewExpiry task stage) := rfl
theorem dmaBlock (f r : Nat) (blk : BitVec 512) (data tags : List (BitVec 8)) (hostErr : Bool) :
    Statement (.dmaBlock f r blk data tags hostErr) := rfl

end Sys2Proof.Laws.Worded
end

