-- ==== Sys2Proof/Tests/Slice0.lean ====
section
/-! SUPPORT. Tests of the model against the words and numbers of the spec, a refused term for each check of a word, and for each
statement states and operands that meet the hypotheses of its clauses. -/

namespace Sys2Proof.Tests

open Sys2Proof.Machine

-- One proof after another: many kernel evaluations at once need more memory than they save time.
set_option Elab.async false

/-! ### Small states -/

/-- A sequencer whose turn it is. -/
def seqTurn (n : Nat) (q : Seq) : State := ({ actor := .seq n } : State).setSeq n q

/-- The VE of core 0, whose turn it is and whose row accepts every tag, with its element as given. -/
def veTurn (f : Ve → Ve) : State :=
  let s := State.reset.withRow false 0
  { s.setVe 0 (f (s.ve 0)) with actor := .ve 0 }

/-- The MN of core 0, whose turn it is and whose row accepts every tag. -/
def mnTurn (f : Mn → Mn) : State :=
  let s := State.reset.withRow true 0
  { s.setMn 0 (f (s.mn 0)) with actor := .mn 0 }

/-- The operands that some reads give. -/
def found (l : List Read) : List Operand := l.filterMap fun r => match r with
  | .got o => some o
  | _ => none

def tok (d : BitVec 512) (tag : BitVec 3) : Token := { data := d, tag := tag, rnd := 0 }

/-- A VE with tokens in latches 0 and 1 and in port W. -/
def held (t : BitVec 3) (v : Ve) : Ve := { v with latches := [(0, tok 5 t), (1, tok 7 t)], ports := [(3, tok 9 t)] }

/-! ### Hypotheses that can be decided -/

def meetsSeq (i : Instr) (g : BitVec 8 → Bool) (s : State) (n : Nat) : Bool :=
  decide (s.actor = .seq n ∧ i.wf (seqKind n) = true ∧ g (s.seq n).preds = true ∧ (formLegality i = .supervisor → (s.seq n).super = true))

def meetsVe (i : Instr) (g : BitVec 8 → Bool) (s : State) (c : Nat) : Bool :=
  decide (s.actor = .ve c ∧ i.wf .ve = true ∧ g (s.ve c).preds = true)

def meetsMn (i : Instr) (g : BitVec 8 → Bool) (s : State) (c : Nat) : Bool :=
  decide (s.actor = .mn c ∧ i.wf .mn = true ∧ g (s.mn c).preds = true)

def meetsFinds (s : State) (c : Nat) (reads : List Read) (r : BitVec 4) (ops : List Operand) : Bool :=
  decide (reads = ops.map .got ∧ s.routeStall c r = false ∧ (∀ o ∈ ops, o.real = true → isMarker o.tok = false) ∧
    ∀ o ∈ ops, o.real = true → (s.veRow c).tags.getLsbD o.tok.tag.toNat = true)

theorem seqRuns_iff {i : Instr} {g : BitVec 8 → Bool} {s : State} {n : Nat} : SeqRuns i g s n ↔ meetsSeq i g s n = true := by
  simp only [meetsSeq, decide_eq_true_eq]
  exact ⟨fun h => ⟨h.1, h.2, h.3, h.4⟩, fun h => ⟨h.1, h.2.1, h.2.2.1, h.2.2.2⟩⟩

theorem veRuns_iff {i : Instr} {g : BitVec 8 → Bool} {s : State} {c : Nat} : VeRuns i g s c ↔ meetsVe i g s c = true := by
  simp only [meetsVe, decide_eq_true_eq]
  exact ⟨fun h => ⟨h.1, h.2, h.3⟩, fun h => ⟨h.1, h.2.1, h.2.2⟩⟩

theorem mnRuns_iff {i : Instr} {g : BitVec 8 → Bool} {s : State} {c : Nat} : MnRuns i g s c ↔ meetsMn i g s c = true := by
  simp only [meetsMn, decide_eq_true_eq]
  exact ⟨fun h => ⟨h.1, h.2, h.3⟩, fun h => ⟨h.1, h.2.1, h.2.2⟩⟩

theorem finds_iff {s : State} {c : Nat} {reads : List Read} {r : BitVec 4} {ops : List Operand} :
    Finds s c reads r ops ↔ meetsFinds s c reads r ops = true := by
  simp only [meetsFinds, decide_eq_true_eq]
  exact ⟨fun h => ⟨h.1, h.2, h.3, h.4⟩, fun h => ⟨h.1, h.2.1, h.2.2.1, h.2.2.2⟩⟩

/-- Where an access of sequencer `n` leads. -/
def home (s : State) (n : Nat) (x : Access) : Target :=
  match s.resolve (s.seqIssuer n).cluster (s.seqIssuer n) x.ea x.align (opNeed x.op) with
  | .ok t => t
  | .error _ => { chip := 0, la := 0, ver := false }

def meetsOpen (s : State) (n : Nat) (x : Access) (t : Target) : Bool :=
  decide (s.copyHolds n = false ∧ (s.resolve (s.seqIssuer n).cluster (s.seqIssuer n) x.ea x.align (opNeed x.op)).toOption = some t ∧
  t.chip = s.chipId ∧ (x.hbmOnly = true → inHbm t.la = true) ∧ s.overlaps (s.seqIssuer n) (some t) x.ea (opWidth x.op) = false ∧
  s.nearOverlap (s.seqIssuer n) t x.op = false ∧ s.pageParked (s.seqIssuer n) x.ea = false ∧ s.scratch.post = false ∧
  s.homeRefusal t (s.seqIssuer n).part x.op = none ∧ look none s.mem.held (lineOf t.la) = none ∧ s.mem.chain.contains (lineOf t.la) = false ∧
  s.egressWaits (s.seqIssuer n) t s.mem.flight = false ∧ s.arriveWaits t x.op = false)

theorem toOption_iff {α : Type} {e : Except (BitVec 8) α} {t : α} : e = .ok t ↔ e.toOption = some t := by
  cases e <;> simp [Except.toOption]

theorem open_iff {s : State} {n : Nat} {x : Access} {t : Target} : Open s n x t ↔ meetsOpen s n x t = true := by
  simp only [meetsOpen, decide_eq_true_eq]
  exact ⟨fun h => ⟨h.1, toOption_iff.mp h.2, h.3, h.4, h.5, h.6, h.7, h.8, h.9, h.10, h.11, h.12, h.13⟩,
    fun ⟨h1, h2, h3, h4, h5, h6, h7, h8, h9, h10, h11, h12, h13⟩ =>
      ⟨h1, toOption_iff.mpr h2, h3, h4, h5, h6, h7, h8, h9, h10, h11, h12, h13⟩⟩

def meetsReaches (s : State) (n : Nat) (x : Access) (t : Target) : Bool := meetsOpen s n x t && decide ((s.seq n).wait = none)

theorem reaches_iff {s : State} {n : Nat} {x : Access} {t : Target} : Reaches s n x t ↔ meetsReaches s n x t = true := by
  simp only [meetsReaches, Bool.and_eq_true, decide_eq_true_eq]
  exact ⟨fun h => ⟨open_iff.mp h.toOpen, h.begins⟩, fun h => { toOpen := open_iff.mpr h.1, begins := h.2 }⟩

theorem mayRelease_iff {s : State} {n : Nat} {o : BitVec 2} {x : BitVec 3} :
    s.mayRelease n o x ↔ (o.getLsbD 1 = true → s.quiet (.seq n) x.toNat = true) := Iff.rfl

/-! ### Statements about a sequencer and a VE -/

theorem witness_IntegerLanesAtSequencer :
    (∀ e ∈ laneForms 7 1 2 3 0 false 3, SeqRuns e.1 (guarded 7) (seqTurn 0 {}) 0) ∧
    (∀ e ∈ laneForms1 7 1 3 0 0, SeqRuns e.1 (guarded 7) (seqTurn 0 {}) 0) ∧
    SeqRuns (.div 1 2 3 7 false 0) (guarded 7) (seqTurn 0 {}) 0 ∧ SeqRuns (.rem 1 2 3 7 true 3) (guarded 7) (seqTurn 31 {}) 31 := by
  simp only [seqRuns_iff]
  decide +kernel

/-- A VE that reads latch 0 and port W. -/
def veTwo (t : BitVec 3) : State := veTurn (held t)
def opsTwo (t : BitVec 3) : List Operand := found [(veTwo t).readSel 0 0, (veTwo t).readSel 0 11]
def opsOne (t : BitVec 3) : List Operand := found [(veTwo t).readSel 0 0]

/-- It finds its operands, whatever the tag. -/
abbrev FindsTwo (t : BitVec 3) : Prop :=
  Finds (veTwo t) 0 [(veTwo t).readSel 0 0, (veTwo t).readSel 0 11] 0 (opsTwo t) ∧ Finds (veTwo t) 0 [(veTwo t).readSel 0 0] 0 (opsOne t)

theorem findsTwo : ∀ t : BitVec 3, t ≠ 7 → FindsTwo t := by
  simp only [FindsTwo, finds_iff]
  decide +kernel

theorem witness_IntegerLanesAtVe :
    (∀ e ∈ laneForms 7 0 11 2 0 false 2, VeRuns e.1 (guarded 7) (veTwo 0) 0) ∧
    (∀ e ∈ laneForms1 7 0 2 0 0, VeRuns e.1 (guarded 7) (veTwo 6) 0) ∧ FindsTwo 0 ∧ FindsTwo 6 := by
  refine and_assoc.mp ⟨?_, findsTwo 0 (by decide), findsTwo 6 (by decide)⟩
  simp only [veRuns_iff]
  decide +kernel

theorem witness_ImmediatesAtSequencer :
    (∀ e ∈ immediateForms 1 3 0xFFFF, SeqRuns e.1 always (seqTurn 0 {}) 0) ∧ SeqRuns (.movi 3 0x8000) always (seqTurn 0 {}) 0 ∧
    SeqRuns (.lea 1 2 3 6 0x100) always (seqTurn 0 {}) 0 ∧ SeqRuns (.sel 1 2 3 0 7 0) (guarded 7) (seqTurn 0 {}) 0 := by
  simp only [seqRuns_iff]
  decide +kernel

theorem witness_ImmediatesAtVe : FindsTwo 0 ∧
    (∀ e ∈ immediateForms 0 3 0xFFFF, VeRuns e.1 always (veTwo 0) 0) ∧ VeRuns (.movi 3 0x8000) always (veTwo 0) 0 ∧
    VeRuns (.lea 0 11 3 6 0x100) always (veTwo 0) 0 ∧ VeRuns (.sel 0 11 3 0 7 0) (guarded 7) (veTwo 0) 0 := by
  refine ⟨findsTwo 0 (by decide), ?_⟩
  simp only [veRuns_iff]
  decide +kernel

theorem witness_PredicateForms :
    (∀ w ∈ [(0x42800000 : Word), 0x42080000, 0x42008000, 0x42000001], w.extractLsb' 24 8 = 0x42#8 ∧
      (w.getLsbD 23 = true ∨ w.getLsbD 19 = true ∨ w.getLsbD 15 = true ∨ w.extractLsb' 0 2 ≠ 0#2)) ∧
    FindsTwo 6 ∧ FindsTwo 2 ∧
    SeqRuns (.cmp 1 2 8 7 3 3) (guarded 7) (seqTurn 0 {}) 0 ∧ VeRuns (.cmp 0 11 7 7 7 0) (guarded 7) (veTwo 6) 0 ∧
    VeRuns (.fcmp 0 11 0 7 3 true) (guarded 7) (veTwo 2) 0 ∧
    SeqRuns (.plog 1 2 3 7 6) (guarded 7) (seqTurn 0 {}) 0 ∧ VeRuns (.plog 1 2 7 7 0) (guarded 7) (veTwo 0) 0 ∧
    MnRuns (.plog 1 2 3 7 5) (guarded 7) (mnTurn id) 0 ∧ SeqRuns (.prd 3 7) (guarded 7) (seqTurn 0 {}) 0 ∧
    SeqRuns (.pwr 1 2 7) (guarded 7) (seqTurn 0 {}) 0 := by
  refine ⟨by simp, findsTwo 6 (by decide), findsTwo 2 (by decide), ?_⟩
  simp only [seqRuns_iff, veRuns_iff, mnRuns_iff]
  decide +kernel

theorem witness_IterationCounters :
    ((0x45040000 : Word).extractLsb' 24 8 = 0x45#8 ∧ (0x45040000 : Word).extractLsb' 18 6 ≠ 0#6) ∧
    VeRuns (.itset 3 0xFFFF) always (veTwo 0) 0 ∧ MnRuns (.itset 0 0) always (mnTurn id) 0 ∧
    VeRuns (.itnxt 3 7 7) (guarded 7) (veTwo 0) 0 ∧ MnRuns (.itnxt 0 0 7) (guarded 7) (mnTurn id) 0 ∧
    ((veTwo 0).actor = .ve 0 ∧ Instr.wf .ve (.itnxt 0 0 0) = true ∧ guarded 0 ((veTwo 0).ve 0).preds = false) ∧
    ((mnTurn id).actor = .mn 0 ∧ Instr.wf .mn (.itnxt 0 0 0) = true ∧ guarded 0 ((mnTurn id).mn 0).preds = false) := by
  refine ⟨by decide, ?_⟩
  simp only [veRuns_iff, mnRuns_iff]
  decide +kernel

theorem witness_RoundsAndTags : FindsTwo 0 ∧
    VeRuns (.rndget 2 0 7) (guarded 7) (veTwo 0) 0 ∧ VeRuns (.rndset 0 7) (guarded 7) (veTwo 0) 0 ∧
    VeRuns (.mkemit 2 0 7 0) (guarded 7) (veTwo 0) 0 ∧ VeRuns (.mktst 11 0 7 2) (guarded 7) (veTwo 0) 0 ∧
    VeRuns (.tagset 0 2 0 7 6) (guarded 7) (veTwo 0) 0 ∧ VeRuns (.tagchk 0 0 7 5) (guarded 7) (veTwo 0) 0 ∧
    VeRuns (.tagget 0 2 0 7) (guarded 7) (veTwo 0) 0 ∧ (veTwo 0).routeStall 0 0 = false ∧
    (veTwo 0).readSel 0 0 = .got ⟨0, tok 5 0, true, false⟩ ∧ (veTwo 0).checkTags 0 [⟨0, tok 5 0, true, false⟩] = none ∧
    reservedMarker (tok 5 0) = false ∧
    (let s := veTurn fun v => { v with ports := [(3, some (tok 9 7))] }
     s.readSel 0 11 = .got ⟨11, tok 9 7, true, true⟩ ∧ reservedMarker (tok 9 7) = true ∧ s.routeStall 0 0 = false ∧
     VeRuns (.mktst 11 0 7 2) (guarded 7) s 0 ∧ VeRuns (.tagchk 11 0 7 5) (guarded 7) s 0 ∧ VeRuns (.tagget 11 2 0 7) (guarded 7) s 0) := by
  refine ⟨findsTwo 0 (by decide), ?_⟩
  simp only [veRuns_iff]
  decide +kernel

/-! ### Statements about floating point, conversions and stateful rows -/

theorem witness_FloatLanesAtVe : FindsTwo 1 ∧ FindsTwo 2 ∧
    (∀ e ∈ floatForms2 7 0 11 2 0 false 3 0, VeRuns e.1 (guarded 7) (veTwo 1) 0) ∧
    (∀ e ∈ floatForms3 7 0 11 8 0 true 0, VeRuns e.1 (guarded 7) (veTwo 2) 0) ∧
    (∀ e ∈ floatForms1 7 0 2 0 true 1, VeRuns e.1 (guarded 7) (veTwo 2) 0) := by
  refine ⟨findsTwo 1 (by decide), findsTwo 2 (by decide), ?_⟩
  simp only [veRuns_iff]
  decide +kernel

theorem witness_CrossLaneForms : FindsTwo 2 ∧
    (∀ e ∈ treeForms 7 0 2 0 true 0, VeRuns e.1 (guarded 7) (veTwo 2) 0) ∧ VeRuns (.vperm 0 11 2 0) always (veTwo 2) 0 ∧
    VeRuns (.vbcast 0 2 2 15) always (veTwo 2) 0 ∧ VeRuns (.vslide 0 11 2 2 15) always (veTwo 2) 0 := by
  refine ⟨findsTwo 2 (by decide), ?_⟩
  simp only [veRuns_iff]
  decide +kernel

/-- CVT and the scaled conversions: parts that exist and one that does not, a source that fits and one that does not. -/
theorem witness_ConversionForms : FindsTwo 0 ∧ FindsTwo 1 ∧ FindsTwo 3 ∧
    (fmtOfTag 0 = some .i32 ∧ fmtOfTag 1 = some .fp32 ∧ fmtOfTag 3 = some .e4m3 ∧ partExists 16 64 3 ∧ ¬ partExists 16 16 1) ∧
    (∀ q : BitVec 2, VeRuns (.cvt 0 3 2 0 7 q false 0) (guarded 7) (veTwo 1) 0) ∧ VeRuns (.cvt 0 0 2 0 7 1 false 0) (guarded 7) (veTwo 1) 0 ∧
    (∀ e ∈ scaledForms 0 11 2 0 0 false 0 true 0, VeRuns e.1 always (veTwo 1) 0 ∧ VeRuns e.1 always (veTwo 3) 0) ∧
    VeRuns (.cvti 0 11 2 0 7 true 0) (guarded 7) (veTwo 0) 0 := by
  refine ⟨findsTwo 0 (by decide), findsTwo 1 (by decide), findsTwo 3 (by decide),
    ⟨by decide, by decide, by decide, by simp [partExists], by simp [partExists]⟩, ?_⟩
  simp only [veRuns_iff]
  decide +kernel

theorem witness_PackingAndOrdering : FindsTwo 2 ∧ FindsTwo 5 ∧ FindsTwo 6 ∧
    VeRuns (.absmx 0 11 2 0 7 1) (guarded 7) (veTwo 2) 0 ∧ VeRuns (.pk4 0 11 2 0 7 0) (guarded 7) (veTwo 6) 0 ∧
    VeRuns (.pk4 0 11 2 0 7 0) (guarded 7) (veTwo 5) 0 ∧ VeRuns (.upk4 0 2 0 7 true) (guarded 7) (veTwo 5) 0 ∧
    VeRuns (.upk4 0 2 0 7 false) (guarded 7) (veTwo 6) 0 ∧ VeRuns (.otjn 0 11 2 0 7 true 4) (guarded 7) (veTwo 2) 0 ∧
    (veTwo 2).quiet (.ve 0) 4 = true ∧ (opnd (opsTwo 5) 0).tag = 5 ∧ (opnd (opsOne 6) 0).tag = 6 := by
  refine ⟨findsTwo 2 (by decide), findsTwo 5 (by decide), findsTwo 6 (by decide), ?_⟩
  simp only [veRuns_iff]
  decide +kernel

/-- A VE with tokens in ports N and W, some inputs of which have brought their marker. -/
def veRound (seen : BitVec 8) (w : Token) : State := veTurn fun v => { v with seen := put 0 [] 0 seen, ports := [(0, tok 5 0), (3, w)] }

/-- The three firings of a round: data on both inputs, the last marker, and the firing that forwards it. -/
theorem witness_StatefulRows :
    (∀ s ∈ [veRound 0 (tok 9 0), veRound 1 (marker 1 0), veRound 3 (tok 9 0)],
      (∀ e ∈ statefulForms 8 11 7 0 7 2 false 0, VeRuns e.1 (guarded 7) s 0) ∧ VeRuns (.fma 8 11 7 0 7 true false 0) (guarded 7) s 0 ∧
      s.routeStall 0 0 = false) ∧
    (veRound 0 (tok 9 0)).readSel 0 8 = .got ⟨8, tok 5 0, true, true⟩ ∧ (veRound 0 (tok 9 0)).readSel 0 11 = .got ⟨11, tok 9 0, true, true⟩ ∧
    isMarker (tok 9 0) = false ∧ ((veRound 0 (tok 9 0)).veRow 0).tags.getLsbD 0 = true ∧
    (veRound 1 (marker 1 0)).readSel 0 11 = .got ⟨11, marker 1 ((veRound 1 (marker 1 0)).ve 0).rnd, true, true⟩ := by
  simp only [veRuns_iff]
  decide +kernel

theorem witness_TargetsOfAResult :
    ((veTurn id).ve 0).sd = none ∧ ((veTurn fun v => { v with sd := some (tok 5 0) }).ve 0).sd ≠ none ∧
    (let s := (veTurn id).setIsland 0 { desc := 0x48000000, enabled := true }
     isMarker (tok 5 0) = false ∧ descConv (s.island ((s.islandOf 0).getD 0)).desc ≠ 0x7F ∧ (s.islandOf 0).isSome = true ∧
       conversionTag (s.veRow 0).tags (tok 5 0).tag = some 0) ∧
    (veTurn id).route 0 1 = .inside 1 3 ∧ (veTurn id).route 0 0 = .stream 0 ∧
    ({ veTurn id with brass := { siOf := [(0, 1)] } } : State).route 0 0 = .dropped ∧ (veTurn id).route 0 3 = .nowhere := by
  decide +kernel

/-! ### Statements about memory -/

/-- A supervisor sequencer that may touch tile 0 of its cluster, with an address of line 1 in G[1], `v` in G[2] and `w` in G[3]. -/
def tileTurn (v w : W64) (f : Mem → Mem) : State :=
  let s := seqTurn 0 { super := true, g := [(1, 0xA000000000000040), (2, v), (3, w), (15, 0xA000000000000080)] }
  { s with mem := f s.mem }

/-- A sequencer that reads and writes HBM through a page of 128 MiB at address 0, which has been cleared under key 0. -/
def hbmTurn (a v w : W64) (f : Mem → Mem) : State :=
  let s := seqTurn 0 { g := [(1, a), (2, v), (3, w)] }
  { s with mem := f { s.mem with tlb := [⟨0, 0, 0, 2, 0xF400000000000000⟩], clean := [(0, true), (1, true)], keyOf := [(0, 1), (1, 1)] }
           sec := { s.sec with keys := [(0, { v := true })] } }

/-- An access to the line of `tileTurn`. -/
def at1 (op : MemOp) (align : Nat) (st : Bool := false) : Access := { ea := 0xA000000000000040, op := op, align := align, status := st }

/-- The access reaches its home at once. -/
abbrev Arrives (s : State) (x : Access) : Prop := Reaches s 0 x (home s 0 x)

/-- LDV with the version that stands, and with the furthest one that it has passed. -/
theorem witness_LoadsAtSequencer :
    (let s := tileTurn 0 0 id
     SeqRuns (.ld 1 4 1 4 3 0) always s 0 ∧ SeqRuns (.ldl 1 4 1 4 3 0) always s 0 ∧ SeqRuns (.vrd 1 4 1 4) always s 0 ∧ s.mayRelease 0 1 4 ∧
     Arrives s (at1 (.load 8) 8) ∧ Arrives s (at1 .readVer 64)) ∧
    ∀ k ∈ [0, 0x8001],
      let v := BitVec.ofNat 16 k
      let s := tileTurn (v.setWidth 64) 0 id
      let x := at1 (.loadVer 8 v) 8 true
      SeqRuns (.ldv 1 2 4 1 4 3 true 6) always s 0 ∧ s.mayRelease 0 1 4 ∧ Arrives s x ∧
      (s.foundVer (home s 0 x) - v).toNat < 32768 := by
  simp only [seqRuns_iff, mayRelease_iff, Arrives, reaches_iff]
  decide +kernel

/-- STV with the next version, and with versions passed: the one that stands, the furthest and the nearest. -/
theorem witness_StoresAtSequencer :
    (let s := tileTurn 0 0 id
     SeqRuns (.st 1 2 2 4 3 0) always s 0 ∧ SeqRuns (.zrol 1 2 4) always s 0 ∧ s.mayRelease 0 2 4 ∧
     Arrives s (at1 (.store 8 0) 8) ∧ Arrives s (at1 .zero 64)) ∧
    ∀ k ∈ [1, 0, 0x8001, 0xFFFF],
      let v := BitVec.ofNat 16 k
      let s := tileTurn 7 (v.setWidth 64) id
      let x := at1 (.storeVer 8 v 7) 8 true
      SeqRuns (.stv 1 2 3 2 4 3 true 6) always s 0 ∧ s.mayRelease 0 2 4 ∧ Arrives s x ∧ s.foundVer (home s 0 x) = 0 ∧
      (v = 1 ∨ v = 0 ∨ 32768 < (v - 0#16).toNat) ∧ (home s 0 x).ver = true := by
  simp only [seqRuns_iff, mayRelease_iff, Arrives, reaches_iff]
  decide +kernel

/-- A comparison that holds and one that fails for MCAS; a value that AMMAX stores and one that it does not. -/
theorem witness_AtomicsAtSequencer :
    (∀ e ∈ atomicForms 1 2 3 3 4 2 true 6,
      let s := tileTurn 9 0 id
      SeqRuns e.1 always s 0 ∧ s.mayRelease 0 3 4 ∧ Arrives s (at1 (.atom e.2.1 e.2.2.1 9 0) e.2.2.1 true)) ∧
    (∀ k ∈ [0, 1],
      let v : W64 := BitVec.ofNat 64 k
      let s := tileTurn v v id
      SeqRuns (.ammax 1 2 3 3 4 3 false 0) always s 0 ∧ SeqRuns (.acas 1 2 3 3 4 3 false 0) always s 0 ∧ s.mayRelease 0 3 4 ∧
      Arrives s (at1 (.atom .maxu 8 v 0) 8) ∧ Arrives s (at1 (.atom .cas 8 v v) 8)) ∧
    (∀ k ∈ [0, 1],
      let v : W64 := BitVec.ofNat 64 k
      let s := hbmTurn 0x40 v 0 id
      let x : Access := { ea := 0x40, op := .near (.mcas 2 ((s.seq 0).words 2 2) ((s.seq 0).words 4 2)), align := 16, hbmOnly := true }
      SeqRuns (.mcas 1 2 4 3 4 4 false 0) always s 0 ∧ s.mayRelease 0 3 4 ∧ Arrives s x ∧
      s.homeRefusal (home s 0 x) (s.seqIssuer 0).part (.load 8) = none) := by
  simp only [seqRuns_iff, mayRelease_iff, Arrives, reaches_iff]
  decide +kernel

/-- Arrivals that leave one pending, that end the phase, and one too many; a wait for the phase before and for the furthest one over. -/
theorem witness_BarriersAndReclaim :
    (∀ k ∈ [1, 2, 3],
      let v : W64 := BitVec.ofNat 64 k
      let s := tileTurn v 0 fun m => { m with bytes := [(tileBase + 0x44, 2), (tileBase + 0x48, 2)] }
      let x := at1 (.arrive v) 64 true
      SeqRuns (.abar 1 2 3 3 4 0 true 6) always s 0 ∧ SeqRuns (.abar 1 2 3 3 4 1 true 6) always s 0 ∧ s.mayRelease 0 3 4 ∧
      Arrives s x ∧ Arrives s (at1 (.expect v) 64 true) ∧ (home s 0 x).la % 64 = 0 ∧ (s.mem.read ((home s 0 x).la + 4) 4).toNat = 2) ∧
    (∀ k ∈ [0xFFFF, 0x8000],
      let v := BitVec.ofNat 16 k
      let s := tileTurn (v.setWidth 64) 0 id
      let x := at1 (.phase v) 64
      SeqRuns (.abar 1 2 3 3 4 2 false 0) always s 0 ∧ s.mayRelease 0 3 4 ∧ Arrives s x ∧ (home s 0 x).la % 64 = 0 ∧
      ((s.mem.read (home s 0 x).la 2).setWidth 16 - (v + 1)).toNat < 32768) ∧
    (let s := tileTurn 9 0 id
     SeqRuns (.recl 1 2 3) always s 0 ∧ Arrives s (at1 (.reclaim 9) 64)) := by
  simp only [seqRuns_iff, mayRelease_iff, Arrives, reaches_iff]
  decide +kernel

/-- A list at 0x40 that is full, one that is empty, and one with its tail at 0xC0; the node is at 0x80. -/
theorem witness_EnqueueNode : ∀ l ∈ [[], [(0x54, (1 : Byte))], [(0x48, 0xC0), (0x54, 1)]],
    let s := hbmTurn 0x40 0x80 0 fun m => { m with bytes := l }
    let x : Access := { ea := 0x40, op := .near (.enq 0x80), align := 64, status := true, hbmOnly := true }
    let t := home s 0 x
    let u : Nmu := { page := t, base := 0x40 }
    SeqRuns (.enq 1 2 3 3 4 true 6) always s 0 ∧ s.mayRelease 0 3 4 ∧ Arrives s x ∧ s.homeRefusal t 0 (.load 8) = none ∧
    ((s.mem.read (t.la + 20) 4).toNat = l.length.min 1 ∧ (s.mem.read (t.la + 16) 4).toNat = 0 ∧
      ((s.mem.read (t.la + 8) 8).setWidth 64 = (if l.length = 2 then 0xC0#64 else 0))) ∧
    ∀ a ∈ [0x80, 0xC0],
      let z : Target := { t with la := a }
      u.at (BitVec.ofNat 64 a) = some z ∧ lineOf z.la ≠ lineOf t.la ∧ s.lineHeld z = false ∧ s.homeRefusal z 0 (.load 8) = none ∧
        s.mem.chain.contains (lineOf z.la) = false ∧ z.la % 8 = 0 ∧ inHbm z.la = true := by
  simp only [seqRuns_iff, mayRelease_iff, Arrives, reaches_iff]
  decide +kernel

/-- What makes a control of CHASE legal. -/
def chaseLegal (c : W64) : Bool :=
  c.extractLsb' 24 8 == 0 && c.extractLsb' 6 2 == 0 && (c.setWidth 5 : BitVec 5) != 0 && decide ((c.setWidth 5 : BitVec 5).toNat ≤ 16)

/-- Controls that are refused (no hop, seventeen, reserved bits); the null pointer; a key found, a list that ends, and hops from a node
that links on. -/
theorem witness_ChaseList :
    (∀ k ∈ [0, 17, 0x41, 0x1000001],
      let c : W64 := BitVec.ofNat 64 k
      SeqRuns (.chase 1 2 3 1 4 true 6) always (hbmTurn 0x40 c 0 id) 0 ∧
      (hbmTurn 0x40 c 0 id).mayRelease 0 1 4 ∧ chaseLegal c = false) ∧
    (SeqRuns (.chase 1 2 3 1 4 true 6) always (hbmTurn 0 0x10 0 id) 0 ∧ (hbmTurn 0 0x10 0 id).mayRelease 0 1 4 ∧ chaseLegal 0x10 = true) ∧
    ∀ e ∈ [((0x21 : W64), ([] : Tab Byte)), (0x100000021, []), (0x100000021, [(0x40, 8)]), (1, [(0x40, 8)])],
      let s := hbmTurn 0x40 e.1 0 fun m => { m with bytes := e.2 }
      let x : Access := { ea := 0x40, op := .near (.chase e.1), align := 1, status := true, hbmOnly := true }
      let t := home s 0 x
      let u : Nmu := { page := t, base := 0x40 }
      SeqRuns (.chase 1 2 3 1 4 true 6) always s 0 ∧ s.mayRelease 0 1 4 ∧ chaseLegal e.1 = true ∧ Arrives s x ∧ e.1.extractLsb' 8 16 = 0 ∧
      u.at 0x40 = some t ∧ u.field 0x40 = some t ∧ s.lineHeld t = false ∧ s.homeRefusal t 0 (.load 8) = none ∧
      s.mem.chain.contains (lineOf t.la) = false ∧ s.versionsStand t ∧
      ((s.mem.read t.la 8 = 0) = (e.2.length = 0)) := by
  simp only [seqRuns_iff, mayRelease_iff, Arrives, reaches_iff, eq_iff_iff, State.versionsStand]
  decide +kernel

/-- A VE with operands in latch 0, port W and X, and room for one more entry in its reply queue. -/
def veMem (link : Bool) : State := veTurn fun v => { held 0 v with
  x := some (tok 3 0), linkValid := link, replies := List.replicate 7 { num := 0, tok := tok 0 0, wantsX := true, left := 1 } }

theorem witness_MemoryRowsIssue :
    (∀ e ∈ memoryRows (veMem false) 0 0 11 15 0 0 3 0 2 0 false, VeRuns e.1 always (veMem false) 0 ∧ (veMem false).veMustWait 0 true e.2.2.1 e.2.2.2.1 = false ∧
      Finds (veMem false) 0 e.2.1 0 (found e.2.1)) ∧
    (VeRuns (.ldl 11 15 0 0 6 255) always (veMem false) 0 ∧ VeRuns (.ldl 11 15 0 0 6 255) always (veMem true) 0 ∧
      (veMem true).veMustWait 0 true 0 0 = false ∧ (∀ l ∈ [true, false], ∀ y ∈ ((veMem l).ve 0).replies, y.link = true → y.left = 0) ∧
      Finds (veMem true) 0 [] 0 [] ∧ Finds (veMem false) 0 [(veMem false).readSel 0 11] 0 (found [(veMem false).readSel 0 11])) ∧
    VeRuns (.pref 11 255) always (veMem false) 0 ∧ (veMem false).veMustWait 0 false 0 0 = false ∧
    SeqRuns (.pref 1 0) always (tileTurn 0 0 id) 0 := by
  simp only [seqRuns_iff, veRuns_iff, finds_iff]
  decide +kernel

/-! ### Statements about a matrix node -/

/-- An MN whose slot 31 has these claims and is pending or not, and an activation token. -/
def mnSlot (claims : BitVec 4) (pend : Bool) (state : BitVec 2) : State :=
  mnTurn fun m => { m with slots := [(31, { claims := claims, pend := pend, state := state })], act := some (tok 5 0) }

theorem witness_OperandSlotForms :
    (∀ w ∈ [(0x92080000 : Word), 0x92001000], w.extractLsb' 24 8 = 0x92#8 ∧ (w.extractLsb' 19 5 ≠ 0#5 ∨ w.extractLsb' 12 4 ≠ 0#4)) ∧
    (∀ w ∈ [(0x92100000 : Word), 0x92000040], w.extractLsb' 24 8 = 0x92#8 ∧ (w.extractLsb' 20 4 ≠ 0#4 ∨ w.extractLsb' 6 6 ≠ 0#6)) ∧
    (∀ c ∈ [(14 : BitVec 4), 15], MnRuns (.wclm 7 31) (cpHolds 7) (mnSlot c false 2) 0) ∧
    MnRuns (.wclm 7 31) (cpHolds 7) (mnSlot 0 false 1) 0 ∧ ((mnSlot 0 false 1).mn 0).slot 31 = { state := 1 } ∧
    MnRuns (.wclm 7 31) (cpHolds 7) (mnSlot 0 true 2) 0 ∧ (((mnSlot 0 true 2).mn 0).slot 31).pend = true ∧
    (∀ c ∈ [(0 : BitVec 4), 1], MnRuns (.wrel 7 31) (cpHolds 7) (mnSlot c false 2) 0 ∧ (((mnSlot c false 2).mn 0).slot 31).claims = c) ∧
    (∀ t : BitVec 2, MnRuns (.wstatMn 0 t 31) (cpHolds 7) (mnSlot 0 true 2) 0) ∧
    SeqRuns (.wstatSeq 1 2 true 31) always (seqTurn 0 { g := [(1, 1535)] }) 0 ∧
    SeqRuns (.wstatSeq 1 2 false 0) always (seqTurn 0 { g := [(1, 1536)] }) 0 := by
  refine ⟨by simp, by simp, ?_⟩
  simp only [seqRuns_iff, mnRuns_iff]
  decide +kernel

theorem witness_DecodeAndScaleForms :
    (let s := mnSlot 1 false 2
     MnRuns (.pxd 31 true true 7) (cpHolds 7) s 0 ∧ MnRuns (.ptld 31 0 true 7) (cpHolds 7) s 0 ∧ ((s.mn 0).slot 31).claims ≠ 0 ∧
     (s.mn 0).queue = [] ∧ (s.mn 0).ptld = .none ∧ s.kernelBars 0 ((s.mn 0).slot 31).kh = false ∧
     (MnRuns (.ldrs 3 false 7) (cpHolds 7) s 0 ∧ MnRuns (.ldcs 0 true 7) (cpHolds 7) s 0 ∧ (s.mn 0).act = some (tok 5 0) ∧
       (s.mn 0).actBack = none ∧ (s.mn 0).actSteering = false ∧ isMarker (tok 5 0) = false ∧ (s.mnRow 0).tags.getLsbD 0 = true)) ∧
    (MnRuns (.pxd 31 true true 7) (cpHolds 7) (mnSlot 0 false 2) 0 ∧ (((mnSlot 0 false 2).mn 0).slot 31).claims = 0) ∧
    (∀ j ∈ [(1 : BitVec 8), 2, 3],
     let s := mnTurn fun m => { m with slots := [(31, { claims := 1 })], ptld := .done, act := some (marker j 0),
                                       queue := List.replicate 2 { slot := 0, buf := false, rst := false } }
     MnRuns (.pxd 31 true true 7) (cpHolds 7) s 0 ∧ ((s.mn 0).queue.filter fun e => e.buf != true).length = 2 ∧
     MnRuns (.ptld 31 0 true 7) (cpHolds 7) s 0 ∧ (s.mn 0).ptld = .done ∧
     MnRuns (.ldrs 3 false 7) (cpHolds 7) s 0 ∧ (s.mn 0).act = some (marker j 0) ∧ (s.mn 0).actBack = none ∧ (s.mn 0).actSteering = false ∧
     isMarker (marker j 0) = true ∧ reservedMarker (marker j 0) = decide (j = 3)) := by
  simp only [mnRuns_iff]
  decide +kernel

/-- An MN ready for an MMA of a pair of formats, with its buffer filled, handle 0 bound to slot 3 and an activation of tag `t`. -/
def mnReady (fmt t : BitVec 3) (i32 : Bool) : State :=
  mnTurn fun m => { m with act := some (tok 5 t), handles := [(0, { slot := some 3, i32 := i32 })],
                           buffers := [(0, { fmt := some fmt, nsym := 4096 })] }

/-- The pair of I8, and each pair that opens a block, with the first block and the last sum that fits. -/
theorem witness_MultiplyAccumulate :
    (∀ y : BitVec 3, y ≠ 7 →
      let p := pairRow y
      let s := mnReady p.wf.tag 0 p.i32
      let m := s.mn 0
      MnRuns (.mma 8 0 y false false false 0 true 7) (cpHolds 7) s 0 ∧ (y.toNat < 6 → MnRuns (.mma 8 0 y false false true 0 true 7) (cpHolds 7) s 0) ∧
      m.act = some (tok 5 0) ∧ m.actBack = none ∧ m.actSteering = false ∧ isMarker (tok 5 0) = false ∧
      (s.mnRow 0).tags.getLsbD 0 = true ∧ m.span false (spanEnd y false) = .ready ∧ m.occupied = false ∧
      s.kernelBars 0 (m.buffer false).kh = false ∧ (m.buffer false).fmt = some p.wf.tag ∧ m.handle 0 = { slot := some 3, i32 := p.i32 } ∧
      m.block 0 0 = none) ∧
    (∀ j ∈ [(1 : BitVec 8), 2, 3],
     let s := mnTurn fun m => { m with act := some (marker j 0) }
     MnRuns (.mma 8 0 0 false false false 0 false 7) (cpHolds 7) s 0 ∧ (s.mn 0).act = some (marker j 0) ∧ (s.mn 0).actBack = none ∧
     (s.mn 0).actSteering = false ∧ isMarker (marker j 0) = true ∧ reservedMarker (marker j 0) = decide (j = 3)) := by
  simp only [mnRuns_iff]
  decide +kernel

theorem witness_AccumulatorForms :
    ∀ s ∈ [mnTurn id, mnReady 1 1 false], ((s.mn 0).handle 0 = {} ∨ (s.mn 0).handle 0 = { slot := some 3, i32 := false }) ∧
      MnRuns (.prom 0 7) (cpHolds 7) s 0 ∧ MnRuns (.adrn 0 3 false true 0 true 7) (cpHolds 7) s 0 ∧
      MnRuns (.adrn 0 1 true false 0 true 7) (cpHolds 7) s 0 ∧ MnRuns (.azer 0 7) (cpHolds 7) s 0 ∧ MnRuns (.arel 0 7) (cpHolds 7) s 0 ∧
      (s.mn 0).lost.contains 3 = false := by
  simp only [mnRuns_iff]
  decide +kernel

/-! ### Statements about control, registers and traps -/

/-- The target at the end of the instruction memory and the first beyond it; an answer that ends a wait and one that does not. -/
theorem witness_ControlTransfers :
    (let s := seqTurn 0 { pc := 0xFFF8, g := [(1, 0xFFFC), (2, 2), (3, 0xFFFE)] }
     SeqRuns (.nop 7) (guarded 7) s 0 ∧
     (SeqRuns (.b 7 1) (condHolds 7) s 0 ∧ Fetchable ((s.seq 0).pc + ((1 : BitVec 20).signExtend 64 <<< 2))) ∧
     (SeqRuns (.b 8 2) (condHolds 8) s 0 ∧ ¬ Fetchable ((s.seq 0).pc + ((2 : BitVec 20).signExtend 64 <<< 2)) ∧ (s.seq 0).unack = false) ∧
     (s.actor = .seq 0 ∧ Instr.wf (seqKind 0) (.b 0 1) = true ∧ condHolds 0 (s.seq 0).preds = false) ∧
     (SeqRuns (.bi 1 7) (guarded 7) s 0 ∧ Fetchable ((s.seq 0).get 1)) ∧ (SeqRuns (.bi 3 7) (guarded 7) s 0 ∧ ¬ Fetchable ((s.seq 0).get 3)) ∧
     (SeqRuns (.loop 2 1) always s 0 ∧ SeqRuns (.loop 0 1) always s 0 ∧ SeqRuns (.loop 2 2) always s 0) ∧
     SeqRuns (.waitt 0xFF) always s 0 ∧ SeqRuns (.idle 7) (guarded 7) s 0 ∧ (s.seq 0).wait = none) ∧
    (let s := tileTurn 0xFFFC 0 fun m => { m with bytes := [(tileBase + 0x80, 4)] }
     let u := tileTurn 0 0 fun m => { m with bytes := [(tileBase + 0x80, 2)] }
     let y : Access := { ea := 0xA000000000000080 - 8, op := .store 8 4, align := 8, noPark := true }
     let x : Access := { ea := 0xA000000000000080, op := .load 8, align := 8 }
     SeqRuns (.call 7 1) (condHolds 7) s 0 ∧ SeqRuns (.calli 2 7) (guarded 7) s 0 ∧ Arrives s y ∧ Fetchable ((s.seq 0).get 2) ∧
     SeqRuns (.ret 7) (guarded 7) s 0 ∧ Arrives s x ∧ Fetchable ((s.mem.read (home s 0 x).la 8).setWidth 64) ∧
     SeqRuns (.ret 7) (guarded 7) u 0 ∧ Arrives u x ∧ ¬ Fetchable ((u.mem.read (home u 0 x).la 8).setWidth 64) ∧ (u.seq 0).unack = false) := by
  simp only [seqRuns_iff, Fetchable, Arrives, reaches_iff]
  decide +kernel

theorem witness_CsrForms :
    (let s := seqTurn 31 { super := true, g := [(2, 0x8000000000000001)] }
     (∀ e ∈ csrValues s 31, SeqRuns (.csrr 1 e.1) always s 31) ∧
     (∀ e ∈ csrWrites (s.seq 31) ((s.seq 31).get 2), (csrValues s 31).any (fun v => v.1 == e.1) = true ∧ SeqRuns (.csrw 1 2 e.1) always s 31 ∧
       SeqRuns (.csrs 1 2 e.1) always s 31 ∧ SeqRuns (.csrc 1 2 e.1) always s 31) ∧
     ∀ j ∈ [Instr.csrw 1 2 0x409, .csrs 1 2 0xC13, .csrc 1 2 0x404, .csrw 1 2 0x002, .csrr 1 0xFFF], SeqRuns j always s 31) ∧
    (let s := seqTurn 0 {}
     ∀ j ∈ [Instr.csrr 1 0x800, .csrw 1 2 0xFFF, .csrs 1 2 0x813, .csrc 1 2 0xC10], SeqRuns j always s 0 ∧ (s.seq 0).super = false ∧
       (s.seq 0).unack = false) := by
  simp only [seqRuns_iff]
  exact ⟨⟨List.all_eq_true.mp (by decide +kernel), by decide +kernel⟩, by decide +kernel⟩

theorem witness_TrapsAndReturns :
    ∀ u : Bool, ∀ l : Bool,
      let s := seqTurn 0 { super := l, unack := u, pc := 8, ssp := 3 }
      (SeqRuns (.svc 1 0xFFF) always s 0 ∧ SeqRuns (.trap 1 0) always s 0 ∧ (s.seq 0).unack = u) ∧
      (SeqRuns (.tack 7) (guarded 7) s 0 ∧ SeqRuns (.tret 7) (guarded 7) s 0 ∧ (s.seq 0).super = l ∧ (s.seq 0).record0Isl = none) := by
  simp only [seqRuns_iff]
  decide +kernel

/-- A handler about to return from a fault of island 0 under a disposition. -/
def faultReturn (d : BitVec 2) (kind : BitVec 16) : State :=
  let f : FaultRec := { cause := kind, tval := 0, tinfo := 0 }
  { ({ seqTurn 0 { super := true, unack := true, record0Isl := some 0, tinfo0 := d.setWidth 64 <<< 62, region := some 0 } with
      regions := [(0, { rows := 2, cols := 2, owner := some (0, 0), seq := some 0 })] } : State) with
    islands := [(0, { hold := some .fault, delivered := some f, trapped := kind == 0x213, region := 0 })]
    brass := { tasks := [(0, some { queue := 0, pos := 0, record := 0, part := 0, tenant := 0, level := 0, asid := 0, stages := [{ entry := 0, seq := some 0, region := some 0 }] })] } }

theorem witness_TrapsAndReturns_dispositions (a b late : Bool) :
    let d : BitVec 2 := BitVec.ofBool a ++ BitVec.ofBool b
    let kind : BitVec 16 := if late then 0x213 else 0x214
    let s := faultReturn d kind
    SeqRuns (.tret 7) (guarded 7) s 0 ∧ ((s.seq 0).super = true ∧ (s.seq 0).record0Isl = some 0 ∧
      (s.island 0).delivered = some { cause := kind, tval := 0, tinfo := 0 } ∧ (s.seq 0).tinfo0.extractLsb' 62 2 = d ∧
      (s.region (s.island 0).region).owner = some (0, 0) ∧ (s.task 0).map (·.stages.length) = some 1) := by
  refine ⟨seqRuns_iff.mpr ?_, ?_⟩ <;> revert a b late <;> decide +kernel

theorem witness_PrivilegeAndLegality :
    (∀ j ∈ [Instr.cfgld 1 2 3, .bswap 0 1, .fold 1, .rqsc 0 1 true, .asids 1, .xinv 1 2 2, .l2md 1 2, .scrb 1 2 3, .tack 7, .tret 7],
      j.wf (seqKind 31) = true) ∧
    ((seqTurn 31 {}).actor = .seq 31 ∧ ((seqTurn 31 {}).seq 31).unack = false ∧ ((seqTurn 31 {}).seq 31).super = false ∧
      predGet ((seqTurn 31 {}).seq 31).preds 7 = true) ∧
    (∀ i ∈ [Instr.fadd 0 1 2 0 7 false false 0, .wclm 7 0, .add 1 2 3 1 7 false 3, .khnd 1 2], (encode i).isSome = true ∧
      i.wf (seqKind 31) = false) := by
  decide +kernel

/-- A sequencer of partition 0 with one core of its own, whose island is held or not; core 4 belongs to partition 1. -/
def scanTurn (x : W64) (h : Option Hold) : State :=
  { ({ seqTurn 0 { g := [(1, x)] } with regions := [(0, { rows := 1, cols := 1 }), (4, { rows := 1, cols := 1, part := 1 })] } : State) with
    islands := [(0, { desc := 0x7F000, hold := h })] }

/-- A sequencer with one store on its way. -/
def busyTurn : State :=
  let s := seqTurn 0 {}
  { s with mem := { s.mem with flight := [{ iss := s.seqIssuer 0, ea := 0, op := .store 8 0 }] } }

/-- A sequencer with one store on its way to HBM. -/
def farTurn : State :=
  let s := hbmTurn 0 0 0 id
  { s with mem := { s.mem with flight := [{ iss := s.seqIssuer 0, ea := 0, op := .store 8 0 }] } }

theorem witness_FencesAndScans :
    SeqRuns (.fence 3 5) always (seqTurn 0 {}) 0 ∧ (seqTurn 0 {}).mayRelease 0 3 4 ∧
    (SeqRuns (.fence 2 5) always busyTurn 0 ∧ (busyTurn.release (.seq 0) 5).quiet (.seq 0) 5 = false ∧ (busyTurn.seq 0).wait = none) ∧
    (SeqRuns (.fence 2 0) always farTurn 0 ∧ farTurn.quiet (.seq 0) 0 = false ∧ (farTurn.release (.seq 0) 0).quiet (.seq 0) 0 = true) ∧
    (VeRuns (.fence 3 5) always (veTwo 0) 0 ∧ (veTwo 0).quiet (.ve 0) 5 = true ∧
      ∀ e ∈ ((veTwo 0).ve 0).replies, e.wantsX = true → e.left = 0) ∧
    (let s := { veTwo 0 with mem := { flight := [{ iss := (veTwo 0).veIssuer 0, ea := 0, op := .store 8 0 }] } }
     VeRuns (.fence 2 5) always s 0 ∧ (s.release (.ve 0) 5).quiet (.ve 0) 5 = false) ∧
    SeqRuns (.rstpt 1 0xFFF) always (seqTurn 0 {}) 0 ∧
    (SeqRuns (.scanr 1 2 0xFFF) always (scanTurn 0x1000 (some .fault)) 0 ∧ (scanTurn 0x1000 (some .fault)).coreOwner 0 = 0 ∧
      (scanTurn 0x1000 (some .fault)).islandOf 0 = some 0 ∧ ((scanTurn 0x1000 (some .fault)).island 0).hold = some .fault) ∧
    (SeqRuns (.scanr 1 2 0) always (scanTurn 0x40000 none) 0 ∧ (scanTurn 0x40000 none).coreOwner 4 = 1) ∧
    (∀ h ∈ [none, some Hold.drain], let s := scanTurn 0 h
      SeqRuns (.scanr 1 2 0) always s 0 ∧ s.coreOwner 0 = 0 ∧ s.islandOf 0 = some 0 ∧ (s.island 0).hold = h ∧ (s.seq 0).unack = false) := by
  simp only [seqRuns_iff, veRuns_iff, mayRelease_iff]
  decide +kernel

/-- `tileTurn` part of the way through the accesses of its word. -/
def begunTurn (g : List Answer) : State :=
  let s := tileTurn 0 0 id
  s.setSeq 0 { s.seq 0 with wait := some { got := g } }

/-- The access goes to its home at once. -/
abbrev Goes1 (s : State) (x : Access) : Prop := Open s 0 x (home s 0 x)

/-- The first and the last access of each form; a pattern and a layout of zeros are well made. -/
theorem witness_SequencesOfAccesses :
    (∀ n ∈ [0, 1],
      let s := begunTurn (List.replicate n {})
      SeqRuns (.gath 1 2 4 1 4 2) always s 0 ∧ s.begun 0 (List.replicate n {}) ∧ Goes1 s (at1 (.load 4) 4)) ∧
    (let s := begunTurn [{}]
     (SeqRuns (.scat 1 2 3 2 4 2) always s 0 ∧ s.begun 0 [{}] ∧ Goes1 s (at1 (.store 4 0) 4)) ∧
     (SeqRuns (.cpyl 1 2 0 0 0) always s 0 ∧ Goes1 s (at1 (.store 64 0) 64)) ∧
     (SeqRuns (.patw 1 31) always s 0 ∧ Goes1 s { ea := 0xA000000000000050, op := .load 16, align := 16 } ∧ patClean 0 = true) ∧
     (SeqRuns (.patr 1 31) always s 0 ∧ Goes1 s { ea := 0xA000000000000050, op := .store 16 0, align := 16, noPark := true })) ∧
    (let s := begunTurn [{}, {}]
     SeqRuns (.layw 1 15) always s 0 ∧ s.begun 0 [{}, {}] ∧ Goes1 s { ea := 0xA000000000000060, op := .load 16, align := 16 } ∧
     layClean 0 = true) ∧
    (let s := hbmTurn 0x40 0x80 0 id
     SeqRuns (.cpyl 1 2 0 3 4) always s 0 ∧ s.mayRelease 0 3 4 ∧ Arrives s { ea := 0x80, op := .load 64, align := 64 }) := by
  simp only [seqRuns_iff, mayRelease_iff, Arrives, Goes1, reaches_iff, open_iff, State.begun]
  decide +kernel

/-! ### Statements about streams, groups and launches -/

/-- The layout of one 32-bit element of a tag. -/
def oneLayout (tag : BitVec 3) : BitVec 384 := 0x1000100010001000000000000000000000000#384 ||| tag.setWidth 384

/-- A read binding of sequencer 0 under token 0 at fabric port 0. -/
def aBinding : Binding :=
  { kind := .stream, seq := 0, tok := 0, port := 0, write := false, pat := 0, lay := oneLayout 0, off := 0, asid := 0, part := 0, si := 0,
    region := none, user := true }

/-- A sequencer with a pattern of one element, these busy tokens and bindings, and these bindings queued at fabric port 0. -/
def streamTurn (tokens : BitVec 8) (b : Tab (Option Binding)) (queue : List Nat) (layout : BitVec 384) : State :=
  let s := seqTurn 0 { tokens := tokens, layouts := [(0, layout)], g := [(1, 0), (2, 0x1000), (3, 0x40), (4, 0x40), (5, 1)] }
  { s with streams := { bindings := b, next := 7, ports := [(0, { queue := queue })] } }

/-- What SGO of G[1] checks. -/
abbrev sgoLegal (s : State) (r : Bool) : Bool := s.sgoOk 0 0 (look 0 (s.seq 0).layouts 0) (portOf 0 0) 0 false r 0

/-- SGO with the last place of the port, with a busy token, at a full port, with a layout that is not allowed, and with d not 0; the shortest copy, next
to its source; a collective of two. -/
theorem witness_StreamBindings :
    (let s := streamTurn 0xFE [] [1, 2, 3] (oneLayout 0)
     SeqRuns (.sgo 1 2 0 0 false false 0) always s 0 ∧ sgoLegal s false = true ∧ portOf 0 ((s.seq 0).get 1) = some 0 ∧
     (s.port 0).queue.length = 3 ∧ (s.seq 0).tokens.getLsbD 0 = false) ∧
    (SeqRuns (.sgo 1 2 0 0 true false 0) always (streamTurn 1 [] [] (oneLayout 0)) 0 ∧
      sgoLegal (streamTurn 1 [] [] (oneLayout 0)) true = true ∧ ((streamTurn 1 [] [] (oneLayout 0)).seq 0).tokens.getLsbD 0 = true) ∧
    (SeqRuns (.sgo 1 2 0 0 false false 0) always (streamTurn 0 [] [1, 2, 3, 4] (oneLayout 0)) 0 ∧
      sgoLegal (streamTurn 0 [] [1, 2, 3, 4] (oneLayout 0)) false = true) ∧
    (SeqRuns (.sgo 1 2 0 0 false false 0) always (streamTurn 0 [] [] 0) 0 ∧ sgoLegal (streamTurn 0 [] [] 0) false = false ∧
      ((streamTurn 0 [] [] 0).seq 0).unack = false) ∧
    (SeqRuns (.sgo 1 2 3 0 false false 0) always (streamTurn 0 [] [] (oneLayout 0)) 0 ∧ (false || (3 : BitVec 4) == 0) = false) ∧
    (let s := streamTurn 1 [(6, some aBinding)] [6] (oneLayout 0)
     SeqRuns (.spos 3 0 0) always s 0 ∧ s.bindingOf 0 0 = some (6, aBinding) ∧ SeqRuns (.spos 3 2 7) always s 0 ∧ s.bindingOf 0 7 = none ∧
     SeqRuns (.scnl 1) always s 0 ∧ portSlot aBinding.port = none ∧ (s.seq 0).tokens.getLsbD 0 = true ∧
     SeqRuns (.scnl 0xFE) always s 0 ∧ (s.seq 0).tokens &&& 0xFE = 0) ∧
    (let s := streamTurn 0 [] [] 0
     SeqRuns (.rcpy 2 1 3 3 4 0) always s 0 ∧ SeqRuns (.rcpy 4 1 3 1 4 7) always s 0 ∧ s.copyIsland 0 = some 0 ∧ (s.seq 0).wait = none ∧
     s.mayRelease 0 3 4) ∧
    (let g : List Answer := [{ data := 0x101000000 }, {}, {}]
     let s := (tileTurn 0 0 id).setSeq 0 { (tileTurn 0 0 id).seq 0 with layouts := [(0, oneLayout 1)], wait := some { got := g } }
     SeqRuns (.coll 1 0) always s 0 ∧ s.begun 0 g ∧ Goes1 s { ea := 0xA000000000000070, op := .load 16, align := 16 } ∧
     s.collOk 0 0x101000000 = true ∧ (s.port (islandPort 0 0)).queue.length = 0 ∧ s.coll 0 = none) := by
  simp only [seqRuns_iff, mayRelease_iff, open_iff, Goes1, State.begun]
  decide +kernel

/-- A sequencer whose group 0 stands as given, with a store to HBM under status or without. -/
def groupTurn (x : Group) : State := hbmTurn 0x40 0 5 fun m => { m with groups := [(0, x)] }

theorem resolved {s : State} {iss : Issuer} {ea : W64} {w : Nat} {n : Need} {t : Target} :
    s.resolve 0 iss ea w n = .ok t ↔ (s.resolve 0 iss ea w n).toOption = some t := toOption_iff

/-- A VE of an island of region 0 that reads an address of HBM, a group number and data. -/
def groupVe (x : Group) : State :=
  let s := veTurn fun v => { v with latches := [(0, tok 0x40 0), (1, tok 0 0)], ports := [(3, tok 9 0)] }
  { s with mem := (groupTurn x).mem, sec := (groupTurn x).sec }

/-- Every state of a group; abort with no store and with one here; a store at the counter's last value. -/
theorem witness_GroupForms :
    (∀ k ∈ [0, 1, 2, 3, 4],
      let s := groupTurn { state := BitVec.ofNat 3 k, stores := 2 ^ 24 - 2 }
      SeqRuns (.gopen 0) always s 0 ∧ SeqRuns (.gstat 3 0) always s 0 ∧ SeqRuns (.gabrt 0) always s 0 ∧ (s.seq 0).unack = false ∧
      SeqRuns (.gst 1 2 3 2 4 3 true 6) always s 0 ∧ SeqRuns (.gst 1 2 3 2 4 3 false 0) always s 0 ∧ (s.seq 0).get 2 = 0 ∧
      (s.seq 0).wait = none ∧ s.copyHolds 0 = false ∧ s.gstBehind 0 ((s.seq 0).get 1) 8 = false ∧ s.mayRelease 0 2 4 ∧
      (s.resolve 0 (s.seqIssuer 0) 0x40 8 { wr := true }).toOption = some (home s 0 { ea := 0x40, op := .store 8 5, align := 8 }) ∧
      inHbm (home s 0 { ea := 0x40, op := .store 8 5, align := 8 }).la = true ∧
      (home s 0 { ea := 0x40, op := .store 8 5, align := 8 }).chip = s.chipId ∧ (s.group 0 0).stores + 1 < 2 ^ 24 ∧
      s.keyCheck (home s 0 { ea := 0x40, op := .store 8 5, align := 8 }).key (s.seqIssuer 0).part = true ∧
      ({ s with sec := {} } : State).keyCheck (home s 0 { ea := 0x40, op := .store 8 5, align := 8 }).key (s.seqIssuer 0).part = false) ∧
    (let s := groupTurn { state := 1, dests := [0], first := some (0, 0) }
     SeqRuns (.gabrt 0) always s 0 ∧ (s.group 0 0).dests = [s.chipId] ∧ (s.group 0 0).first ≠ none ∧ (s.group 0 0).sent = false) ∧
    (let s := groupVe { state := 1 }
     let ops := found [s.readSel 0 0, s.readSel 0 1, s.readData 0 11]
     VeRuns (.gst 0 1 11 2 4 6 true 6) always s 0 ∧ s.veMustWait 0 true 2 4 = false ∧
     Finds s 0 [s.readSel 0 0, s.readSel 0 1, s.readData 0 11] 0 ops ∧ lane (opnd ops 1).data 32 0 = 0 ∧ (s.group 0 0).state = 1 ∧
     ((s.consume 0 ops).resolve 0 ((s.consume 0 ops).veIssuer 0) 0x40 64 { wr := true }).toOption.map
       (fun t => ((s.consume 0 ops).keyCheck t.key ((s.consume 0 ops).veIssuer 0).part, inHbm t.la, t.chip == s.chipId)) = some (true, true, true)) := by
  simp only [seqRuns_iff, veRuns_iff, finds_iff, mayRelease_iff]
  decide +kernel

/-- A GCMT that waits for its group. -/
def commitTurn (x : Group) : State :=
  (groupTurn x).setSeq 0 { (groupTurn x).seq 0 with wait := some { got := [{ ver := x.epoch.setWidth 16 }] } }

/-- A group that is not open, one that is, and the waits of a commit: an acknowledgement missing, doomed, no store, and the record here, sent,
written and refused. -/
theorem witness_GroupCommit :
    (∀ k ∈ [0, 1, 2, 3, 4], SeqRuns (.gcmt 3 0) always (groupTurn { state := BitVec.ofNat 3 k }) 0 ∧
      ((groupTurn { state := BitVec.ofNat 3 k }).seq 0).wait = none) ∧
    ∀ x ∈ [({ stores := 1 } : Group), { stores := 1, acks := 1, code := 3, dests := [0] }, { code := 3 }, {}, { first := some (0, 5), stores := 1, acks := 1 },
      { first := some (0, 5), sent := true }, { first := some (0, 5), sent := true, recordThere := some true, dests := [0] },
      { first := some (0, 5), sent := true, recordThere := some false, dests := [0] }],
      let s := commitTurn { x with state := 2 }
      SeqRuns (.gcmt 3 0) always s 0 ∧ (s.seq 0).wait = some { got := [{ ver := (s.group 0 0).epoch.setWidth 16 }] } ∧ (s.group 0 0).state = 2 ∧
      s.reservedRoom 0 = true := by
  simp only [seqRuns_iff]
  decide +kernel

/-- A task of one stage, of tenant 0. -/
def aTask : Task := { queue := 0, pos := 0, record := 0, part := 0, tenant := 0, level := 0, asid := 0, stages := [{ entry := 0 }] }

/-- The same sequencer as one stage of the task, with a launch record that has been read but for its last piece, in a queue as given. -/
def launchTurn (x : Queue) (owner : Option (Nat × Nat)) : State :=
  let s := hbmTurn 0x40 0 0 id
  let u := s.setSeq 0 { s.seq 0 with region := some 0, wait := some { got := [{}, {}, {}] } }
  { u with regions := [(0, { rows := 2, cols := 2, owner := owner, islands := [0] })], islands := [(0, { desc := 0x4807F000 })]
           mem := { u.mem with tlb := ⟨brassUnit, 0, 0, 2, 0xF400000000000000⟩ :: u.mem.tlb }
           brass := { u.brass with queues := [(0, x)], tasks := [(0, some aTask)] } }

/-- The last place of a queue and a full one, a queue that takes no launches, and a sequencer of no tenant. -/
theorem witness_LaunchForms :
    (∀ x ∈ [({ cfg := 0x4000000000000000, tail := 15 } : Queue), { cfg := 0x4000000000000000, tail := 16 }, {}],
      ∀ o ∈ [some (0, 0), none],
      let s := launchTurn x o
      SeqRuns (.lnch 1 2 3 true 6) always s 0 ∧ SeqRuns (.lnch 1 2 3 false 0) always s 0 ∧ s.begun 0 [{}, {}, {}] ∧
      Goes1 s { ea := 0x70, op := .load 16, align := 16 } ∧ (s.seq 0).get 2 = 0 ∧ (s.seq 0).unack = false ∧
      (s.tenantOf (s.seq 0).region = if o = none then none else some (s.queue 0).ten) ∧ ((s.queue 0).devl = (x.cfg != 0)) ∧
      (((s.afterRead 0 (home s 0 { ea := 0x70, op := .load 16, align := 16 })).brassStore (s.queue 0).asid (s.queue 0).part
        ((s.queue 0).slotAt (s.queue 0).tail) (.store 64 ((s.queue 0).tail + 1).toNat)).bind fun u =>
        u.brassStore (s.queue 0).asid (s.queue 0).part (s.queue 0).db (.atom .maxu 8 ((s.queue 0).tail + 1) 0)).isSome = true ∧ (x.tail = 15 → ((s.queue 0).tail - (s.queue 0).head).toNat < (s.queue 0).size)) ∧
    (∀ g ∈ [0x1000, 0x100000000000, 0x20, 0x10000000, 0x100000000],
      let s := seqTurn 0 { g := [(2, BitVec.ofNat 64 g)] }
      SeqRuns (.lnch 1 2 3 false 0) always s 0 ∧ SeqRuns (.sig 2) always s 0 ∧ SeqRuns (.done 2) always s 0 ∧ (s.seq 0).unack = false) ∧
    (SeqRuns (.sig 2) always (seqTurn 0 { g := [(2, 31)] }) 0 ∧ (seqTurn 0 { g := [(2, 31)] }).mayRelease 0 2 4) ∧
    (SeqRuns (.gbar 15) always busyTurn 0 ∧ (busyTurn.release (.seq 0) 5).quiet (.seq 0) 5 = false ∧ busyTurn.stageOf 0 = none ∧
      SeqRuns (.gbar 15) always (seqTurn 0 {}) 0 ∧ (seqTurn 0 {}).quiet (.seq 0) 5 = true ∧ ((seqTurn 0 {}).seq 0).barrier = none ∧
      SeqRuns (.gbar 15) always (seqTurn 0 { barrier := some 3 }) 0 ∧
      (let s := launchTurn {} (some (0, 0))
       SeqRuns (.gbar 15) always s 0 ∧ s.quiet (.seq 0) 5 = true ∧ (s.seq 0).barrier = none ∧ s.stageOf 0 = some (0, 0) ∧ s.task 0 = some aTask)) ∧
    (SeqRuns (.drain 7) always (seqTurn 0 { tokens := 0x80 }) 0 ∧
      (let s := launchTurn {} (some (0, 0))
       SeqRuns (.drain 7) always s 0 ∧ (s.seq 0).region = some 0 ∧ (s.region 0).drain = none ∧ (s.region 0).stop = none ∧
       (s.region 0).islands = [0] ∧ (s.island 0).hold = none)) ∧
    (SeqRuns (.done 1) always (seqTurn 0 { g := [(1, 0xFFFFFFFF)] }) 0 ∧ (seqTurn 0 {}).stageOf 0 = none ∧ (seqTurn 0 {}).mayRelease 0 2 4 ∧
      (let s := launchTurn {} (some (0, 0))
       SeqRuns (.done 1) always s 0 ∧ s.mayRelease 0 2 4 ∧ aTask.origin = none ∧ aTask.stages[0]? = some { entry := 0 })) := by
  simp only [seqRuns_iff, mayRelease_iff, open_iff, Goes1, State.begun]
  decide +kernel

/-! ### Statements about privileged forms and Cobalt -/

/-- R138: a record of a configuration image. -/
def imgRec (type tgt alt : Nat) (body : List Byte) : List Byte :=
  bytesOf (BitVec.ofNat 512 (type + 2 ^ 8 * tgt + 2 ^ 24 * alt + 2 ^ 32 * body.length)) 16 ++ body

/-- The first 64 bytes of an image of two rows and two columns that ends at once: its header record, and an end record. -/
def shortImage : List Byte := imgRec 1 0 0 ([2, 2, 1, 1, 0xFF] ++ List.replicate 27 0) ++ imgRec 15 0 0 []

/-- The same with its island and its banks, as it is read. -/
def wholeImage : Image :=
  { rows := 2, cols := 2, count := 1, mask := 1, cluster := 0xFF, entry := 0, codeLen := 0
    recs := { type := 2, tgt := 0, alt := 0, body := bytesOf (0x4807F000 : W64) 8 } ::
      [0, 1, 256, 257].flatMap fun t => [3, 4].map fun k => { type := k, tgt := t, alt := 0, body := List.replicate 256 0 } }

/-- A supervisor sequencer beside a region at its corner (0, 0), whose one island is as given, with G[1] as given and G[2] naming the
corner, alternative 1 and no sequencer. -/
def regionTurn (g : W64) (i : Island) (f : Region → Region) (ge : Seq → Seq) : State :=
  let s := seqTurn 0 (ge { super := true, g := [(1, g), (2, 0x200000001000)] })
  { s with regions := [(0, f { rows := 2, cols := 2, islands := [0] })], islands := [(0, { i with desc := 0x4807F000, enabled := true })]
           brass := { coreOf := [(2, 1)] } }

/-- A VE of core 0 with a request on its way. -/
def unsettled (s : State) : State := { s with mem := { s.mem with flight := [{ iss := s.veIssuer 0, ea := 0, op := .store 8 0 }] } }

/-- The selectors: of the region, of a corner without a region, of another partition, of a column that does not exist, and one that is not clean;
islands that run, that RQSC holds, and that a fault holds. -/
theorem witness_RegionForms :
    (let g : List Answer := [{ data := ofBytes 512 (shortImage.take 16) }, { data := ofBytes 512 ((shortImage.drop 16).take 16) },
       { data := ofBytes 512 ((shortImage.drop 32).take 16) }]
     let s := regionTurn 0xA000000000000000 {} id fun q => { q with wait := some { got := g } }
     let s := { s with mem := { s.mem with bytes := [(tileBase + 48, 15)] } }
     let x : Access := { ea := 0xA000000000000030, op := .load 16, align := 16 }
     SeqRuns (.cfgld 1 2 3) always s 0 ∧ selClean 0x200000001000 = true ∧ selCol 0x200000001000 < 12 ∧ look 0 s.brass.coreOf (selKey 0x200000001000) = (s.seq 0).part ∧
     s.begun 0 g ∧ gatherImage 0xA000000000000000 [] g = .inl x ∧ Goes1 s x ∧
     (match gatherImage 0xA000000000000000 [] (g ++ [s.loaded (home s 0 x) 16]) with
      | .inr (.done im) => ((s.afterRead 0 (home s 0 x)).imageStatus im (s.selFit 0 0x200000001000)).1
      | _ => 0) = 1 ∧
     ((s.afterRead 0 (home s 0 x)).imageStatus wholeImage (s.selFit 0 0x200000001000)).1 = 0) ∧
    (let s := regionTurn 0xA000000000000000 {} id fun q => { q with wait := some {} }
     let x : Access := { ea := 0xA000000000000000, op := .load 16, align := 16 }
     SeqRuns (.cfgld 1 2 3) always s 0 ∧ s.begun 0 [] ∧ gatherImage 0xA000000000000000 [] [] = .inl x ∧ Goes1 s x ∧
     gatherImage 0xA000000000000000 [] [s.loaded (home s 0 x) 16] = .inr .bad) ∧
    (∀ e ∈ [(0x10, 0), (0x8000, 0), (0x100, 1), (0xC00, 2), (0x200, 2)],
      let g : W64 := BitVec.ofNat 64 e.1
      let s := regionTurn g {} id id
      (∀ j ∈ [Instr.bswap 0 1, .fold 1, .rqsc 7 1 true, .cfgld 2 1 3], SeqRuns j always s 0) ∧ (s.seq 0).unack = false ∧
      (if e.2 = 0 then selClean g = false else selClean g = true ∧ (12 ≤ selCol g ∨ (s.region (selKey g)).rows = 0)) ∧
      (e.2 = 2 → 12 ≤ selCol g ∨ look 0 s.brass.coreOf (selKey g) ≠ (s.seq 0).part)) ∧
    (let s := regionTurn 0x1000 {} (fun r => { r with part := 1 }) id
     SeqRuns (.fold 1) always s 0 ∧ selClean 0x1000 = true ∧ (s.region (selKey 0x1000)).rows ≠ 0 ∧
       (s.region (selKey 0x1000)).part ≠ (s.seq 0).part) ∧
    (∀ i ∈ [({ } : Island), { hold := some .rqsc }, { hold := some .fault, fault := some (⟨0, 0, 0, 0⟩, 0) }],
      let s := regionTurn 0x1000 i id id
      SeqRuns (.bswap 0 1) always s 0 ∧ SeqRuns (.fold 1) always s 0 ∧ SeqRuns (.rqsc 7 1 false) always s 0 ∧ SeqRuns (.rqsc 7 1 true) always s 0 ∧
      selClean 0x1000 = true ∧ s.selectRegion 0 0x1000 = some 0 ∧ (s.seq 0).tokens = 0 ∧ (s.region 0).swap = none ∧ (s.region 0).stop = none ∧
      (s.region 0).drain = none ∧ selMask 0x1000 = 0 ∧ (s.region 0).islands = [0] ∧ (s.island 0).maySwap = (i.hold == some .rqsc) ∧
      (s.island 0).hold = i.hold ∧ s.settled 0 = true ∧ (unsettled s).settled 0 = false ∧ (unsettled s).seq 0 = s.seq 0 ∧
      selAlt 0x1000 = 1 ∧ selAlt 0 = 0 ∧ colOf 0 + max (s.region 0).cols (s.region 0).shadowCols ≤ 12) := by
  simp only [seqRuns_iff, open_iff, Goes1, State.begun]
  decide +kernel

/-- A supervisor sequencer with an ASID table in HBM whose entry 0 belongs to a partition, or cannot be read. -/
def asidTurn (g : W64) (entry : Byte) (clean : Bool) : State :=
  let s := hbmTurn g 0 0 fun m => { m with bytes := [(7, entry)], clean := if clean then [(0, true), (1, true)] else [] }
  s.setSeq 0 { s.seq 0 with super := true }

theorem witness_PrivilegedForms :
    (∀ e ∈ [(0x80, true), (0x81, true), (0x80, false)],
      let s := asidTurn 0 (BitVec.ofNat 8 e.1) e.2
      SeqRuns (.asids 1) always s 0 ∧ (s.seq 0).unack = false ∧
      (match s.asidOf 0 0 with
       | .ok x => e.2 && x == (e.1 == 0x80)
       | .error k => !e.2 && k == 0x12) = true) ∧
    (∀ k ∈ [0, 1],
      let s := asidTurn 0x10000 0 true
      SeqRuns (.asids 1) always s 0 ∧ SeqRuns (.xinv 1 2 (BitVec.ofNat 2 k)) always s 0 ∧ s.mem.flight = [] ∧ s.mem.away = [] ∧
      s.mem.groupStores = [] ∧ s.streams.bindings = [] ∧ s.brass.asks = [] ∧ (∀ e ∈ s.seqs, e.2.replay = []) ∧ (∀ e ∈ s.cores, e.2.ve.replay = [])) ∧
    (let s := asidTurn 0 0 true
     let r : Req := { iss := s.seqIssuer 0, ea := 0, op := .store 8 0, target := some { chip := 0, la := 0, ver := true, size := 32768 } }
     let u := { s with mem := { s.mem with flight := [r] } }
     SeqRuns (.xinv 1 2 1) always u 0 ∧ r ∈ u.mem.flight ∧ r.target.map (·.size) = some 32768 ∧ r.iss.chip = none ∧ r.iss.asid = 0) ∧
    (∀ k ∈ [0, 1, 2],
      let s := asidTurn (BitVec.ofNat 64 k) 0 true
      let u := { s with brass := { s.brass with tasks := [(0, some { aTask with state := .resident })] } }
      SeqRuns (.l2md 3 1) always s 0 ∧ s.anyRunning = false ∧ SeqRuns (.l2md 3 1) always u 0 ∧ u.anyRunning = true ∧ (s.seq 0).unack = false) ∧
    (∀ e ∈ [(tileBase + 8, 64), (tileBase, 64), (0, 512)],
      let s := seqTurn 0 { super := true, g := [(1, BitVec.ofNat 64 e.1), (2, BitVec.ofNat 64 e.2)] }
      SeqRuns (.scrb 1 2 3) always s 0 ∧ ((s.seq 0).get 1).extractLsb' 46 18 = 0 ∧ ((s.seq 0).get 2).extractLsb' 52 12 = 0 ∧
      (((s.seq 0).get 2).setWidth 40 : BitVec 40).toNat = e.2 ∧ s.mem.held = [] ∧ homeOf e.1 ≠ .unpopulated ∧ homeOf (e.1 + e.2 - 64) ≠ .unpopulated ∧
      inHbm e.1 = inHbm (e.1 + e.2 - 64) ∧ s.lostScratch e.1 = false ∧ s.mem.retired.contains (frameOf e.1) = false) ∧
    (∀ e ∈ [(2 ^ 45, 64), (scratchAt 1535 131008, 128), (tileBase, 8)],
      let s := seqTurn 0 { super := true, g := [(1, BitVec.ofNat 64 e.1), (2, BitVec.ofNat 64 e.2)] }
      SeqRuns (.scrb 1 2 3) always s 0 ∧ ((s.seq 0).get 1).extractLsb' 46 18 = 0 ∧ ((s.seq 0).get 2).extractLsb' 52 12 = 0 ∧ s.mem.held = [] ∧
      (s.seq 0).unack = false ∧ (e.2 % 64 = 0 → window e.1 = none ∨ window e.1 ≠ window (e.1 + (e.2 - 64)))) := by
  simp only [seqRuns_iff]
  decide +kernel

/-- Cobalt at a word part of the way through its accesses to HBM: with a key record or a digest at 0x40, or a signature at 0x80. -/
def cobaltTurn (got : List Answer) (reg : W64) : State :=
  let s := hbmTurn 0 0 0 fun m => { m with tlb := [⟨16, 0, 0, 2, 0xF400000000000000⟩] }
  let q : Seq := { super := true, g := [(1, 0x40), (2, reg), (3, 0x80)], wait := some { got := got } }
  { s.setSeq 32 q with actor := .seq 32 }

/-- The pieces of a key record but the last; the first byte of a record is its type. -/
def keyPieces (type : BitVec 512) : List Answer := { data := type } :: List.replicate ((spanReads 0x40 128).length - 2) {}

/-- A record that is taken, with its handle the first free one or the second, and a record of no type. -/
theorem witness_CobaltForms :
    (∀ type ∈ [0, 1], ∀ h ∈ [[], [(1, some (keyRecOf [1]))]],
      let got := keyPieces (BitVec.ofNat 512 type)
      let s := { cobaltTurn got 0 with sec := { (cobaltTurn got 0).sec with handles := h } }
      let reads := spanReads 0x40 128
      let x : Access := { ea := 0xB0, op := .load 16, align := 16 }
      reads[got.length]? = some x ∧ got.length + 1 = reads.length ∧ SeqRuns (.khnd 1 3) always s 32 ∧ s.begun 32 got ∧
        Open s 32 x (home s 32 x) ∧ s.loaded (home s 32 x) 16 = { data := 0 } ∧ s.handleFree (h.length + 1) = true ∧ (h ≠ [] → s.handleFree 1 = false)) ∧
    spanBytes 0x40 128 (keyPieces 1 ++ [{ data := 0 }]) = 1 :: List.replicate 127 0 ∧
    spanBytes 0x40 128 (keyPieces 0 ++ [{ data := 0 }]) = List.replicate 128 0 ∧
    (keyRecClean (1 :: List.replicate 127 0) && (keyRecOf (1 :: List.replicate 127 0)).ok) = true ∧ (keyRecOf (List.replicate 128 0)).ok = false ∧
    (SeqRuns (.kdel 1) always (cobaltTurn [] 0) 32) ∧
    (let reads := spanReads 0x40 32
     let s := cobaltTurn (List.replicate (reads.length - 1) {}) 7
     ∃ x ∈ reads, reads[reads.length - 1]? = some x ∧ SeqRuns (.mext 1 2) always s 32 ∧ s.begun 32 (List.replicate (reads.length - 1) {}) ∧
       (s.sec.bootLock = true → 4 ≤ 7) ∧ Open s 32 x (home s 32 x)) ∧
    (let reads := spanReads 0x40 32
     let s := cobaltTurn (List.replicate (reads.length - 1) {}) 1
     ∃ x ∈ reads, reads[reads.length - 1]? = some x ∧ SeqRuns (.ksign 1 2 3) always s 32 ∧ s.begun 32 (List.replicate (reads.length - 1) {}) ∧
       Open s 32 x (home s 32 x)) ∧
    (let reads := spanReads 0x40 32
     let writes := spanWrites 0x80 (List.replicate 64 0)
     let s := cobaltTurn (List.replicate (reads.length + writes.length) {}) 1
     ∃ x ∈ writes, writes[writes.length - 1]? = some x ∧ SeqRuns (.ksign 1 2 3) always s 32 ∧
       s.begun 32 (List.replicate (reads.length + writes.length) {}) ∧ 1 ≤ writes.length ∧ bytesOf (0 : BitVec 512) 64 = List.replicate 64 0 ∧
       x.noPark = true ∧ Open s 32 x (home s 32 x)) := by
  simp only [seqRuns_iff, open_iff, State.begun]
  refine ⟨?_, ?_, ?_, ?_, ?_, ?_, ?_, ?_, ?_⟩ <;> decide +kernel


/-! ### Events of the fabric -/

/-- Core 0 of island 0 with a VE, an MN and a state as given. -/
def coreState (v : Ve → Ve) (m : Mn → Mn) (i : Island → Island) (f : State → State) : State :=
  let s := State.reset.withRow false 0
  f (((s.setVe 0 (v (s.ve 0))).setMn 0 (m (s.mn 0))).setIsland 0 (i (s.island 0)))

def aSend (port : Nat) : Send := { core := 0, port := port, tok := tok 1 0, origin := (0, ⟨0, 0, 0, 0⟩) }

/-- Each port and the activation port, empty and taken; a FIFO one short of full and a full one; X empty and taken. -/
theorem witness_TokensArrive :
    (∀ d ∈ [0, 1, 2, 3, 4], ∀ taken ∈ [false, true],
      let s := coreState (fun v => if taken then { v with ports := [(d, some (tok 2 0))] } else v)
        (fun m => if taken then { m with act := some (tok 2 0) } else m) id fun s => { s with scratch := { sends := [aSend d] } }
      s.scratch.sends.find? (fun y => y.core == 0 && y.port == d) = some (aSend d) ∧
      (look none (s.ve 0).ports d).isSome = taken ∧ (s.mn 0).act.isSome = taken ∧
      s.scratch.sends.find? (fun y => y.core == 1 && y.port == d) = none) ∧
    (let s := coreState id id id fun s => { s with transit := [(0, [tok 1 0])], fifos := [(0, List.replicate 31 (tok 1 0)), (1, List.replicate 32 (tok 1 0))] }
     look [] s.transit 0 = tok 1 0 :: [] ∧ (s.fifo 0).length < 32 ∧ s.chan 0 = none ∧ 32 ≤ (s.fifo 1).length) ∧
    (∀ e ∈ [({ num := 0, tok := tok 1 0, wantsX := true, left := 1 } : Entry), { num := 0, tok := tok 1 0, wantsX := true, left := 0, pred := some (2, true) },
       { num := 0, tok := tok 1 0, wantsX := false, left := 0 }, { num := 0, tok := tok 1 0, wantsX := true, left := 0, fault := some (3, 0x40) }],
     ∀ x ∈ [none, some (tok 2 0)],
      let s := coreState (fun v => { v with replies := [e], x := x }) id id id
      s.live 0 = some 0 ∧ (s.ve 0).replies = e :: [] ∧ (s.ve 0).x = x ∧ (s.island 0).fault = none ∧ (s.island 0).delivered = none) ∧
    (∀ sel ∈ [9, 17],
      let s := coreState (fun v => { v with steering := [9] }) id (fun i => { i with conv := [(0, sel, tok 1 0)] }) id
      s.live 0 = some 0 ∧ (s.island 0).conv = (0, sel, tok 1 0) :: []) ∧
    (let s := coreState (fun v => { v with replies := [{ num := 0, tok := tok 1 0, wantsX := true, left := 0 }], cnv := [tok 1 0], x := some (tok 2 0) })
       id id fun s => { s with scratch := { drained := [(0, 5, 6)] } }
     s.live 0 = some 0 ∧ (s.ve 0).x = some (tok 2 0) ∧ s.scratch.drained = [(0, 5, 6)] ∧ (s.island 0).fault = none ∧
       (s.island 0).delivered = none) ∧
    ∀ x ∈ [none, some (tok 2 0)],
      let s := coreState (fun v => { v with cnv := [tok 1 0], x := x }) (fun m => { m with drain := some (tok 1 0, 5, 6) }) id id
      s.scratch.drained = [] ∧
      s.live 0 = some 0 ∧ (s.ve 0).cnv = tok 1 0 :: [] ∧ (s.ve 0).x = x ∧ (s.mn 0).drain = some (tok 1 0, 5, 6) ∧ (s.island 0).fault = none ∧
      (s.island 0).delivered = none := by
  refine ⟨?_, ?_, ?_, ?_, ?_, ?_⟩ <;> decide +kernel

def anAsk : Ask := { seq := 0, tok := 7, isls := [0] }

/-- A state with the region at core 0, whose island is as given. -/
def regionState (i : Island → Island) (f : Region → Region) (g : State → State) : State :=
  coreState id id i fun s => g { s with regions := [(0, f { rows := 1, cols := 1, islands := [0] })] }

/-- The stopping cycle itself and the one before; an island that still counts, one that is not armed, and one with a token left. -/
theorem witness_IslandsStop :
    (let s := regionState id id fun s => { s with scratch := { spent := [(0, .ve 0)] } }
     s.scratch.spent.find? (·.1 == 0) = some (0, .ve 0) ∧ (s.island 0).fault = none ∧ (s.island 0).delivered = none ∧
     s.scratch.spent.find? (·.1 == 1) = none) ∧
    (∀ h ∈ [none, some Hold.fault],
      let s := regionState (fun i => { i with stopAt := some 10, hold := h }) (fun r => { r with stop := some anAsk }) fun s => { s with cycle := 10 }
      let u := { s with cycle := 9 }
      (s.island 0).stopAt = some 10 ∧ 10 ≤ s.now ∧ (u.island 0).stopAt = some 10 ∧ u.now < 10 ∧ (s.island 0).hold = h ∧
      (s.region (s.island 0).region).stop = some anAsk ∧ 0 ∈ anAsk.isls) ∧
    (let s := regionState (fun i => { i with armed := true }) (fun r => { r with drain := some anAsk }) id
     let i := s.island 0
     i.armed = true ∧ i.hold = none ∧ i.cnt = 0 ∧ i.frozen = false ∧ s.drained 0 = true ∧ (s.region i.region).stop = none ∧
     (s.region i.region).drain = some anAsk ∧ anAsk.isls = [0]) ∧
    ((regionState id id id).island 0).armed = false ∧ ((regionState (fun i => { i with armed := true, cnt := 1 }) id id).island 0).cnt ≠ 0 ∧
    (coreState (fun v => { v with x := some (tok 1 0) }) id (fun i => { i with armed := true }) id).drained 0 = false ∧
    (let s := regionState id (fun r => { r with swap := some anAsk }) id
     (s.region 0).swap = some anAsk ∧ (∃ j ∈ anAsk.isls, (unsettled s).settled j = false) ∧ (unsettled s).regions = s.regions ∧
     (∀ j ∈ anAsk.isls, s.settled j = true) ∧ anAsk.isls = (s.region 0).islands ∧ colOf 0 + max (s.region 0).cols (s.region 0).shadowCols ≤ 12) := by
  decide +kernel

/-- Core 0 whose slot 0 is as given. -/
def slotState (x : Slot) (m : Mn → Mn) (f : State → State) : State := coreState id (fun n => m { n with slots := [(0, x)] }) id f

/-- R182: a raw header of a tile of format 2. -/
def rawHeader : BitVec 65536 := BitVec.ofNat 65536 (2 * 2 ^ 192 + 2 ^ 197 + 129 * 2 ^ 200)

def aDecode : Decode := { slot := 0, buf := false, rst := false }

/-- A raw tile that just fits its slot and one that does not; PTLD below and at 192 blocks, for each half; a slot that is claimed, held by a
decode, and neither. -/
theorem witness_DecoderAndFills :
    (∀ e ∈ [(129, true), (128, false)],
      let s := slotState { state := 2, len := BitVec.ofNat 9 e.1, data := rawHeader } (fun m => { m with queue := [aDecode] }) id
      let x := (s.mn 0).slot 0
      s.islandOf 0 = some 0 ∧ (s.island 0).hold = none ∧ (s.mn 0).queue = aDecode :: [] ∧ aDecode.running = false ∧ x.state = 2 ∧
      (if aDecode.rst then 0 else x.off.toNat) < x.len.toNat ∧
      (headerOf (BitVec.ofNat 256 (x.bytes 0 32))).ok 0 x.len.toNat = e.2 ∧ (headerOf (BitVec.ofNat 256 (x.bytes 0 32))).raw = true) ∧
    (let e := { aDecode with running := true, upTo := 4096 }
     let s := slotState { state := 2 } (fun m => { m with queue := [e] }) id
     s.islandOf 0 = some 0 ∧ (s.island 0).hold = none ∧ (s.mn 0).queue = e :: [] ∧ e.running = true ∧
     e.bad = none ∧ ((s.mn 0).buffer e.buf).nsym + 5 < 4096 ∧ 4096 ≤ ((s.mn 0).buffer e.buf).nsym + 4096 ∧ 4096 ≤ e.upTo) ∧
    (∀ e ∈ [(191, false), (192, false), (192, true)],
      let s := slotState { state := 2, len := BitVec.ofNat 9 e.1, claims := 1 }
        (fun m => { m with ptld := .waiting, rows := [(0, { word := 0x9B000007#32 ||| BitVec.setWidth 32 (BitVec.ofBool e.2) <<< 4, tags := 0x7F })] }) id
      decode true (s.mnRow 0).word = .ok (.ptld 0 0 e.2 7) ∧ Instr.wf .mn (.ptld 0 0 e.2 7) = true ∧
      predGet (s.mn 0).preds 7 = true ∧ (s.mn 0).ptld = .waiting ∧ ((s.mn 0).slot 0).claims ≠ 0 ∧ (s.mn 0).queue = [] ∧
      s.kernelBars 0 ((s.mn 0).slot 0).kh = false ∧
      ((s.mn 0).slot 0).state = 2 ∧ ((s.mn 0).slot 0).len.toNat = e.1 ∧ s.islandOf 0 = some 0 ∧ (s.island 0).hold = none) ∧
    (∀ e ∈ [((0 : Nat), 0), (1, 0), (0, 1)],
      let b := { aBinding with port := slotPort 0 0, state := 2 }
      let s := slotState { claims := BitVec.ofNat 4 e.1, holds := e.2 } id fun s => { s with streams := { bindings := [(3, some b)] } }
      let u := slotState { claims := BitVec.ofNat 4 e.1, holds := e.2, pend := true } id id
      s.binding 3 = some b ∧ portSlot b.port = some (0, 0) ∧ b.state = 2 ∧ ((s.mn 0).slot 0).fill = none ∧ ((s.mn 0).slot 0).pend = false ∧
      ((s.mn 0).slot 0).refill = none ∧ s.coreOwner 0 = b.part ∧ s.coreOwner 0 ≠ { b with part := 1 }.part ∧ ((u.mn 0).slot 0).refill = none ∧
      (((s.mn 0).slot 0).claims ≠ 0 ↔ e.1 = 1) ∧ ((s.mn 0).slot 0).holds = e.2 ∧ ((u.mn 0).slot 0).pend = true ∧
      ((u.mn 0).slot 0).claims = ((s.mn 0).slot 0).claims ∧ ((u.mn 0).slot 0).holds = e.2) ∧
    (let b := { aBinding with port := slotPort 0 0, state := 2, pos := 1, filled := 131072 }
     let s := slotState { state := 1, fill := some 3 } id fun s => { s with streams := { bindings := [(3, some b)] } }
     ((s.mn 0).slot 0).refill = none ∧ ((s.mn 0).slot 0).fill = some 3 ∧ s.binding 3 = some b ∧ b.state = 2 ∧ ((s.mn 0).slot 0).state = 1 ∧ b.tile = none ∧ patTotal b.pat ≤ b.pos ∧
     b.ended = false ∧ b.filled % 256 = 0) := by
  decide +kernel

/-! ### Events of the memory system, of streams and of groups -/

/-- A parked store of a sequencer, born at pod time 0. -/
def aParked : Parked :=
  { asid := 0, va := 0xA000000000000040, width := 8, data := 5, ord := 0, scope := 0, denied := false, row := 0, iter := 0, born := 0, retry := true }

def aStaged (op : StagedOp) : Staged :=
  { line := 3, op := op, iss := (tileTurn 0 0 id).seqIssuer 0, entry := some 4, ea := 0xA0000000000000C0, status := false }

/-- A store to the last byte of a line; a translation cache one short of full, and full; a store of the age limit and one younger. -/
theorem witness_MemoryEvents :
    (let r : Req := { iss := (tileTurn 0 0 id).seqIssuer 0, ea := 0xA000000000000040, op := .store 8 5 }
     let s := tileTurn 0 0 fun m => { m with flight := [r] }
     let t := home s 0 (at1 (.store 8 5) 8)
     s.mem.flight[0]? = some r ∧ r.op = .store 8 5 ∧ r.entry = none ∧ r.iss.chip = none ∧ r.target = none ∧
     s.resolve r.iss.cluster r.iss r.ea 8 { wr := true } = .ok t ∧ t.chip = s.chipId ∧ s.pageParked r.iss r.ea = false ∧ s.mustFollow 0 r t = false ∧
     s.homeRefusal t r.iss.part (.store 8 5) = none ∧ look none s.mem.held (lineOf t.la) = none ∧ s.mem.chain.contains (lineOf t.la) = false) ∧
    (let e := aStaged (.store 63 1 6 7)
     let s := tileTurn 0 0 fun m => { m with chain := [3], staged := [e], vers := [(3, 5)] }
     let u := tileTurn 0 0 fun m => { m with chain := [3] }
     s.mem.chain.contains 3 = true ∧ s.mem.nextParked 3 = some e ∧ e.op = .store 63 1 6 7 ∧ u.mem.chain.contains 3 = true ∧
     u.mem.nextParked 3 = none) ∧
    (∀ e ∈ [(StagedOp.load 0 8 1, false), (.phase 1, true)],
      let d : Due := { staged := aStaged e.1, answer := { data := 9 } }
      let s := tileTurn 0 0 fun m => { m with due := [d] }
      let s := s.setSeq 0 { s.seq 0 with wait := some { id := some 4 } }
      s.mem.due.filter (fun y => y.staged.line == 3 && y.staged.isPhase == e.2) = [d] ∧ d.staged.iss.chip = none ∧ d.staged.iss.who = .seq 0 ∧
      d.staged.entry = some 4 ∧ (s.seq 0).wait = some { id := some 4 }) ∧
    (∀ k ∈ [2047, 2048],
      let y : TlbEntry := ⟨0, 0, 0, 2, 0xF400000000000000⟩
      let s := hbmTurn 0 0 0 fun m => { m with tlb := List.replicate k y, bytes := [(7, 0xC0), (15, 0x80)] }
      s.cachedLeaf 0 1 0 = none ∧ s.walk 1 0 = .ok (0xC000000000000000, 1) ∧ (s.mem.tlb.filter (·.unit == 0)).length = k ∧
      s.mem.tlb.filter (·.unit == 0) = y :: List.replicate (k - 1) y) ∧
    (let s := (tileTurn 0 0 id).setSeq 0 { (tileTurn 0 0 id).seq 0 with replay := [aParked] }
     retryIndex (s.replayOf (.seq 0)) = some 0 ∧ (s.replayOf (.seq 0))[0]? = some aParked ∧
     s.resolve (s.parkedIssuer (.seq 0) 0).cluster (s.parkedIssuer (.seq 0) 0) aParked.va 8 (opNeed (.store 8 5)) =
       .ok (home s 0 (at1 (.store 8 5) 8)) ∧
     s.retryWaits (.seq 0) ((s.replayOf (.seq 0)).take 0) aParked (home s 0 (at1 (.store 8 5) 8)) = false ∧
     retryIndex ((tileTurn 0 0 id).replayOf (.seq 0)) = none ∧ retryIndex ((tileTurn 0 0 id).replayOf (.ve 1999)) = none) ∧
    ∀ k ∈ [100000000, 99999999],
      let s := launchTurn {} (some (0, 0))
      let s := { s.setSeq 0 { s.seq 0 with replay := [aParked] } with mgmt := { podTime := BitVec.ofNat 64 k } }
      (s.seq 0).region = some 0 ∧ (s.region 0).owner = some (0, 0) ∧ s.task 0 = some aTask ∧
      (if k = 100000000 then (s.replayOf (.seq 0)).find? (fun y => decide (y.born + 100000000 ≤ s.mgmt.podTime.toNat)) = some aParked
       else ∀ y ∈ s.replayOf (.seq 0), s.mgmt.podTime.toNat < y.born + 100000000) := by
  simp only [toOption_iff]
  decide +kernel

/-- The binding of `streamTurn` at the head of its port. -/
def bindState (x : Binding) (f : State → State) : State := f (streamTurn 1 [(6, some x)] [6] (oneLayout 0))

def aCopy : Binding := { aBinding with kind := .copy 0x40 0 1 false, state := 2, pos := 1 }

/-- An end-of-round marker packed after the last element of a pattern whose RLV is 1. -/
def aMarker : TokenOut := { tok := { data := 1, tag := 7, rnd := 0 }, pos := 1, bytes := 0 }

theorem witness_StreamEvents :
    (∀ x ∈ [aBinding, { aBinding with began := true }, { aBinding with pat := 7 <<< 164 }],
      let s := bindState x id
      (s.port 0).queue = 6 :: [] ∧ s.binding 6 = some x ∧ x.state = 1 ∧ x.write = false ∧ x.writesUnder = none ∧ x.refetch = false ∧
      s.vectorFault x = none ∧ s.stageStopped x = false ∧ s.addersTaken x = false ∧ (patKh x.pat = 0 ↔ x.pat = 0) ∧ (s.handleLets x x.pat x.lay false = (x.pat == 0))) ∧
    (let x := { aBinding with write := true }
     x.writesUnder = some (x.pat, x.lay) ∧ (bindState x id).binding 6 = some x ∧ patKh x.pat = 0 ∧ (bindState x id).stageStopped x = false) ∧
    (∀ n ∈ [1, 2],
      let x := { aBinding with kind := .collective 5 1 (BitVec.ofNat 224 (2 ^ 14)) 0 0 }
      let run : Tab (Option Binding) := (List.range n).map fun k => (k, some { x with state := 2 })
      let s := bindState x fun s => { s with streams := { s.streams with bindings := run ++ s.streams.bindings } }
      (s.port 0).queue = [6] ∧ s.binding 6 = some x ∧ s.adderOf x = some 101 ∧ s.addersTaken x = (n == 2)) ∧
    ((bindState aBinding id).port 1).queue = [] ∧
    (∀ c : Bool, let x := { aCopy with cancelled := c }
      (bindState x id).binding 6 = some x ∧ (bindState x id).bindingDone x = true ∧ x.refetch = false ∧ x.loose = false) ∧
    (bindState aBinding id).bindingDone aBinding = false ∧
    (∀ held : Bool, ∀ ve : Bool,
      let x := { aBinding with state := 2, out := [aMarker], pat := 1 <<< 161 }
      let row : Tab Row := [(3, { rstpt := true })]
      let s := bindState x fun s => if held then { coreState (fun v => { v with rows := if ve then row else [] })
          (fun m => { m with rows := if ve then [] else row }) id id with
        streams := { s.streams with ports := [(0, { queue := [6], rnd := 1 })] } } else s
      s.binding 6 = some x ∧ portSlot x.port = none ∧ portCore x.port = (0, 0) ∧ isMarker aMarker.tok = true ∧ markerKind aMarker.tok = 1 ∧
      patKh x.pat = 0 ∧ s.roundHeld x 0 = held ∧ s.coreOwner 0 = x.part ∧ x.kind = .stream ∧ s.stageStopped x = false ∧
      (s.fifo 0).length + (look [] s.transit 0).length < 32) ∧
    ∀ fin ∈ [[0], []],
      let x := { aBinding with state := 2 }
      let c : Collective := { nm1 := 0, op := 0, elems := 1, joined := [(0, 6)], finished := fin }
      let s := bindState x fun s => { s with streams := { s.streams with colls := [(5, some c)] } }
      s.coll 5 = some c ∧ c.mismatch = false ∧ s.binding 6 = some x ∧ (∀ r, r ≤ c.nm1 → (r ∈ c.finished ↔ fin = [0])) := by
  refine ⟨?_, ?_, ?_, ?_, ?_, ?_, ?_, ?_⟩ <;> decide +kernel

/-- A group of chip 0 at its present epoch, and one of chip 5. -/
def ownGid : GroupId := { chip := 0, asid := 0, grp := 0, epoch := 0 }

def aGst (f : GroupStore → GroupStore) : GroupStore :=
  f { gid := ownGid, id := 1, req := { iss := (groupTurn {}).seqIssuer 0, ea := 0x40, op := .group 0 8 5 }, home := 0, la := 0x40, ver := true, key := some 0,
      first := (0, 3) }

def aHeld (g : GroupId) : Held := { gid := g, copy := 7, part := 0, since := 0, first := (0, 3) }

/-- Group 0 in a state, with this in the memory system. -/
def groupMem (x : Group) (f : Mem → Mem) : State := { groupTurn x with mem := f (groupTurn x).mem }

/-- A log one short of full; a dirty line of the L2 cache; a line held for a decided group, and for an open and a Closing one with no code yet and
with one; a core of an island; CB registers open, with the entry to be taken and not. -/
theorem witness_ErrorEvents :
    (let s := coreState id id id fun s => { s with mem := { log := List.replicate 63 ⟨1, 0, 0⟩, l2 := [(3, { dirty := true })] } }
     s.mem.log.length < 64 ∧ s.islandOf 0 = some 0 ∧ (look {} s.mem.l2 3 : L2Line).dirty = true) ∧
    (let h := aHeld ownGid
     let s := groupMem { state := 3 } fun m => { m with held := [(1, some h)] }
     let u := groupMem {} fun m => { m with held := [(1, some h)], decisions := [(ownGid, 0)] }
     look none s.mem.held 1 = some h ∧ h.gid.chip = s.chipId ∧ (s.ofGid h.gid).epoch = h.gid.epoch ∧ (s.ofGid h.gid).state = 3 ∧
     look none u.mem.held 1 = some h ∧ u.decided h.gid = true) ∧
    (∀ st ∈ [1, 2], ∀ code ∈ [0, 5],
      let h := aHeld ownGid
      let s := groupMem { state := BitVec.ofNat 3 st, code := BitVec.ofNat 5 code } fun m => { m with held := [(1, some h)] }
      look none s.mem.held 1 = some h ∧ s.decided h.gid = false ∧ (s.ofGid h.gid).state ≠ 3 ∧ h.gid.chip = s.chipId ∧
      (s.ofGid h.gid).epoch = h.gid.epoch ∧ (s.ofGid h.gid).state = BitVec.ofNat 3 st ∧ ((s.ofGid h.gid).code = 0 ↔ code = 0)) ∧
    (let s := groupMem { state := 3, recordHere := true } fun m => { m with reserved := [(ownGid.grp.toNat, ownGid)] }
     s.decided ownGid = false ∧ ownGid.chip = s.chipId ∧ (s.ofGid ownGid).epoch = ownGid.epoch ∧ (s.ofGid ownGid).recordHere = true) ∧
    (groupMem {} fun m => { m with decisions := [(ownGid, 0)] }).decided ownGid = true ∧
    ({ mgmt := { stage := 2 } } : State).barOpen = true ∧ (1 : W64).getLsbD 0 = true ∧ (2 : W64).getLsbD 0 = false := by
  decide +kernel

/-- A free line, one that the same group holds, and one that another holds; a store to the last bytes of its line; a home with room for one more
record and with none. -/
theorem witness_GroupEvents :
    (∀ e ∈ [none, some (aHeld ownGid), some (aHeld { ownGid with grp := 1 })],
      let s := groupMem { state := 1 } fun m => { m with groupStores := [aGst id], held := [(1, e)] }
      s.mem.groupStores[0]? = some (aGst id) ∧ (aGst id).staged = false ∧ (aGst id).home = s.chipId ∧ (aGst id).req.op = .group 0 8 5 ∧
      s.current ownGid = true ∧ (s.ofGid ownGid).state = 1 ∧ look none s.mem.held (lineOf 0x40) = e ∧
      s.homeRefusal { chip := s.chipId, la := 0x40, ver := true, key := some 0 } 0 (.load 64) = none ∧ s.wayRoom 0x40 0 = true ∧
      s.mem.chain.contains 1 = false) ∧
    (120 % 64 + 8 ≤ 64) ∧
    (∀ faults : Bool,
      let f : Option (BitVec 8) := if faults then some 0x12 else none
      let e := aGst fun e => { e with staged := true, code := 3, fault := f }
      let s := groupMem { state := 2, stores := 1 } fun m => { m with groupStores := [e] }
      s.mem.groupStores[0]? = some e ∧ e.staged = true ∧ e.acked = false ∧ e.gid.chip = s.chipId ∧ s.current e.gid = true ∧
      (s.ofGid e.gid).state = 2 ∧ e.fault = f) ∧
    (∀ k ∈ [63, 64], ∀ marked ∈ [false, true],
      let s := groupMem { state := 2 } fun m =>
        { m with records := [(ownGid, 3, 9)], reserved := List.replicate k (3, { ownGid with grp := 1 }), aborts := if marked then [ownGid] else [] }
      s.mem.records.find? (·.1 == ownGid) = some (ownGid, 3, 9) ∧ ownGid.chip = s.chipId ∧ s.current ownGid = true ∧
      (ownGid ∈ s.mem.aborts ↔ marked = true) ∧ s.reservedRoom 3 = decide (k = 63)) ∧
    (let h := aHeld ownGid
     let s := groupMem { state := 3 } fun m => { m with commitsIn := [ownGid], abortsIn := [ownGid], acksIn := [(ownGid, 0)], held := [(1, some h)] }
     ownGid ∈ s.mem.commitsIn ∧ ownGid ∈ s.mem.abortsIn ∧ s.linesOf ownGid = [(1, h)] ∧ h.poisoned = false ∧ ownGid.chip = s.chipId ∧ h.ver = true ∧
     inHbm (64 * 1) = true ∧ { ownGid with grp := 1 } ∉ s.mem.commitsIn ∧ { ownGid with grp := 1 } ∉ s.mem.abortsIn ∧
     ({ ownGid with grp := 1 }, 0) ∉ s.mem.acksIn) ∧
    (let s := groupMem { state := 3, dests := [0] } fun m => { m with acksIn := [(ownGid, 0)] }
     (ownGid, 0) ∈ s.mem.acksIn ∧ s.current ownGid = true ∧ (s.ofGid ownGid).dests = [0]) ∧
    (let s := groupMem { state := 4, dests := [5, 0], deferred := true } fun m => { m with acksIn := [(ownGid, 5)] }
     (ownGid, 5) ∈ s.mem.acksIn ∧ s.current ownGid = true ∧ 5 ≠ s.chipId ∧ (s.ofGid ownGid).dests = [5, s.chipId] ∧ (s.ofGid ownGid).deferred = true) := by
  refine ⟨?_, ?_, ?_, ?_, ?_, ?_, ?_⟩ <;> decide +kernel

/-- A group of its greatest age and one period younger; a hold of 2 ms and one that is younger; each state of a queried group. -/
theorem witness_GroupLosses :
    (∀ e ∈ [(1, 1200000), (2, 1200000), (1, 1199999)],
      let s := { groupTurn { state := BitVec.ofNat 3 e.1, dests := [0] } with mgmt := { periods := e.2 } }
      let x := s.group 0 0
      (x.state = 1 ∨ x.state = 2) ∧ (x.opened + 1200000 ≤ s.mgmt.periods ↔ e.2 = 1200000) ∧ x.code = 0 ∧ x.dests = [s.chipId] ∧ x.sent = false) ∧
    (∀ e ∈ [(2000000, 0, none), (2000000, 5, none), (2100000, 5, some 2000000), (1999999, 0, none)],
      let h := { aHeld ownGid with first := (e.2.1, 3), asked := e.2.2 }
      let s := { groupMem {} fun m => { m with held := [(1, some h)] } with mgmt := { podTime := BitVec.ofNat 64 e.1 } }
      look none s.mem.held 1 = some h ∧ (h.since + 2000000 ≤ s.mgmt.podTime.toNat ↔ e.1 ≠ 1999999) ∧ h.asked = e.2.2 ∧
      (e.2.2 = none ∨ e.2.2 = some 2000000 ∧ 2000000 + 100000 ≤ s.mgmt.podTime.toNat) ∧
      (h.first.1 = s.chipId ↔ e.2.1 = 0) ∧ s.decided h.gid = false ∧ h.gid ∉ s.mem.aborts) ∧
    (∀ lost : Bool,
      let h := { aHeld { ownGid with chip := 7 } with first := (5, 3) }
      let s := { groupMem {} fun m => { m with held := [(1, some h)], gone := if lost then [5] else [] } with
        mgmt := { podTime := 2000000 }, links := { rtab := [(5, { v := true, pport := 1 })], ports := [(1, { up := true })] } }
      look none s.mem.held 1 = some h ∧ h.since + 2000000 ≤ s.mgmt.podTime.toNat ∧ h.asked = none ∧ h.first.1 ≠ s.chipId ∧
      h.gid.chip ≠ s.chipId ∧ s.cutOff h.first.1 = lost) ∧
    (∀ first : Bool, ∀ k ∈ [0, 1, 2, 3, 4],
      let s := groupMem { state := BitVec.ofNat 3 k } fun m => { m with queries := [(ownGid, 5, first, 3)], decisions := if k = 3 then [(ownGid, 1)] else [] }
      let u := groupMem { epoch := 1 } fun m => { m with queries := [(ownGid, 5, first, 3)] }
      s.mem.queries.find? (fun q => q.1 == ownGid && q.2.1 == 5) = some (ownGid, 5, first, 3) ∧ s.decided ownGid = decide (k = 3) ∧
      (s.ofGid ownGid).epoch = ownGid.epoch ∧ u.mem.queries = s.mem.queries ∧ (u.ofGid ownGid).epoch ≠ ownGid.epoch) ∧
    State.reset.mem.queries = [] ∧ State.reset.mem.held = [] ∧ State.reset.mem.groups = [] ∧
    (let h := { aHeld { ownGid with chip := 5 } with first := (5, 3) }
     let s := { State.reset with mem := { held := [(1, some h)] } }
     s.mem.held = [(1, some h)] ∧ h.gid.chip = 5 ∧ h.first.1 = 5 ∧ s.mem.groups = []) := by
  refine ⟨?_, ?_, ?_, ?_, ?_, ?_, ?_, ?_⟩ <;> decide +kernel

/-! ### Events of sequencers and of Brass -/

/-- `launchTurn` with the task of its region as given. -/
def taskTurn (x : Task) (f : State → State) : State :=
  let s := launchTurn {} (some (0, 0))
  f { s with brass := { s.brass with tasks := [(0, some x)] } }

theorem witness_SequencerEvents :
    (∀ p ∈ [0, 1],
      let s := { seqTurn 0 {} with brass := { signals := [(0, BitVec.ofNat 7 p)] } }
      s.brass.signals.find? (·.1 == 0) = some (0, BitVec.ofNat 7 p)) ∧
    (let x := { aTask with stages := [{ entry := 0, region := some 0, seq := some 0 }] }
     let s := taskTurn x fun s => s.setSeq 0 { s.seq 0 with barrier := some 3 }
     s.task 0 = some x ∧ x.origin = none ∧ s.allArrived x 3 = true ∧ s.programs x ≠ [] ∧ (s.seq 0).barrier = some 3 ∧ s.allArrived x 4 = false) ∧
    (∀ r ∈ [Run.off, .running, .saved],
      let q : Seq := { run := r, code := some (8, [1, 2]) }
      (seqTurn 0 q).seq 0 = q ∧ q.code = some (8, [1, 2]) ∧ q.codeMayLoad = decide (r ≠ .running)) ∧
    (let f : FaultRec := ⟨0x0213, 1, 2, 0⟩
     let q : Seq := { run := .running, region := some 0 }
     let s := { seqTurn 0 q with regions := [(0, { seq := some 0, islands := [0], rows := 1, cols := 1 })], islands := [(0, { desc := 0x7F000, fault := some (f, 3) })] }
     let u := seqTurn 0 { q with bindFaults := [(f, 3)] }
     (∀ v ∈ [s, u], 0 ≤ 32 ∧ (v.seq 0).lostIsls = [] ∧ (v.seq 0).unack = false ∧ (v.seq 0).run = .running ∧ (v.seq 0).barrier = none ∧ (v.seq 0).wait = none) ∧
     firstWaiting (s.waiting 0) = some (.island 0 f) ∧ firstWaiting (u.waiting 0) = some (.binding f)) ∧
    ((seqTurn 32 { unack := true }).seq 32).unack = true ∧ ((seqTurn 32 { unack := true }).seq 32).lostIsls = [] ∧
    (let s := taskTurn aTask fun s => s.setSeq 0 { s.seq 0 with run := .halted }
     (s.seq 0).run = .halted ∧ (s.seq 0).region = some 0 ∧ (s.region 0).owner = some (0, 0) ∧ s.task 0 = some aTask ∧
     aTask.stages[0]? = some { entry := 0 }) ∧
    ((seqTurn 0 {}).seq 0).run ≠ .halted ∧ (seqTurn 5 {}).actor = .seq 5 ∧ ((seqTurn 5 {}).seq 5).unack = false ∧ (veTurn id).actor = .ve 0 ∧
    (mnTurn id).actor = .mn 0 := by
  refine ⟨?_, ?_, ?_, ?_, ?_, ?_, ?_, ?_, ?_, ?_⟩ <;> decide +kernel

/-- Where an access of Brass goes. -/
def brassHome (s : State) (asid : BitVec 16) (part : BitVec 7) (va : W64) (op : MemOp) : Target :=
  ((s.resolve brassUnit (brassIssuer asid part) va (opWidth op) (opNeed op)).toOption).getD { chip := 0, la := 0, ver := false }

def meetsBrassOpen (s : State) (asid : BitVec 16) (part : BitVec 7) (va : W64) (op : MemOp) (t : Target) : Bool :=
  decide ((s.resolve brassUnit (brassIssuer asid part) va (opWidth op) (opNeed op)).toOption = some t ∧ t.chip = s.chipId ∧
    s.homeRefusal t part op = none ∧ look none s.mem.held (lineOf t.la) = none ∧ s.mem.chain.contains (lineOf t.la) = false)

def meetsBrass (s : State) (work : Nat) (asid : BitVec 16) (part : BitVec 7) (va : W64) (op : MemOp) (t : Target) : Bool :=
  meetsBrassOpen s asid part va op t && decide ((∀ k ∈ s.brass.asks, k.work ≠ work) ∧ va.extractLsb' 51 13 = 0)

theorem brassOpen_iff {s : State} {asid : BitVec 16} {part : BitVec 7} {va : W64} {op : MemOp} {t : Target} :
    BrassOpen s asid part va op t ↔ meetsBrassOpen s asid part va op t = true := by
  simp only [meetsBrassOpen, decide_eq_true_eq]
  exact ⟨fun h => ⟨toOption_iff.mp h.1, h.2, h.3, h.4, h.5⟩, fun ⟨h1, h2, h3, h4, h5⟩ => ⟨toOption_iff.mpr h1, h2, h3, h4, h5⟩⟩

theorem brassReaches_iff {s : State} {work : Nat} {asid : BitVec 16} {part : BitVec 7} {va : W64} {op : MemOp} {t : Target} :
    BrassReaches s work asid part va op t ↔ meetsBrass s work asid part va op t = true := by
  simp only [meetsBrass, Bool.and_eq_true, decide_eq_true_eq]
  exact ⟨fun h => ⟨brassOpen_iff.mp h.toBrassOpen, h.asks, h.form⟩, fun h => { toBrassOpen := brassOpen_iff.mpr h.1, asks := h.2.1, form := h.2.2 }⟩

/-- An access of Brass that is answered, with an answer and a state of which this holds. -/
def gets (f : Fetched) (p : Answer → State → Bool) : Bool := match f with
  | .got a s => p a s
  | .wait _ => false

/-- The nonzero bytes of pieces of memory. -/
def placed (l : List (Nat × List Byte)) : List Host.Cell :=
  l.flatMap fun e => (e.2.zipIdx e.1).filterMap fun b => if b.1 = 0 then none else some (b.2, b.1)

/-- R322: a task record: SEQ, GANG, DEPA, CMPA and DEPV. -/
def aRecord (seq gang depa cmpa : Nat) (depv : BitVec 16) : BitVec 512 :=
  BitVec.ofNat 512 (seq * 2 ^ 448 + gang * 2 ^ 384 + depa * 2 ^ 256 + cmpa * 2 ^ 192) ||| depv.setWidth 512 <<< 176

/-- A queue whose tail word is at 0 and whose ring is at 0x40, with this record in its first slot; a gang of one stage at 0x100, whose entry names
the image at 0x180. -/
def queueState (r : BitVec 512) (tail : BitVec 8) (x : Queue → Queue) : State :=
  let s := launchTurn (x { cfg := 0x8000000000000000, ring := 0x40, tail := 1, ringSet := true, dbSet := true }) none
  { s with mem := { s.mem with bytes := placed [(0, [tail]), (0x40, bytesOf r 64), (0x100, [1]), (0x178, [0x80, 1]), (0x180, shortImage.take 48)] }
           mgmt := { stage := 2 } }

/-- A tail word beyond the tail, one at it, and one that was higher before; a doorbell line that cannot be read, and one that nothing maps; the head
record with the sequence number due, with its reserved bits set, from an earlier lap, one lap on, and further; a version that has come and
one that has not; the largest ring. -/
theorem witness_QueueEvents :
    (∀ e ∈ [((1 : Nat), (0 : Nat)), (2, 0), (1, 3), (2, 3)],
      let s := queueState 0 (BitVec.ofNat 8 e.1) id
      let s := { s with mem := { s.mem with bells := [(0, if e.2 = 0 then none else some (BitVec.ofNat 64 e.2))] } }
      let y := s.queue 0
      let t := brassHome s y.asid y.part y.db (.load 8)
      let now : W64 := (s.mem.read t.la 8).setWidth 64
      let high := (s.listen y).rung y
      s.bellAt y = some t ∧ BrassReaches s (queueWork 0) y.asid y.part y.db (.load 8) t ∧
      y.tail.ult (if now.ult high then high else now) = (e.1 == 2 || e.2 != 0)) ∧
    (let s := queueState 0 2 id
     let s := { s with mem := { s.mem with clean := [] } }
     let y := s.queue 0
     s.bellAt y = some (brassHome s y.asid y.part y.db (.load 8)) ∧
     gets ((s.listen y).brassAccess (queueWork 0) y.asid y.part y.db (.load 8)) (fun a _ => a.fault.isSome) = true) ∧
    (let s := queueState 0 2 fun y => { y with db := 0x4000000000000 }
     s.bellAt (s.queue 0) = none) ∧
    (∀ e ∈ [((1 : Nat), 0), (1, 1), (0, 0), (17, 0), (18, 0)],
      let s := queueState (aRecord e.1 0x100 0 0 0 ||| BitVec.ofNat 512 e.2) 0 id
      let y := s.queue 0
      let t := brassHome s y.asid y.part (y.slotAt y.head) (.load 64)
      let rec_ : BitVec 512 := s.mem.read t.la 64
      y.en = true ∧ y.ovf = false ∧ y.head.ult y.tail = true ∧ BrassReaches s (queueWork 0) y.asid y.part (y.slotAt y.head) (.load 64) t ∧
      (recSeq rec_ - (y.head + 1)).toInt = (e.1 : Int) - 1 ∧ y.size = 16 ∧ recClean rec_ = (e.2 == 0) ∧
      (match (s.brassRead t y.part).readGang 0 rec_ with
       | .ok l _ => l.length == 1
       | _ => false) = true) ∧
    ((queueState 0 0 fun y => { y with cfg := 0 }).queue 0).en = false ∧
    (∀ e ∈ [((0x40 : Nat), 0), (0x40, 1)],
      let x := { aTask with record := aRecord 1 0x100 e.1 0 (BitVec.ofNat 16 e.2) }
      let s := taskTurn x id
      let va := recDepa x.record
      let t := brassHome s x.asid x.part va .readVer
      s.task 0 = some x ∧ x.state = .waiting ∧ va.toNat % 64 = 0 ∧ BrassReaches s (taskWork 0) x.asid x.part va .readVer t ∧ inHbm t.la = true ∧
      verGe (s.foundVer t) (recDepv x.record) = decide (e.2 = 0)) ∧
    (let x := { aTask with record := aRecord 1 0x100 0x41 0 0 }
     (taskTurn x id).task 0 = some x ∧ x.state = .waiting ∧ (recDepa x.record).toNat % 64 ≠ 0) ∧
    (let s := queueState 0 0 id
     let y := s.queue 0
     let t := brassHome s y.asid y.part y.db (.load 8)
     s.barOpen = true ∧ y.tail.ult 2 = true ∧ BrassOpen s y.asid y.part y.db (.atom .maxu 8 2 0) t ∧
     ((s.mem.read t.la 8).setWidth 64 : W64).ult 2 = true ∧
     BrassOpen s y.asid y.part (y.db + 8) (.store 8 ((y.head + 1).setWidth 512)) { t with la := t.la + 8 } ∧ y.ringSet = true ∧ y.dbSet = true ∧
     (0xB000000000000001 : W64).setWidth 16 ≠ (0 : BitVec 16) ∧ ((0xB000000000000001 : W64).extractLsb' 58 4).toNat = 12) ∧
    ((queueState 0 0 fun y => { y with ringSet := false }).queue 0).ringSet = false ∧ (queueState 0 0 id).barOpen = true ∧
    ((queueState 0 0 id).queue 0).tail.ult 1 = false ∧ State.reset.barOpen = false := by
  simp only [brassReaches_iff, brassOpen_iff]
  refine ⟨?_, ?_, ?_, ?_, ?_, ?_, ?_, ?_, ?_, ?_, ?_⟩ <;> decide +kernel

/-- A stage of two rows and two columns, placed at core 0. -/
def aStage : Stage := { entry := 0, rows := 2, cols := 2, mask := 1, region := some 0 }

/-- A task of this stage. -/
def withStage (st : TaskState) (x : Stage) : Task := { aTask with state := st, stages := [x] }

/-- A whole image of two rows and two columns. -/
def fullImage : List Byte :=
  imgRec 1 0 0 ([2, 2, 1, 1, 0xFF] ++ List.replicate 27 0) ++ imgRec 2 0 0 (bytesOf (0x4807F000 : W64) 8) ++
  ([0, 1, 256, 257].flatMap fun t => imgRec 3 t 0 (List.replicate 256 0) ++ imgRec 4 t 0 (List.replicate 256 0)) ++ imgRec 15 0 0 []

/-- The bytes of the image that are not 0, at 0. -/
def imageCells : List Host.Cell :=
  [(0, 1), (4, 32), (16, 2), (17, 2), (18, 1), (19, 1), (20, 255), (48, 2), (52, 8), (65, 240), (66, 7), (67, 72), (72, 3), (77, 1),
   (344, 4), (349, 1), (616, 3), (617, 1), (621, 1), (888, 4), (889, 1), (893, 1), (1160, 3), (1162, 1), (1165, 1), (1432, 4), (1434, 1),
   (1437, 1), (1704, 3), (1705, 1), (1706, 1), (1709, 1), (1976, 4), (1977, 1), (1978, 1), (1981, 1), (2248, 15)]

/-- Memory that holds these bytes. -/
def imageMem (b : List Host.Cell) (s : State) : State :=
  { s with mem := { s.mem with bytes := b, clean := (List.range 8).map fun k => (k, true), keyOf := (List.range 8).map fun k => (k, 1) } }

/-- The checks of an image that was read for a starting stage, its weight references and its data. -/
def stageChecks (x : Task) (fit : Fit) : Fetch → Bool
  | .got (.done im) s1 =>
    (s1.imageStatus im fit).1 == 0 && im.refs 1 == 0 && (match s1.brassBytes (taskWork 0) x.asid x.part 0 0 0 [] with
    | .bytes l s2 => l.isEmpty && (dataWrites im 1 0).all (fun e => !s2.brassHeld x.asid x.part e.1 e.2.1) && (s2.writeAll x.asid x.part (dataWrites im 1 0)).isSome
    | _ => false)
  | _ => false

/-- The task whose image is whole, and the state in which its stage is starting; its page is not cacheable. -/
def imageTask : Task := withStage .starting aStage

def imageState : State :=
  let s := taskTurn imageTask (imageMem imageCells)
  { s with mem := { s.mem with tlb := [⟨brassUnit, 0, 0, 2, 0xF600000000000000⟩] } }

/-- How many bytes of the image have been read: before, and after each header and each body. -/
def imageCuts : List Nat := [0, 16, 48, 64] ++ ((List.range 8).flatMap fun k => [72 + 272 * k, 88 + 272 * k]) ++ [2248, 2264]

def cutAt (k : Nat) : List Byte := fullImage.take (imageCuts.getD k 0)

/-- The bytes so far ask for the next ones, and Brass reads these and leaves the state as it was. -/
def goesOn (u : State) (k : Nat) : Bool :=
  decide (parseImage (cutAt k) = .more (imageCuts.getD (k + 1) 0)) &&
  match u.brassBytes (taskWork 0) 0 0 0 (imageCuts.getD (k + 1) 0) (imageCuts.getD (k + 1) 0) (cutAt k) with
  | .bytes l s => decide (l = cutAt (k + 1)) && decide (s = u)
  | _ => false

theorem readImage_cut {u : State} {k : Nat} (hg : goesOn u k = true) (fuel : Nat) :
    u.readImage (taskWork 0) 0 0 0 (cutAt k) (fuel + 1) = u.readImage (taskWork 0) 0 0 0 (cutAt (k + 1)) fuel := by
  simp only [goesOn, Bool.and_eq_true, decide_eq_true_eq] at hg
  obtain ⟨hp, hr⟩ := hg
  rw [State.readImage, hp]
  simp only
  split at hr
  · rename_i l s e
    simp only [Bool.and_eq_true, decide_eq_true_eq] at hr
    rw [e, hr.1, hr.2]
  · cases hr

theorem readImage_whole {u : State} (hg : ∀ k < 21, goesOn u k = true) {k : Nat} (hk : k ≤ 21) (fuel : Nat) :
    u.readImage (taskWork 0) 0 0 0 [] (fuel + k) = u.readImage (taskWork 0) 0 0 0 (cutAt k) fuel := by
  induction k generalizing fuel with
  | zero => rfl
  | succ k ih => rw [show fuel + (k + 1) = (fuel + 1) + k by omega, ih (by omega), readImage_cut (hg k (by omega))]

theorem readImage_done {u : State} (hg : ∀ k < 21, goesOn u k = true) :
    u.readImage (taskWork 0) 0 0 0 [] 10000 = .got (parseImage (cutAt 21)) u := by
  refine (readImage_whole hg (Nat.le_refl 21) 9979).trans ?_
  have h : (match parseImage (cutAt 21) with | .done _ => true | _ => false) = true := by decide +kernel
  rw [State.readImage]
  split at h
  · rename_i e; rw [e]
  · cases h

/-- What holds of each cut in each of four runs of cuts holds of all. -/
theorem all_cuts {p : Nat → Prop} (h1 : ∀ k < 9, p k) (h2 : ∀ k < 5, p (9 + k)) (h3 : ∀ k < 4, p (14 + k)) (h4 : ∀ k < 3, p (18 + k)) :
    ∀ k < 21, p k := by
  intro k hk
  rcases Nat.lt_or_ge k 9 with h | h
  · exact h1 k h
  · rcases Nat.lt_or_ge k 14 with h' | h'
    · have := h2 (k - 9) (by omega); rwa [show 9 + (k - 9) = k by omega] at this
    · rcases Nat.lt_or_ge k 18 with h'' | h''
      · have := h3 (k - 14) (by omega); rwa [show 14 + (k - 14) = k by omega] at this
      · have := h4 (k - 18) (by omega); rwa [show 18 + (k - 18) = k by omega] at this

theorem starts_goOn : ∀ k < 21, goesOn imageState k = true :=
  all_cuts (by decide +kernel) (by decide +kernel) (by decide +kernel) (by decide +kernel)

theorem stageReads_whole :
    stageChecks imageTask { clu := 0, row := 0, col := 0, alt := 1, seq := none, part := 0, asid := 0 }
      (imageState.readImage (taskWork 0) 0 0 0 [] 10000) = true := by
  rw [readImage_done starts_goOn]
  decide +kernel

/-- A queue of a dispatchable task; a level that has waited long enough and one period less; a slice that is spent and one that is not. -/
theorem witness_TaskEvents :
    (let x := { aTask with state := .ready, cost := 1 }
     let s := taskTurn x fun s => { s with brass := { s.brass with queues := [(0, { cfg := 0x8000000000000000 })], weights := [(0, 1)] } }
     let qs := s.queuesAt 0 0
     s.brass.stopped = false ∧ s.nextLevel 0 = some 0 ∧
     (drr qs (fun j => (look 0 s.brass.weights j).toNat) (fun j => ((s.queueHead j).map (·.2.cost)).getD 0) (400 * (qs.length + 1)) {}).2 = some 0 ∧
     (look {} (s.part 0).levels 0 : Level) = {} ∧ s.queueHead 0 = some (0, x)) ∧
    ({ brass := { stopped := true } } : State).brass.stopped = true ∧
    (∀ n ∈ [1200005, 1200004],
      let s : State := { cycle := BitVec.ofNat 64 n, brass := { parts := [(0, { levels := [(7, { since := some 5 })] })] } }
      (look {} (s.part 0).levels 7 : Level).since = some 5 ∧ (5 + 1200000 ≤ s.now ↔ n = 1200005)) ∧
    (∀ n ∈ [1200, 1199],
      let x := withStage .resident aStage
      let s := taskTurn x fun s => { s with cycle := BitVec.ofNat 64 n, brass := { s.brass with queues := [(0, { cfg := 1 })] } }
      s.task 0 = some x ∧ (x.dispatched + s.sliceOf x ≤ s.now ↔ n = 1200)) ∧
    (let st := { aStage with region := none }
     let x := withStage .pending st
     let s := taskTurn x fun s => { s with brass := { s.brass with parts := [(0, { pending := [0] })] } }
     (s.part 0).pending = [0] ∧ s.task 0 = some x ∧ x.part = 0 ∧ x.retryAt = none ∧ x.saved = none ∧ s.brass.stopped = false ∧ x.stages = [st] ∧
     stageChip st = s.chipId ∧ s.fitAll 0 {} 1 [] [] [st] = some [some { key := 2, alt := 1, seq := none }]) ∧
    (let x := withStage .starting aStage
     let s := taskTurn x (imageMem [])
     s.task 0 = some x ∧ x.stages[0]? = some aStage ∧ x.saved = none ∧ aStage.loaded = false ∧ stageImage aStage = 0 ∧ stageNw aStage = 0 ∧
     (match s.readImage (taskWork 0) x.asid x.part 0 [] 10000 with
      | .got .bad _ => true
      | _ => false) = true) ∧
    (∀ a ∈ [0, 0x40, 0x41],
      let x := { withStage .resident { aStage with done := some 3 } with record := aRecord 1 0 0 a 0 }
      let s := taskTurn x id
      let va := recCmpa x.record
      s.task 0 = some x ∧ x.origin = none ∧ x.ending = false ∧ (∀ z ∈ x.stages, z.done ≠ none) ∧ (recCmpa x.record).toNat = a ∧
      s.host.l2req.getLsbD 0 = false ∧ va.toNat = a ∧ (a = 0x40 → meetsBrass s (taskWork 0) x.asid x.part va (.store 64 (completionRecord x))
        (brassHome s x.asid x.part va (.store 64 (completionRecord x))) = true) ∧ x.frames = [] ∧ x.saved = none ∧ s.chansOf 0 = [] ∧
      x.stages.length ≤ 14 ∧ x.status < 256 ∧ x.nstg < 256) ∧
    (∃ z ∈ (withStage .resident aStage).stages, z.done = none) ∧
    (∀ busy : Bool,
      let x := { withStage .resident aStage with ending := true }
      let s := taskTurn x fun s => if busy then unsettled s else s
      s.task 0 = some x ∧ x.origin = none ∧ s.host.l2req.getLsbD 0 = false ∧ (s.haltTask x).taskQuiet x = !busy) := by
  refine ⟨?_, ?_, ?_, ?_, ?_, ?_, ?_, ?_, ?_⟩ <;> decide +kernel

/-- A resident task whose one stage is as given, with its region and island. -/
def stageState (x : Stage) (f : State → State) : State := taskTurn (withStage .resident x) f

/-- The fifth restart at one round, and one that goes on at once or waits; a failed core with a place elsewhere, and one without, whose
partition has no other cores; a channel whose consumer restarts and one whose producer does; a skew that is over and one that is not. -/
theorem witness_StageRecoveries :
    (∀ st ∈ [{ aStage with restart := true, restarts := 4 }, { aStage with restart := true, moving := true }],
      ∀ busy : Bool,
      let x := withStage .resident st
      let s := stageState st fun s => if busy then unsettled s else s
      let held := (s.holdRegion 0).waive x 0 true
      let moved := (held.onTaskStage 0 0 fun _ => { st with moving := true }).stopStage x st
      s.task 0 = some x ∧ x.stages[0]? = some st ∧ st.region = some 0 ∧ x.preempt = false ∧ x.ending = false ∧ st.failed = false ∧
      st.lastRst = ((s.restartRounds 0).bind (·.head?)).getD 0 ∧ st.shrinkTo = none ∧ held.noLog x 0 = false ∧ moved.stageSettled 0 st = !busy ∧
      moved.chansOf 0 = []) ∧
    ((stageState aStage id).task 0 = some (withStage .resident aStage) ∧ aStage.failed = false ∧ aStage.restart = false) ∧
    (∀ alone : Bool,
      let st := { aStage with failed := true, pin := 0 }
      let x := withStage .resident st
      let s := stageState st fun s =>
        if alone then { s.setCore 0 { s.core 0 with failed := true } with brass := { s.brass with coreOf := (List.range 96).map fun c => (c, if c = 0 then 0 else 5) } }
        else s
      let held := (s.holdRegion 0).waive x 0 true
      let lost := held.onTaskStage 0 0 fun y => { y with moving := true }
      let still := lost.stopStage x st
      s.task 0 = some x ∧ lost.noLog x 0 = false ∧ still.stageSettled 0 st = true ∧ still.chansOf 0 = [] ∧
      still.recoverPlace x st 0 = if alone then none else some { key := 0, alt := 1, seq := none }) ∧
    (∀ e ∈ [(true, false), (false, true)],
      let g : GangChannel := { task := 0, producer := 0, consumer := 1, replay := some false, log := [tok 1 0] }
      let x := { aTask with stages := [{ aStage with restart := e.2 }, { entry := 0, restart := e.1 }] }
      let s := taskTurn x fun s => { s with brass := { s.brass with chans := [(9, some g), (10, some { g with replay := some true })] } }
      s.chan 9 = some g ∧ s.task g.task = some x ∧ look [] s.transit 9 = [] ∧ (x.stages.map (·.restart)) = [e.2, e.1] ∧
      (s.chan 10).map (·.replay) = some (some true)) ∧
    (∀ n ∈ [120000, 119999],
      let st := { aStage with enabledAt := some 0 }
      let x := withStage .resident st
      let s := stageState st fun s => { s with cycle := BitVec.ofNat 64 n }
      s.task 0 = some x ∧ x.stages[0]? = some st ∧ (0 + 1200 * skewOf x.record ≤ s.now ↔ n = 120000)) := by
  refine ⟨?_, ?_, ?_, ?_, ?_⟩ <;> decide +kernel

/-- A resident task whose core has failed, and the state in which its stage, which has settled, is to be moved; its image is whole. -/
def failedStage : Stage := { aStage with failed := true, pin := 0 }

def failedTask : Task := withStage .resident failedStage

def movingState : State :=
  let s := imageMem imageCells (taskTurn failedTask id)
  let s := { s with mem := { s.mem with tlb := [⟨brassUnit, 0, 0, 2, 0xF600000000000000⟩] } }
  ((((s.holdRegion 0).waive failedTask 0 true).onTaskStage 0 0 fun y => { y with moving := true }).stopStage failedTask failedStage)

theorem moves_goOn : ∀ k < 21, goesOn movingState k = true :=
  all_cuts (by decide +kernel) (by decide +kernel) (by decide +kernel) (by decide +kernel)

/-- The rest of what the recovery of a failed core by another place asks: its image is read there, and its region loaded. -/
theorem witness_StageRecoveries_place :
    (match movingState.readImage (taskWork 0) 0 0 0 [] 10000 with
     | .got (.done im) s3 =>
       let w : Machine.Place := { key := 0, alt := 1, seq := none }
       let v := s3.contextOf [0] [] [] false
       decide (movingState.stageSettled 0 failedStage = true ∧ movingState.recoverPlace failedTask failedStage 0 = some w ∧ movingState.chansOf 0 = []) &&
         ((((s3.takeOut [0] v).givePlace 0 failedTask 0 failedStage w).moveChans 0 0 0 0 v).restage failedTask failedStage 0 0 none 1 v im).isSome
     | _ => false) = true := by
  rw [readImage_done moves_goOn]
  decide +kernel

/-- A saved context with one core. -/
def aSaved : Saved := { regions := [(0, { rows := 2, cols := 2, owner := some (0, 0) })], cores := [(5, { bank := true })] }

theorem witness_SaveEvents :
    (∀ t0 ∈ [none, some 0], ∀ h ∈ [none, some Hold.preempt],
      let x := { withStage .resident aStage with preempt := true, settling := t0, need := some 0 }
      let s := taskTurn x fun s => s.setIsland 0 { s.island 0 with hold := h }
      s.task 0 = some x ∧ x.ending = false ∧ x.origin = none ∧ (∀ z ∈ x.stages, stageChip z = s.chipId ∧ z.seq = none) ∧
      s.atRest x = h.isSome ∧ s.settledChans 0 = true ∧ x.need = some 0 ∧ 0 ≤ x.frames.length ∧ s.host.l2req.getLsbD 0 = false) ∧
    (∀ n ∈ [10000000, 9999999],
      let x := { withStage .resident aStage with preempt := true, settling := some 0 }
      let s := taskTurn x fun s =>
        { s with mgmt := { podTime := BitVec.ofNat 64 n }, transit := [(9, [tok 1 0])],
                 brass := { s.brass with chans := [(9, some { task := 0, producer := 0, consumer := 0 })] } }
      s.task 0 = some x ∧ s.settledChans 0 = false ∧ (0 + 10000000 ≤ s.mgmt.podTime.toNat ↔ n = 10000000)) ∧
    (∀ st ∈ [TaskState.starting, .resident],
      let x := withStage st aStage
      let s := taskTurn x fun s => { s with mgmt := { stage := 2 }, brass := { s.brass with parts := [(0, { wait := some (0, false, 3, 1) }), (1, { wait := some (9, false, 3, 1) })] } }
      (s.part 0).wait = some (0, false, 3, 1) ∧ s.task 0 = some x ∧ x.part = 0 ∧ x.origin = none ∧ (∀ z ∈ x.stages, stageChip z = s.chipId) ∧
      s.barOpen = true ∧ (s.part 1).wait = some (9, false, 3, 1) ∧ s.task 9 = none) ∧
    State.reset.barOpen = false ∧ (State.reset.part 0).wait = none ∧
    (∀ l ∈ [[], [({ kh := 0 } : Seal)], [{ kh := 7 }]],
      let v := { aSaved with seals := l }
      let x := { withStage .starting aStage with saved := some v }
      let s := taskTurn x id
      s.task 0 = some x ∧ x.saved = some v ∧ x.ending = false ∧ x.resume = false ∧ s.sealsLost v = (l == [{ kh := 7 }]) ∧ s.samePlaces x v = true ∧
      s.acrossChips x = false ∧ x.inPlace = none ∧
      v.cores = [(5, { bank := true })] ∧ ({ bank := true } : Core).ve.replay = []) ∧
    (let x := { withStage .starting aStage with saved := some aSaved, origin := some (5, 3, 2) }
     let s := taskTurn x id
     s.task 0 = some x ∧ x.ending = false ∧ x.resume = false ∧ s.sealsLost aSaved = false ∧ s.acrossChips x = true ∧ x.inPlace = none ∧
     (x.stages.head?.map (·.ready)) = some none) ∧
    (let x := { withStage .starting aStage with saved := some aSaved, stages := [aStage, { entry := 5 <<< 244 }], inPlace := some true }
     let s := taskTurn x id
     s.task 0 = some x ∧ x.ending = false ∧ x.resume = false ∧ s.sealsLost aSaved = false ∧ s.acrossChips x = true ∧
     s.samePlaces x aSaved = true) ∧
    (taskTurn aTask id).task 0 = some aTask ∧ aTask.saved = none ∧
    (let s := taskTurn (withStage .starting aStage) fun s => { s with mgmt := { stage := 2 } }
     s.barOpen = true ∧ (1 : W64).getLsbD 0 = true ∧ s.host.l2req.getLsbD 0 = false ∧ s.anyRunning = true ∧
     (∀ e ∈ s.brass.tasks, e.2.all (·.state == .starting) = true)) ∧
    ({ mgmt := { stage := 2 } } : State).barOpen = true ∧ ({ mgmt := { stage := 2 } } : State).brass.tasks = [] := by
  refine ⟨?_, ?_, ?_, ?_, ?_, ?_, ?_, ?_, ?_, ?_, ?_, ?_⟩ <;> decide +kernel

/-- A stage of chip 5. -/
def farStage : Stage := { entry := 5 <<< 244, ready := some 7 }

/-- A queue that takes launches of one process of chip 5, whose launch table stands at 8; the image at 0x180 is a header. -/
def memberState (cfg : W64) : State :=
  let s := launchTurn { cfg := cfg } none
  { s with mem := { s.mem with bytes := placed [(8, bytesOf ((1#64 <<< 63) ||| (5#64 <<< 51) ||| (9#64 <<< 35)) 8), (0x180, shortImage.take 48)] }
           brass := { s.brass with ltBase := [(0, 8)], ltCnt := [(0, 1)] } }

def aMember : BitVec 512 := 0x180 <<< 448

/-- An entry that is admitted, one with a reserved bit set, and a queue that takes no launches; ready times of members; a skew limit that is reached
and one that is not, and the eighth late member; a chip unreachable for 10 ms, from now, and seen to have reset. -/
theorem witness_GangEvents :
    (let s := memberState 0x4000000000000000
     let e : Stage := { entry := aMember }
     let y := s.queue (stageQueue e)
     s.memberOf 5 3 2 = none ∧ entryClean aMember = true ∧ stageChip e = s.chipId ∧ y.devl = true ∧ s.admits y.ten 5 9 = true ∧
     (match s.brassBytes (memberWork 5 3 2) y.asid y.part (stageImage e) 48 48 [] with
      | .bytes b _ => (headerStage e b).isSome
      | _ => false) = true ∧ entryClean (aMember ||| 1) = false ∧ s.admits y.ten 5 8 = false ∧ ((memberState 0).queue 0).devl = false) ∧
    (∀ st ∈ [TaskState.starting, .resident],
      (taskTurn (withStage st aStage) id).task 0 = some (withStage st aStage)) ∧
    (let x := withStage .starting { aStage with refused := true }
     let s := taskTurn x id
     s.task 0 = some x ∧ x.origin = none ∧ x.ending = false ∧ x.resume = false ∧ x.saved = none ∧ (∃ z ∈ x.stages, z.refused = true) ∧ s.chansOf 0 = []) ∧
    (∀ timed : Bool, ∀ n ∈ [10, 9],
      let st : Option W64 := if timed then some 10 else none
      let x := { withStage .starting { aStage with loaded := true } with stages := [{ aStage with loaded := true }, farStage], startAt := st, ready := some 3 }
      let s := taskTurn x fun s => { s with mgmt := { podTime := BitVec.ofNat 64 n } }
      s.task 0 = some x ∧ x.ending = false ∧ x.origin = none ∧ s.acrossChips x = true ∧ s.allLoaded x = true ∧ (s.makeChans 0 x).isSome = true ∧
      x.ready ≠ none ∧ (st ≠ none → s.mayStart x = true) ∧
      (∀ z ∈ x.stages, stageChip z ≠ s.chipId → z.ready ≠ none) ∧ (st = none ∨ (s.mgmt.podTime.toNat < 10 ↔ n = 9))) ∧
    (∀ n ∈ [100010, 100009], ∀ started ∈ [true, false], ∀ k ∈ [7, 6],
      let x := { withStage .resident { aStage with started := started } with startAt := some 10, skews := k }
      let s := taskTurn x fun s => { s with mgmt := { podTime := BitVec.ofNat 64 n } }
      s.task 0 = some x ∧ x.origin = none ∧ (10 + 1000 * skewOf x.record ≤ s.mgmt.podTime.toNat ↔ n = 100010) ∧ (∀ z ∈ x.stages, z.started = started)) ∧
    (∀ e ∈ [((0 : Nat), 0), (1, 20000000), (1, 19999999)],
      let x := { withStage .resident aStage with stages := [aStage, farStage], unreached := [(5, e.1)] }
      let s := taskTurn x fun s => { s with mgmt := { podTime := BitVec.ofNat 64 e.2 } }
      s.task 0 = some x ∧ x.origin = none ∧ x.state ≠ .ended ∧ (∃ z ∈ x.stages, stageChip z = 5) ∧ 5 ≠ s.chipId ∧ 5 ∉ s.mem.gone ∧
      s.portTo 5 = none ∧ look 0 x.unreached 5 = e.1 ∧ (e.1 = 0 ∨ look 0 x.unreached 5 + 10000000 ≤ s.mgmt.podTime.toNat + 1)) ∧
    (∀ o ∈ [none, some (5, 3, 2)],
      let x := { withStage .resident aStage with stages := [aStage, farStage], origin := o }
      let s := taskTurn x fun s => { s with mem := { s.mem with gone := [5] } }
      s.task 0 = some x ∧ x.origin = o ∧ 5 ∈ s.mem.gone ∧ (∃ z ∈ x.stages, stageChip z = 5) ∧ 5 ≠ s.chipId) ∧
    (let x := withStage .resident aStage
     let s := taskTurn x id
     s.task 0 = some x ∧ x.origin = none ∧ (∀ z ∈ x.stages, stageChip z = s.chipId) ∧ 5 ≠ s.chipId) := by
  refine ⟨?_, ?_, ?_, ?_, ?_, ?_, ?_, ?_⟩ <;> decide +kernel

/-! ### Events of the host, of Cobalt and of the links -/

/-- A function whose ring 0 is as given, and whose ASID table has one entry, at 0; conf says whether partition 0 is confidential. -/
def dmaState (f : Nat) (x : Ring) (entry : Byte) (bound : BitVec 8) (conf : Bool) : State :=
  let s := hbmTurn 0 0 0 id
  { s with mem := { s.mem with tlb := [⟨dmaUnit, 0, 0, 2, 0xF400000000000000⟩], bytes := placed [(7, [entry])] }
           mgmt := { stage := 2 }, host := { fns := [(f, { rings := [(0, x)], part := bound })] }, sec := { s.sec with conf := [(0, conf)] } }

/-- R357: a block of `len` bytes at device address 0x200, out or in. -/
def aBlock (len : Nat) (out : Bool) : BitVec 512 := BitVec.ofNat 512 (0x200 * 2 ^ 192 + len * 2 ^ 152) ||| (BitVec.ofBool out).setWidth 512

def aRing : Ring := { en := true, tail := 1, head := 0 }

/-- A ring with a block to take; a malformed block, one that its partition refuses, one whose ASID no partition has, one of a confidential partition,
and good ones of 0 and 64 bytes both ways; a ring with nothing to take; a block at its first line, out and in, with its data and without, at its
end, in a ring that has been disabled, and behind a held line. -/
theorem witness_HostEvents :
    (∀ e ∈ [((0 : Nat), true), (64, true), (64, false), (32, true)], ∀ conf : Bool,
      let b := aBlock e.1 e.2
      let s := dmaState 0 aRing 0x80 0 conf
      let x := s.ring 0 0
      s.ringOpen 0 0 = true ∧ x.busy = false ∧ x.en = true ∧ x.ovf = false ∧ x.head.toNat < x.tail.toNat ∧
      blkFormOk b = decide (e.1 ≠ 32) ∧ s.blockPart 0 (blkAsid b) = .part 0 ∧ s.blockOk b 0 = !conf ∧ s.handle (blkKh b) = none) ∧
    (let s := dmaState 5 aRing 0x80 0x81 false
     s.ringOpen 5 0 = true ∧ s.ring 5 0 = aRing ∧ s.blockPart 5 0 = .refused ∧ blkFormOk (aBlock 64 true) = true) ∧
    ((dmaState 0 aRing 0 0 false).blockPart 0 0 = .noAsid) ∧
    (∀ x ∈ [{ aRing with en := false }, { aRing with ovf := true }, { aRing with head := 1 }],
      let y := (dmaState 0 x 0x80 0 false).ring 0 0
      y.busy = false ∧ (y.en = false ∨ y.ovf = true ∨ y.tail.toNat ≤ y.head.toNat)) ∧
    (∀ out : Bool, ∀ buf ∈ [[], List.replicate 64 (3 : Byte)],
      let s := dmaState 0 { aRing with busy := true, blk := aBlock 64 out, buf := buf } 0x80 0 false
      let x := s.ring 0 0
      s.ringOpen 0 0 = true ∧ x.busy = true ∧ x.tag = none ∧ x.en = true ∧ blkKh x.blk = 0 ∧ s.handle 0 = none ∧ 64 * x.done < blkLen x.blk ∧
      s.blockPart 0 (blkAsid x.blk) = .part 0 ∧ blkOut x.blk = out ∧ (64 * x.done + 64 ≤ x.buf.length ↔ buf ≠ []) ∧
      gets (s.workAccess (dmaWork 0 0) dmaUnit (dmaIssuer (blkAsid x.blk) 0) (blkDva x.blk) (if out then .load 64 else .store 64 (ofBytes 512 (x.buf.take 64))) false)
        (fun a _ => a.fault.isNone) = true) ∧
    (let s := dmaState 0 { aRing with busy := true, blk := aBlock 64 true } 0x80 0 false
     let s := { s with mem := { s.mem with held := [(8, some (aHeld ownGid))] } }
     (match s.workAccess (dmaWork 0 0) dmaUnit (dmaIssuer 0 0) 0x200 (.load 64) false with
      | .wait _ => true
      | .got _ _ => false) = true) ∧
    (∀ en : Bool,
      let x := (dmaState 0 { aRing with busy := true, blk := aBlock 64 true, done := 1, en := en } 0x80 0 false).ring 0 0
      x.busy = true ∧ x.tag = none ∧ x.en = en ∧ blkLen x.blk ≤ 64 * x.done) ∧
    State.reset.ringOpen 0 0 = false ∧ (State.reset.fn 0).qsc = false ∧ (State.reset.ring 0 0).busy = false ∧
    (let s : State := { host := { fns := [(3, { qsc := true, rings := [(1, { busy := true })] })] } }
     (s.fn 3).qsc = true ∧ (s.ring 3 1).busy = true ∧ (s.ring 3 1).done % unitAccesses (s.handle (blkKh (s.ring 3 1).blk)) = 0 ∧
     (s.ring 3 1).en = false) ∧
    (∀ n ∈ [0, 1],
      let s : State := { host := { fns := [(3, { qsc := true, reads := if n = 0 then [] else [(2, 1)] })] } }
      (s.fn 3).qsc = true ∧ (s.quiesceCounts 3 = (0, 0, 0) ↔ n = 0) ∧ (look 0 (s.fn 3).reads 2 ≠ 0 ↔ n = 1) ∧ s.waitsFor 3 2 = none) ∧
    (let s : State := { host := { fns := [(3, { rings := [(1, { busy := true, tag := some 2 })], reads := [(2, 1)] })] } }
     s.waitsFor 3 2 = some 1 ∧ look 0 (s.fn 3).reads 2 ≠ 0 ∧ (s.fn 3).qsc = false ∧ (s.fn 4).qsc = false) := by
  refine ⟨?_, ?_, ?_, ?_, ?_, ?_, ?_, ?_, ?_, ?_, ?_, ?_, ?_⟩ <;> decide +kernel

/-- A function whose mailbox holds a message of this type and length, with pieces after its header, and waits to be served. -/
def boxState (f type len : Nat) (l : List (Nat × List Byte)) : State :=
  { mgmt := { stage := 2 }
    sec := { boxes := [(f, { busy := true, written := true, buf := placed ((0, [BitVec.ofNat 8 type, BitVec.ofNat 8 (type / 256), BitVec.ofNat 8 len, BitVec.ofNat 8 (len / 256)]) :: l) })] } }

/-- The message is the next to be served. -/
def isNext (s : State) (f type : Nat) : Bool :=
  decide (s.mgmt.stage = 2 ∧ s.nextBox = some f ∧ s.sec.tearing = none ∧ msgType (s.box f).buf = type ∧ headerFine (s.box f).buf = true)

/-- R353: a seal message of one kernel, for a partition. -/
def sealBox (f part : Nat) : State := boxState f 2 272 [(210, [BitVec.ofNat 8 part]), (232, [1])]

/-- Sealed ranges and kernels in range; a handle that is free, the first one. What a seal opens to is a free value, so either branch may be the
one that is taken. -/
theorem witness_CobaltEvents :
    (∀ f ∈ [0, 1024], (boxState f 1 16 []).boxOpen f = true ∧ ((boxState f 1 16 []).box f).written = true) ∧ State.reset.boxOpen 0 = false ∧
    ({ mgmt := { stage := 2 } } : State).boxOpen 0 = true ∧ (({ mgmt := { stage := 2 } } : State).box 0).written = false ∧ State.reset.mgmt.stage ≠ 2 ∧
    State.reset.sec.tearing = none ∧
    (∀ t ∈ [0, 10],
      let s := boxState 3 t 16 []
      s.mgmt.stage = 2 ∧ s.nextBox = some 3 ∧ s.sec.tearing = none ∧ msgType (s.box 3).buf = t ∧ headerFine (s.box 3).buf = true) ∧
    (∀ t ∈ [1, 2, 3, 4, 6, 7, 8, 9],
      headerFine ((boxState 0 t 15 []).box 0).buf = false ∧ (boxState 0 t 15 []).nextBox = some 0 ∧ isNext (boxState 0 t 16 []) 0 t = true) ∧
    (∀ p ∈ [0, 1],
      let s := boxState 0 1 72 [(48, [BitVec.ofNat 8 p, 1])]
      let b := (s.box 0).buf
      let sels := (List.range (msgNat b 49 1)).map fun k => msgWord b (64 + 8 * k)
      isNext s 0 1 = true ∧ msgLen b = 64 + 8 * msgNat b 49 1 ∧ msgNat b 49 1 = 1 ∧ msgNat b 48 1 = p ∧ msgZero b 50 14 = true ∧
      sels.all selClean = true ∧ sels.all (s.selectorIn p) = decide (p = 0)) ∧
    (msgLen ((boxState 0 1 16 []).box 0).buf ≠ 64 + 8 * msgNat ((boxState 0 1 16 []).box 0).buf 49 1) ∧
    (∀ n ∈ [1, 32, 33],
      let s := boxState 0 4 (64 + 2 * n) [(48, [BitVec.ofNat 8 n])]
      let b := (s.box 0).buf
      isNext s 0 4 = true ∧ msgNat b 48 1 = n ∧ msgLen b = 64 + 2 * n ∧ msgZero b 49 15 = true) ∧
    (∀ e ∈ [((0 : Nat), 0), (1, 5)],
      let s := sealBox e.1 e.2
      let b := (s.box e.1).buf
      isNext s e.1 2 = true ∧ s.sec.cerr = false ∧ msgNat b 232 1 = 1 ∧ msgLen b = 240 + 32 * 1 ∧ msgNat b 210 1 = e.2 ∧ msgZero b 181 3 = true ∧
      msgZero b 211 1 = true ∧ msgZero b 233 7 = true ∧ s.mayAsk e.1 e.2 = decide (e.1 = 0) ∧ msgNat b 212 4 ≤ s.sec.fuses.svn ∧
      s.sealedBy (ofBytes 128 (msgBytes b 16 16)) = false ∧ s.handleFree 1 = true ∧ rangeOk (msgWord b 184) (msgWord b 192) (msgWord b 200) = true ∧
      s.sec.nextList % 2 ^ 32 ≠ 0xFFFFFFFF) ∧
    ({ sealBox 0 0 with sec := { (sealBox 0 0).sec with cerr := true } } : State).sec.cerr = true ∧
    (let s := boxState 0 3 168 []
     let b := (s.box 0).buf
     isNext s 0 3 = true ∧ s.sec.cerr = false ∧ msgLen b = 168 ∧ msgNat b 162 1 < 128 ∧ msgZero b 163 5 = true ∧ s.mayAsk 0 (msgNat b 162 1) = true ∧
     s.handleFree 1 = true ∧ rangeOk (msgWord b 112) (msgWord b 120) (msgWord b 128) = true ∧ rangeOk (msgWord b 136) (msgWord b 144) (msgWord b 152) = true ∧
     msgLen ((boxState 0 3 167 []).box 0).buf ≠ 168) ∧
    (let s := sealBox 1 5
     let u := { s with sec := { s.sec with tearing := some (placed [(16, [5])], true) } }
     u.mgmt.stage = 2 ∧ 1 ≠ 0 ∧ (u.box 1).busy = true ∧ msgType (u.box 1).buf = 2 ∧ u.tearingPart (msgNat (u.box 1).buf 210 1) = true) ∧
    (∀ e ∈ [((0 : Nat), (20 : Nat)), (1, 20), (0, 21)],
      let s := boxState e.1 6 e.2 [(16, [0xFF, 0x0F, 127, 1])]
      let b := (s.box e.1).buf
      isNext s e.1 6 = true ∧ s.sec.cerr = false ∧ msgLen b = e.2 ∧ msgNat b 16 2 < 4096 ∧ msgNat b 18 1 < 128 ∧ msgNat b 19 1 < 2) ∧
    (∀ n ∈ [16, 17], isNext (boxState 0 7 n []) 0 7 = true ∧ msgLen ((boxState 0 7 n []).box 0).buf = n) ∧
    (∀ e ∈ [((0 : Nat), (18 : Nat)), (1, 18), (0, 17)],
      let s := boxState e.1 8 e.2 []
      isNext s e.1 8 = true ∧ msgLen (s.box e.1).buf = e.2 ∧ s.handle (BitVec.ofNat 16 (msgNat (s.box e.1).buf 16 2)) = none) ∧
    (∀ m ∈ [3, 4, 7, 8],
      let s := boxState 0 9 56 [(16, [BitVec.ofNat 8 m])]
      let b := (s.box 0).buf
      isNext s 0 9 = true ∧ msgLen b = 56 ∧ msgNat b 16 1 = m ∧ msgZero b 17 7 = true) ∧
    (∀ busy : Bool,
      let s := boxState 0 5 80 [(16, [2, 1])]
      let s := { s with brass := { queues := if busy then [(0, { cfg := 0x8002000000000000 })] else [] } }
      let b := (s.box 0).buf
      isNext s 0 5 = true ∧ tearFormOk b = true ∧ s.partBusy (BitVec.ofNat 7 (msgNat b 16 1)) = busy ∧
      tearFormOk ((boxState 0 5 81 [(16, [2, 1])]).box 0).buf = false) ∧
    (∀ h ∈ [[], [((64 : Nat), some { aHeld ownGid with part := 3 })]],
      let w := placed [(16, [2, 1]), (65, [16]), (73, [16])]
      let s : State := { mem := { held := h }, sec := { tearing := some (w, true) } }
      s.sec.tearing = some (w, true) ∧ s.rangesHeld (tearRanges w) 2 = !h.isEmpty ∧ BitVec.ofNat 7 (msgNat w 16 1) = 2) ∧
    (∀ t ∈ [0x100, 1],
      let s := { boxState 0 t 24 [(16, [1])] with mgmt := { stage := 0x80 } }
      let b := (s.box 0).buf
      s.mgmt.stage = 0x80 ∧ (s.box 0).busy = true ∧ msgType b = t ∧ headerFine b = true ∧ 24 ≤ msgLen b ∧ msgNat b 16 1 ≤ 1) ∧
    (State.reset.mgmt.stage ≠ 0x80 ∧ (State.reset.box 0).busy = false) := by
  refine ⟨?_, ?_, ?_, ?_, ?_, ?_, ?_, ?_, ?_, ?_, ?_, ?_, ?_, ?_, ?_, ?_, ?_, ?_, ?_, ?_, ?_, ?_, ?_⟩ <;> decide +kernel

/-- A state with a Couri port 0, and one pair with chip 5. -/
def linkState (p : CouriPort) (y : Pair) (f : State → State) : State :=
  f { mgmt := { stage := 2, podTime := 10000000 }, links := { ports := [(0, p)], pairs := [(5, y)] } }

def aPacket (dst psn : Nat) (b : Body) : Packet := { src := 5, dst := dst, psn := psn, body := b }

def upPort : CouriPort := { en := true, up := true, auth := true, rx := { slot0 := some 0 }, tx := { slot0 := some 0 } }

/-- Key slots with room and full; a port that is down, up, and up at its group limit; a fresh and an old sequence number at their boundary; a flit
group of the number due, an older and a newer one, its last allowed NAK; a route that uses its alternate port; ages at their limit and below. -/
theorem witness_LinkEvents :
    (∀ full : Bool,
      let b : Option (BitVec 16) := if full then some 1 else none
      let s := linkState { upPort with tx := { slot0 := some 0, slot1 := b }, sent := 2 ^ 32 } {} id
      s.barOpen = true ∧ (s.couri 0).up = true ∧ 2 ^ 32 ≤ (s.couri 0).sent ∧ ((s.couri 0).tx.slot0 = none ∨ (s.couri 0).tx.slot1 = none ↔ b = none) ∧
      (s.couri 0).tx.slot0 ≠ none) ∧
    ((linkState upPort {} id).couri 0).sent < 2 ^ 32 ∧ ((linkState {} {} id).couri 0).up = false ∧ State.reset.barOpen = false ∧
    (∀ full : Bool,
      let b : Option (BitVec 16) := if full then some 1 else none
      let p := { upPort with rx := { slot0 := some 0, slot1 := b } }
      ((linkState p {} id).couri 0).up = true ∧ ((linkState p {} id).couri 0).rx = { slot0 := some 0, slot1 := b }) ∧
    (∀ en : Bool, ∀ t ∈ [1000000000, 999999999],
      let s := { linkState { en := en, tried := some 0 } {} id with mgmt := { stage := 2, podTime := BitVec.ofNat 64 t } }
      s.barOpen = true ∧ 15 < 16 ∧ (s.couri 0).up = false ∧ (s.couri 0).en = en ∧ (s.couri 0).tried = some 0 ∧
      (0 + 1000000000 ≤ s.mgmt.podTime.toNat ↔ t = 1000000000)) ∧
    (∀ b : Bool, let s := linkState upPort {} fun s => { s with links := { s.links with rtab := [(5, { v := true, use := b, av := true, aport := 1 })] } }
      (s.couri 0).up = true ∧ (s.fn 0).qsc = false ∧ Tab.wf {} s.links.rtab = true ∧ (s.chipRoute 5).pport.toNat = 0 ∧ (s.chipRoute 5).av = true ∧
      (s.chipRoute 5).use = b ∧ (s.pair 5).unacked.isEmpty = true ∧ (s.couri 1).holds.isEmpty = true) ∧
    (aPacket 7 0 (.ended 0 0 0)).dst ≠ State.reset.chipId ∧
    (∀ e ∈ [(2 ^ 31 + 2, 2 ^ 31 - 1), (2 ^ 31 + 3, 2 ^ 31), (3, 0), (4, 1), (2, 2 ^ 32 - 1)],
      let s := linkState {} { expect := 3, held := [aPacket 0 5 (.ended 0 0 0)] } id
      let k := aPacket 0 e.1 (.ended 0 0 0)
      k.dst = s.chipId ∧ isAck k.body = false ∧ (k.psn + 2 ^ 32 - (s.pair k.src).expect) % 2 ^ 32 = e.2 ∧ (s.pair k.src).held.all (·.psn != k.psn)) ∧
    (let s := linkState {} {} id
     (aPacket 0 0 (.ack 3)).dst = s.chipId ∧ (s.pair 5).unacked = []) ∧
    (∀ n ∈ [3, 2, 4],
      let s := linkState { upPort with rxSeq := 3 } {} id
      let g : FlitGroup := { seq := n, epoch := 0, packets := [aPacket 0 0 (.ended 0 0 0)] }
      (s.couri 0).up = true ∧ (s.couri 0).rx.has g.epoch = true ∧ (s.couri 0).rxSeq = 3 ∧ (s.couri 0).rx.has 1 = false ∧ g.packets = [aPacket 0 0 (.ended 0 0 0)]) ∧
    (∀ n ∈ [14, 15],
      let s := linkState { upPort with nakSeq := 3, naks := n } {} id
      (s.couri 0).up = true ∧ (s.couri 0).nakSeq = 3 ∧ (s.couri 0).nakSeq ≠ 4 ∧ (s.couri 0).naks = n ∧ (s.couri 0).rotate = false) ∧
    (∀ t ∈ [0, 1],
      let k : Packet := { src := 0, dst := 5, psn := 9, body := .ended 0 0 0 }
      let s := linkState {} { waiting := [(k, t)] } id
      s.portTo 5 = none ∧ (s.pair 5).waiting = [(k, t)] ∧ k.src = s.chipId ∧ (t + 10000000 ≤ s.mgmt.podTime.toNat ↔ t = 0) ∧ s.links.passing = []) ∧
    (let s := linkState upPort {} fun s => { s with links := { s.links with rtab := [(5, { v := true })] } }
     s.portTo 5 ≠ none ∧ (s.pair 5).held = [] ∧ (s.setPair 5 { expect := 9, held := [aPacket 0 10 (.ended 0 0 0)] }).portTo 5 ≠ none ∧
     ((s.setPair 5 { expect := 9, held := [aPacket 0 10 (.ended 0 0 0)] }).pair 5).expect = 9 ∧
     ((s.setPair 5 { expect := 9, held := [aPacket 0 10 (.ended 0 0 0)] }).pair 5).held ≠ []) ∧
    (∀ t ∈ [20000000, 19999999],
      let q : Seq := { wait := some { id := some 4 } }
      let s := { linkState {} {} fun s => { s with links := { s.links with sentAt := [(4, 1)] }, seqs := [(2, q)] } with
        mgmt := { podTime := BitVec.ofNat 64 t } }
      let r : Req := { iss := s.seqIssuer 2, ea := 0, op := .load 8 }
      look 0 s.links.sentAt 4 ≠ 0 ∧ (look 0 s.links.sentAt 4 + 20000000 ≤ s.mgmt.podTime.toNat + 1 ↔ t = 20000000) ∧ look none s.mem.away 4 = none ∧
      s.seqs.find? (fun x => (x.2.wait.bind (·.id)) == some 4) = some (2, q) ∧
      look none ({ s with mem := { s.mem with away := [(4, some r)] } } : State).mem.away 4 = some r) ∧
    (∀ m : Bool, let s := linkState upPort {} fun s => { s with links := { s.links with master := m } }
      s.links.master = m ∧ s.links.ports.any (·.2.up) = true) ∧
    State.reset.links.ports.any (·.2.up) = false := by
  refine ⟨?_, ?_, ?_, ?_, ?_, ?_, ?_, ?_, ?_, ?_, ?_, ?_, ?_, ?_, ?_, ?_, ?_⟩ <;> decide +kernel

/-- Boots that are refused, of both slots (what passes is signed, and the outcome of a signature is a free value); each stage; registers that are
open and closed; shares at their sum and beyond it. -/
theorem witness_ManagementEvents :
    (let s := State.reset
     s.mgmt.stage = 0 ∧ s.mgmt.held = false ∧ s.sec.fuses.complete.boots 0 = false ∧ s.sec.fuses.complete.boots 1 = false ∧ s.barOpen = false ∧
     s.boxOpen 0 = false ∧ s.ringOpen 0 0 = false) ∧
    ({ mgmt := { held := true } } : State).mgmt.held = true ∧
    (∀ n ∈ [0, 1, 2], ({ mgmt := { stage := BitVec.ofNat 8 n } } : State).mgmt.stage = BitVec.ofNat 8 n) ∧
    (let s := linkState {} {} id
     s.barOpen = true ∧ s.mayBind 0 = true ∧ s.mayBind 1024 = true ∧ s.mayBind 1025 = false ∧ s.mayAssign 5 0 = true ∧ s.mayAssign 5 3 = false ∧
     s.ringOpen 1024 3 = true ∧ (s.ring 1024 3).en = false ∧ s.links.ports.any (·.2.up) = false ∧ (linkState upPort {} id).links.ports.any (·.2.up) = true) ∧
    (∀ b : Bool, let s := boxState 0 1 16 []
      let s := s.setBox 0 { s.box 0 with busy := b }
      s.boxOpen 0 = true ∧ (s.box 0).busy = b ∧ 4088 % 8 = 0 ∧ 4088 < 4096) ∧
    (∀ n ∈ [255, 256],
      let s : State := { mgmt := { stage := 2 }, brass := { parts := [(3, { lshr := 1, mshr := 1, ways := 1 })] } }
      let v : W64 := BitVec.ofNat 64 (n % 256 * 256 + n % 256)
      let u : State := { s with brass := { parts := [(3, { lshr := 255, mshr := 2 })] } }
      s.barOpen = true ∧ s.otherShares 5 (·.lshr) + (v.extractLsb' 8 8).toNat ≤ 256 ∧ s.otherShares 5 (·.mshr) + (v.setWidth 8 : BitVec 8).toNat ≤ 256 ∧
      256 < u.otherShares 5 (·.lshr) + ((0x200 : W64).extractLsb' 8 8).toNat ∧
      s.otherWays 5 &&& (0x7FFE : W64).setWidth 15 = 0 ∧ s.otherWays 5 &&& (1 : W64).setWidth 15 ≠ 0) ∧
    (∀ e ∈ [(true, false), (false, false)],
      let v : W64 := if e.1 then 1 else 0
      v.getLsbD 0 = e.1 ∧ v.getLsbD 1 = e.2) := by
  refine ⟨?_, ?_, ?_, ?_, ?_, ?_, ?_⟩ <;> decide +kernel

/-! ### Statements about words and steps -/

theorem witness_DecodeEncode :
    (∀ e ∈ specWords, encode e.2.2 = some e.2.1 ∧ e.2.2.readBy e.1 = true ∧ decode e.1 e.2.1 = .ok e.2.2) ∧
    encode (.romBoot) = none := by
  decide +kernel

theorem witness_StepKeepsMemoryCanonical :
    ∃ t, step { turns := [.event .correctableError], mem := { bytes := [(3, 1), (5, 2)] } } = .next t ∧
      ({ turns := [.event .correctableError], mem := { bytes := [(3, 1), (5, 2)] } } : State).Inv :=
  ⟨_, rfl, ⟨by decide⟩⟩

/-- A word that decodes, one that does not, a pc past the end and one not aligned under both values of UNACK, a sequencer that does not run, one that is not there, and each other turn. -/
theorem witness_StepRunsWord :
    (∀ w ∈ [(0x100000E0 : Nat), 0xFFFFFFFF],
      let s := { seqTurn 32 { run := .running, imem := [(0, BitVec.ofNat 32 w)] } with turns := [.seq 32 false] }
      s.turns = .seq 32 false :: [] ∧ 32 ≤ 32 ∧ (s.seq 32).run = .running ∧ s.mgmt.d3hot = false ∧ s.stuckOn (.seq 32) = false ∧
      (s.seq 32).pc.toNat % 4 = 0 ∧ (s.seq 32).pc.toNat ≤ 0xFFFC ∧
      (if w = 0xFFFFFFFF then decode false (look 0 (s.seq 32).imem ((s.seq 32).pc.toNat / 4)) = .bad .unassigned
       else decode false (look 0 (s.seq 32).imem ((s.seq 32).pc.toNat / 4)) = .ok (.tack 7))) ∧
    (∀ e ∈ [(0x10000, false), (2, true)],
      let s := { seqTurn 0 { run := .running, pc := BitVec.ofNat 64 e.1, unack := e.2 } with turns := [.seq 0 false] }
      s.turns = .seq 0 false :: [] ∧ (s.seq 0).run = .running ∧ s.mgmt.d3hot = false ∧ (s.seq 0).unack = e.2 ∧ s.stuckOn (.seq 0) = false ∧
      ¬ ((s.seq 0).pc.toNat % 4 = 0 ∧ (s.seq 0).pc.toNat ≤ 0xFFFC)) ∧
    (let q : Seq := { run := .running, replay := List.replicate 16 aParked }
     let s := { seqTurn 0 q with turns := [.seq 0 false] }
     let s := { s with mem := { s.mem with flight := [{ iss := s.seqIssuer 0, ea := 0xA000000000000040, op := .store 8 5, stuck := true }] } }
     s.turns = .seq 0 false :: [] ∧ (s.seq 0).run = .running ∧ s.mgmt.d3hot = false ∧ s.stuckOn (.seq 0) = true) ∧
    (∀ n ∈ [0, 33], ∃ s : State, s.turns = [Turn.seq n true] ∧ (s.seq n).run ≠ .running) ∧
    (∃ s : State, s.turns = [Turn.event .romBoot]) ∧ (∃ s : State, s.turns = [Turn.event (.timingTrap 0)]) ∧ (∃ s : State, s.turns = [.cycle]) ∧
    (State.reset.turns = [] ∧ State.reset.mgmt.stage = 0) ∧
    (∃ s1 t, decode false ((veTurn id).veRow 0).word = .ok (.nop 0) ∧ decode true ((veTurn id).mnRow 0).word = .ok (.nop 0) ∧
      exec (.nop 0) { veTurn id with actor := .ve 0 } = .next s1 ∧ exec (.nop 0) { s1 with actor := .mn 0 } = .next t) := by
  refine ⟨by decide +kernel, by decide +kernel, by decide +kernel, fun n _ => ⟨{ turns := [.seq n true] }, rfl, ?_⟩, ⟨{ turns := [.event .romBoot] }, rfl⟩,
    ⟨{ turns := [.event (.timingTrap 0)] }, rfl⟩, ⟨{ turns := [.cycle] }, rfl⟩, by decide, ⟨_, _, by decide +kernel, by decide +kernel, rfl, rfl⟩⟩
  change (({} : Seq).run ≠ Run.running)
  decide

/-- The first and the last opcode of each run that is not assigned, and the assigned ones beside them; a sequencer with no trap unacknowledged
and with one; a VE and an MN. -/
theorem witness_UnassignedOpcodes :
    (∀ op ∈ [0x14, 0x1F, 0x4E, 0x4F, 0x6C, 0x7F, 0x88, 0x8F, 0x9C, 0x9F, 0xAE, 0xBF, 0xCC, 0xCF, 0xE2, 0xEF, 0xFC, 0xFF],
      decode false (BitVec.ofNat 32 (op * 2 ^ 24)) = .bad .unassigned) ∧
    (∀ op ∈ [0x13, 0x20, 0x4D, 0x50, 0x6B, 0x80, 0x87, 0x90, 0x9B, 0xA0, 0xAD, 0xC0, 0xCB, 0xD0, 0xE1, 0xF0, 0xFB],
      decode false (BitVec.ofNat 32 (op * 2 ^ 24)) ≠ .bad .unassigned) ∧
    (∀ u : Bool, (seqTurn 0 { unack := u }).actor = .seq 0 ∧ ((seqTurn 0 { unack := u }).seq 0).unack = u) ∧
    (veTurn id).actor = .ve 0 ∧ (mnTurn id).actor = .mn 0 := by
  decide +kernel

/-! ### Words and ill-formed terms -/

/-- Words written out in the spec's tables and examples, and one of the family 0x60 from R129 Table 8 and the fields of format A: RSQRT of the
latch or port 11 into latch 2 with route 4 under P7. -/
theorem test_words : (∀ e ∈ specWords, decode e.1 e.2.1 = .ok e.2.2) ∧
    decode false (0x66#8 ++ 11#4 ++ 0#4 ++ 2#4 ++ 4#4 ++ 7#3 ++ 0#5) = .ok (.rsqrt 11 2 4 7 false) := by
  decide +kernel

/-- R418, R419, R130: an event is no word; an arithmetic word of a VE and a word of Cobalt are illegal on a sequencer; a reserved field. -/
theorem test_illFormed :
    Instr.check .seq .romBoot = some .notAWord ∧ Instr.check .seq (.fadd 0 1 2 0 7 false false 0) = some .executor ∧
    Instr.check .seq (.khnd 1 2) = some .executor ∧ Instr.check .seq (.ld 1 4 0 5 3 0) = some .reserved ∧
    Instr.check .seq (.ld 1 4 0 0 3 0) = none ∧ Instr.check .mn (.ptld 5 2 true 7) = none := by
  decide +kernel

/-! ### Numbers of the spec -/

/-- R104, R106 Table 6: source code, target, NS, result, rounding to nearest even. -/
theorem test_conversions :
    ∀ e ∈ [((0x3E99999A : Nat), Fmt.e4m3, false, (0x2A : Nat)), (0x43FA0000, .e4m3, false, 0x7E), (0x43FA0000, .e4m3, true, 0x7F),
      (0x43FA0000, .e5m2, false, 0x60), (0x3A83126F, .e4m3, false, 0x01), (0xBA800000, .e4m3, false, 0x80), (0x3F818000, .bf16, false, 0x3F82),
      (0x40200000, .e2m1, false, 4), (0x40A00000, .e2m1, false, 6), (0x40E00000, .e2m1, true, 7), (0xC3488000, .i8, false, 0x80)],
      cvt (valOf .fp32 e.1) e.2.1 .rne e.2.2.1 = e.2.2.2 := by
  decide +kernel

/-- R109: 2^24, 1, 1, −2^24 and twelve zeros add up to 1. -/
theorem test_reductionTree :
    treeTop (addCode .fp32 .rne) 4 ([0x4B800000, 0x3F800000, 0x3F800000, 0xCB800000] ++ List.replicate 12 0) = 0x3F800000 := by
  decide +kernel

/-- R112 to R114: the worked example of one promoted element, and the four rows of Table 9. -/
theorem test_promotions :
    (let p := blockCode (83886095 * 10 ^ 0 * 2 ^ 266 / 10) 0b1000
     p = 0x4B000002 ∧ promoteCode 0x3F800000 p 0x3F000000 0x40400000 = 0x4B400004) ∧
    ∀ e ∈ [((0x80000000 : Nat), (0x40000000 : Nat), (0 : Nat), (0 : Nat)), (0, 0xBF800000, 0x40A00000, 0x40A00000),
      (0x80000000, 0xBF800000, 0xC0E00000, 0xC0E00000), (0x3F800000, 0x40E00000, 0xC0E00000, 0)],
      promoteCode e.2.2.1 e.1 e.2.1 0x3F800000 = e.2.2.2 := by
  decide +kernel

/-- R262: coordinates −2 to 5 of a dimension of 4. -/
theorem test_mirror :
    [-2, -1, 0, 1, 2, 3, 4, 5].map (fun c => mirrorCoord c 4 false) = [2, 1, 0, 1, 2, 3, 2, 1] ∧
    [-2, -1, 0, 1, 2, 3, 4, 5].map (fun c => mirrorCoord c 4 true) = [1, 0, 0, 1, 2, 3, 3, 2] := by
  decide +kernel

/-- R13, R71, R92 to R94: a core's numbers, and the worked translation of a leaf. -/
theorem test_places :
    coreAt 9 3 7 = 907 ∧ vaIndex 0x400012345678 1 = 0x80 ∧ vaIndex 0x400012345678 2 = 2 ∧ vaIndex 0x400012345678 3 = 0x468 ∧
    (let t := targetOf 0xF400500206002001 3 0x400012345678
     t.la = 0x1000D678 ∧ t.chip = 2 ∧ t.key = some 5 ∧ t.ver = true) ∧ ptePart 0xF400500206002001 = 3 ∧ sliceOf 0x1000D678 = 21 := by
  decide +kernel

/-- A G register after an instruction of sequencer 0 with these registers. -/
def after (i : Instr) (g : Tab W64) (d : BitVec 4) : W64 := match exec i (seqTurn 0 { g := g }) with
  | .next t => (t.seq 0).get d
  | _ => 0

/-- R150, R163: MOVI and MOVHI of the worked example of R256; LOOP's target of the example of R150. -/
theorem test_constants :
    after (.movi 2 0xA000) [] 2 = 0xFFFFFFFFFFFFA000 ∧ after (.movhi 2 2 0x28) [(2, 0xFFFFA00000000000)] 2 = 0xA000000000000028 ∧
    (match exec (.loop 5 0xFFFF) (seqTurn 0 { pc := 0x108, g := [(5, 8)] }) with
     | .next t => (t.seq 0).pc == 0x104 && (t.seq 0).get 5 == 7
     | _ => false) = true := by
  decide +kernel

/-- The tile line of the worked example of R82 to R88: version 0xFE; 0x100 waits, 0xFF applies it too, a replay is stale. -/
theorem test_versionOrder :
    ((0x100 : BitVec 16) - 0xFE).toNat = 2 ∧ verGe 0xFE 0x100 = false ∧ verGe 0x100 0x100 = true ∧ verGe 0xFF 0x100 = false := by
  decide +kernel

/-- R106, R174: the worked example of QNT into part 1 of latch 4: lane 1, −3.7, times 0.75; lane 3, 640, saturates. -/
theorem test_quantise :
    (let x : BitVec 512 := ofLanes 512 32 fun k => [0x3F800000, 0xC06CCCCD, 0x43FA0000, 0x44200000, 0x80000000].getD k 0
     let s := veTurn fun v => { v with latches := [(0, tok 0x3F400000 1), (4, some (tok (ofLanes 512 8 fun _ => 0x11) 3))], ports := [(3, tok x 1)] }
     match exec (.qnt 11 0 4 0 1 false 0 false 0) s with
     | .next t => (look none (t.ve 0).latches 4 : Option Token).map (fun (y : Token) => (List.range 24).map fun k => (lane y.data 8 (k + 14)).toNat) ==
         some [0x11, 0x11, 0x34, 0xC3, 0x7C, 0x7E, 0x80, 0, 0, 0, 0, 0, 0, 0, 0, 0, 0, 0, 0x11, 0x11, 0x11, 0x11, 0x11, 0x11]
     | _ => false) = true := by
  decide +kernel

/-- R255, R256: the first access of the worked example: PHASE 7, PENDING 2, INIT 2, version 0x10 in memory tile 5; one arrives, g4 receives 7. -/
theorem test_barrier :
    (let a := tileBase + 5 * 0x80000 + 0x1C0
     let s := seqTurn 0 { g := [(2, 0xA0000000002801C0), (3, 1)] }
     let s := { s with mem := { s.mem with bytes := [(a, 7), (a + 4, 2), (a + 8, 2)], vers := [(lineOf a, 0x10)] } }
     match exec (.abar 2 3 4 2 2 0 false 0) s with
     | .next t => (t.seq 0).get 4 == 7 && t.mem.read a 12 == 0x20000000100000007#512 && t.mem.ver (lineOf a) == 0x11
     | _ => false) = true := by
  decide +kernel

/-- R187: step 0 of the worked example of one lane: state 2470 and word 0x3E52 give symbol 0x38, state 1690 and 14 bits left. -/
theorem test_decodeStep :
    (let t : DecTable := { entries := BitVec.ofNat 98304 (0x382698 * 2 ^ (24 * 2470)) }
     let r := ({ lanes := [{ st := 2470 }], out := 0 } : SegRun).step t { data := 0x3E52 } 0 1 0 0
     r.lanes = [{ st := 1690, buf := 0x3E52 / 4, cnt := 14 }] ∧ r.words = 1 ∧ r.bad = none ∧ r.out.toNat = 0x38) := by
  decide +kernel

end Sys2Proof.Tests
end

section
/-! Predicates and iteration counters (R163 to R165): what CMP, FCMP, PLOG, PRD and PWR write, how the iteration counters of a VE and of
an MN advance, and which bits of PLOG and ITSET are reserved. -/

namespace Sys2Proof.Machine

/-! ### Words with a reserved bit set -/

/-- A field that is not zero has a bit set. -/
theorem exists_bit_of_extractLsb'_ne_zero {w : Word} {lo n : Nat} (h : w.extractLsb' lo n ≠ 0#n) :
    ∃ j < n, w.getLsbD (lo + j) = true := by
  refine Classical.byContradiction fun hnone => h (BitVec.eq_of_getLsbD_eq fun j hj => ?_)
  have hbit : ¬ w.getLsbD (lo + j) = true := fun hb => hnone ⟨j, hj, hb⟩
  simp [hj, hbit]

/-- A row that fixes a bit at 0 does not take a word with the bit set (R420). -/
theorem row_reservedBits {w mask fixed : Word} {i : Instr} {k : Nat} (hk : w.getLsbD k = true) (hm : mask.getLsbD k = true)
    (hf : fixed.getLsbD k = false) : row w mask fixed i = .bad .reservedBits := by
  refine if_neg fun h => ?_
  have := congrArg (·.getLsbD k) h
  simp [hk, hm, hf] at this

/-- A row that fixes a whole field at 0 does not take a word whose field is not zero (R420). -/
theorem row_reservedField {w mask fixed : Word} {i : Instr} {lo n : Nat} (h : w.extractLsb' lo n ≠ 0#n)
    (hfixed : ∀ j < n, mask.getLsbD (lo + j) = true ∧ fixed.getLsbD (lo + j) = false) :
    row w mask fixed i = .bad .reservedBits := by
  obtain ⟨j, hj, hbit⟩ := exists_bit_of_extractLsb'_ne_zero h
  obtain ⟨hmask, hzero⟩ := hfixed j hj
  exact row_reservedBits hbit hmask hzero

/-- The two halves of a word's opcode, as `decode` reads them. -/
theorem field_opcode {w : Word} {op : BitVec 8} (h : w.extractLsb' 24 8 = op) :
    field w 28 4 = op.extractLsb' 4 4 ∧ field w 24 4 = op.extractLsb' 0 4 := by
  subst h
  constructor <;> refine BitVec.eq_of_getLsbD_eq fun j hj => ?_
  · simp [field, show 4 + j < 8 by omega, ← Nat.add_assoc]
  · simp [field, show j < 8 by omega]

theorem decode_opcode_plog {w : Word} (mn : Bool) (h : w.extractLsb' 24 8 = 0x42#8) :
    decode mn w = row w 0xFF888F03 0x42000000 (.plog (field w 20 3) (field w 16 3) (field w 12 3) (field w 5 3) (field w 2 3)) := by
  obtain ⟨hhigh, hlow⟩ := field_opcode h
  simp [decode, decodePredicate, hhigh, hlow]

theorem decode_opcode_itset {w : Word} (mn : Bool) (h : w.extractLsb' 24 8 = 0x45#8) :
    decode mn w = row w 0xFFFC0000 0x45000000 (.itset (field w 16 2) (field w 0 16)) := by
  obtain ⟨hhigh, hlow⟩ := field_opcode h
  simp [decode, decodePredicate, hhigh, hlow]

/-- R164: a[3], b[3], d[3] and mod[1:0] of PLOG are reserved. -/
theorem decode_plog_reservedBits {w : Word} (mn : Bool) (hop : w.extractLsb' 24 8 = 0x42#8)
    (h : w.getLsbD 23 = true ∨ w.getLsbD 19 = true ∨ w.getLsbD 15 = true ∨ w.extractLsb' 0 2 ≠ 0#2) :
    decode mn w = .bad .reservedBits := by
  rw [decode_opcode_plog mn hop]
  rcases h with ha | hb | hd | hmod
  · exact row_reservedBits ha (by decide) (by decide)
  · exact row_reservedBits hb (by decide) (by decide)
  · exact row_reservedBits hd (by decide) (by decide)
  · exact row_reservedField hmod (by decide)

/-- R165: a and d[3:2] of ITSET are reserved. -/
theorem decode_itset_reservedBits {w : Word} (mn : Bool) (hop : w.extractLsb' 24 8 = 0x45#8) (h : w.extractLsb' 18 6 ≠ 0#6) :
    decode mn w = .bad .reservedBits := by
  rw [decode_opcode_itset mn hop]
  exact row_reservedField h (by decide)

/-! ### Conditions over lanes and functions of predicates -/

/-- R163: the condition of CMP on two lanes. -/
theorem intCond_iff {w : Nat} (c : BitVec 3) (x y : BitVec w) : intCond c x y = true ↔ laneCondition c x y := by
  have hc : c = 0 ∨ c = 1 ∨ c = 2 ∨ c = 3 ∨ c = 4 ∨ c = 5 ∨ c = 6 ∨ c = 7 := by
    revert c
    decide
  rcases hc with rfl | rfl | rfl | rfl | rfl | rfl | rfl | rfl
  · exact show (x == y) = true ↔ x = y from beq_iff_eq
  · exact show (x != y) = true ↔ x ≠ y from bne_iff_ne
  · exact show x.slt y = true ↔ x.toInt < y.toInt from BitVec.slt_iff_toInt_lt
  · exact show (!x.slt y) = true ↔ y.toInt ≤ x.toInt by rw [Bool.not_eq_true', ← Bool.not_eq_true, BitVec.slt_iff_toInt_lt, Int.not_lt]
  · exact show x.ult y = true ↔ x.toNat < y.toNat from BitVec.ult_iff_toNat_lt
  · exact show (!x.ult y) = true ↔ y.toNat ≤ x.toNat by rw [Bool.not_eq_true', ← Bool.not_eq_true, BitVec.ult_iff_toNat_lt, Nat.not_lt]
  · exact show x.sle y = true ↔ x.toInt ≤ y.toInt from BitVec.sle_iff_toInt_le
  · exact show (!x.sle y) = true ↔ y.toInt < x.toInt by rw [Bool.not_eq_true', ← Bool.not_eq_true, BitVec.sle_iff_toInt_le, Int.not_le]

theorem overLanes_iff (n : Nat) (any : Bool) (f : Nat → Bool) :
    overLanes n any f = true ↔ if any then ∃ k < n, f k = true else ∀ k < n, f k = true := by
  cases any <;> simp [overLanes]

theorem cmpLanes_iff {N : Nat} (w : Nat) (c : BitVec 3) (any : Bool) (x y : BitVec N) :
    cmpLanes w c any x y = true ↔ if any then ∃ k < N / w, laneCondition c (lane x w k) (lane y w k)
      else ∀ k < N / w, laneCondition c (lane x w k) (lane y w k) := by
  simp only [cmpLanes, overLanes_iff, intCond_iff]

/-- R164: the function of PLOG is the one its table names. -/
theorem logicFn_eq_predicateFn (f : BitVec 3) (x y : Bool) : logicFn f x y = predicateFn f x y := by
  revert f x y
  decide

/-- R164: PRD reads P0 to P7, so bit 7 as 1, and zeros above them. -/
theorem getLsbD_predByte_setWidth (p : BitVec 8) {k : Nat} (hk : k < 64) :
    ((predByte p).setWidth 64).getLsbD k = (decide (k < 8) && predGet p (BitVec.ofNat 3 k)) := by
  rw [BitVec.getLsbD_setWidth, decide_eq_true hk, Bool.true_and]
  by_cases h8 : k < 8
  · have hseven : ∀ k < 8, (0x80 : BitVec 8).getLsbD k = (BitVec.ofNat 3 k == 7) := by decide
    rw [predByte, BitVec.getLsbD_or, hseven k h8, predGet, BitVec.toNat_ofNat, Nat.mod_eq_of_lt h8, decide_eq_true h8, Bool.true_and,
      Bool.or_comm]
  · rw [BitVec.getLsbD_of_ge _ k (Nat.le_of_not_lt h8), decide_eq_false h8, Bool.false_and]

/-- R164: PWR writes the predicates that the mask names, and never P7. -/
theorem getLsbD_predWrite (p : BitVec 8) (v mask : W64) {k : Nat} (hk : k < 8) :
    (predWrite p v mask).getLsbD k = if k ≠ 7 ∧ mask.getLsbD k then v.getLsbD k else p.getLsbD k := by
  have hlow : ∀ k < 8, (0x7F : BitVec 8).getLsbD k = decide (k ≠ 7) := by decide
  simp only [predWrite, BitVec.getLsbD_or, BitVec.getLsbD_and, BitVec.getLsbD_not, BitVec.getLsbD_setWidth, hlow k hk, hk, decide_true,
    Bool.true_and]
  by_cases h7 : k = 7 <;> cases mask.getLsbD k <;> simp [h7]

/-! ### The state after a predicate is written -/

theorem seqBecomes_seqPred (s : State) (n : Nat) (k : BitVec 3) (v : Bool) :
    SeqBecomes s (s.seqPred n k v) n { s.seq n with preds := predSet (s.seq n).preds k v }.step := seqBecomes_seqNext _ _ _

theorem veBecomes_vePred (s : State) (c : Nat) (k : BitVec 3) (v : Bool) :
    VeBecomes s (s.vePred c k v) c { s.ve c with preds := predSet (s.ve c).preds k v } := veBecomes_setVe _ _ _

theorem mnBecomes_mnPred (s : State) (c : Nat) (k : BitVec 3) (v : Bool) :
    MnBecomes s (s.mnPred c k v) c { s.mn c with preds := predSet (s.mn c).preds k v } := mnBecomes_setMn _ _ _

theorem VeBecomes.trans {s t u : State} {c : Nat} {v w : Ve} (h : VeBecomes s t c v) (k : VeBecomes t u c w) : VeBecomes s u c w where
  core := by rw [k.core, h.core]
  others e he := (k.others e he).trans (h.others e he)
  rest := by rw [k.rest, h.rest]

theorem MnBecomes.trans {s t u : State} {c : Nat} {m l : Mn} (h : MnBecomes s t c m) (k : MnBecomes t u c l) : MnBecomes s u c l where
  core := by rw [k.core, h.core]
  others e he := (k.others e he).trans (h.others e he)
  rest := by rw [k.rest, h.rest]

/-! ### What the forms run -/

theorem exec_cmp (a b d : BitVec 4) (p c : BitVec 3) (w : BitVec 2) (s : State) : exec (.cmp a b d p c w) s = execCmp a b d p c w s := rfl

theorem exec_fcmp (a b d : BitVec 4) (p : BitVec 3) (c : BitVec 2) (f : Bool) (s : State) :
    exec (.fcmp a b d p c f) s = execFcmp a b d p c f s := rfl

theorem exec_plog (a b d p f : BitVec 3) (s : State) : exec (.plog a b d p f) s = execPlog a b d p f s := rfl

theorem exec_prd (d : BitVec 4) (p : BitVec 3) (s : State) : exec (.prd d p) s = execPrd d p s := rfl

theorem exec_pwr (a b : BitVec 4) (p : BitVec 3) (s : State) : exec (.pwr a b p) s = execPwr a b p s := rfl

theorem exec_itset (d : BitVec 2) (i : BitVec 16) (s : State) : exec (.itset d i) s = execItset d i s := rfl

theorem exec_itnxt (a : BitVec 2) (d p : BitVec 3) (s : State) : exec (.itnxt a d p) s = execItnxt a d p s := rfl

/-- A row that reads `a` and `b` into a predicate of its VE consumes them and writes it. -/
theorem Finds.comparison {s : State} {c : Nat} {a b : BitVec 4} {ops : List Operand} (h : Finds s c [s.readSel c a, s.readSel c b] 0 ops)
    (k : BitVec 3) (f : List Operand → Bool) :
    s.veFire c [a, b] 15 0 true (fun ops s' => s'.vePred c k (f ops)) = (s.consume c ops).vePred c k (f ops) :=
  Finds.fire (sels := [a, b]) h _ _ _

/-! ### Iteration counters -/

/-- R165: an advance adds 1, or starts again from 0 where that reaches the limit. -/
theorem Counter.advance_fst (x : Counter) :
    x.advance.1 = { x with count := if x.count + 1 = x.limit then 0 else x.count + 1 } := by
  unfold Counter.advance
  split <;> rfl

theorem Counter.advance_snd (x : Counter) : x.advance.2 = (x.count + 1 == x.limit) := by
  unfold Counter.advance
  split
  · next h => exact (beq_iff_eq.2 h).symm
  · next h => exact (beq_eq_false_iff_ne.2 h).symm

/-- R165: a counter below its limit reaches it in 16 bits exactly when it reaches it as a number, where the limit 0 stands for 65 536. -/
theorem Counter.reaches_limit_iff (x : Counter) (h : x.count.toNat < if x.limit = 0 then 65536 else x.limit.toNat) :
    x.count + 1 = x.limit ↔ x.count.toNat + 1 = if x.limit = 0 then 65536 else x.limit.toNat := by
  have hcount := x.count.isLt
  have hlimit := x.limit.isLt
  rw [← BitVec.toNat_inj, BitVec.toNat_add, show (1 : BitVec 16).toNat = 1 from rfl]
  by_cases hzero : x.limit = 0
  · rw [if_pos hzero, hzero, show (0 : BitVec 16).toNat = 0 from rfl]
    omega
  · rw [if_neg hzero] at h ⊢
    omega

/-- Counters and a predicate of a VE written one after the other: both are new, and nothing else. -/
theorem veBecomes_ics_vePred (s : State) (c : Nat) (ics : Tab Counter) (k : BitVec 3) (v : Bool) :
    VeBecomes s ((s.setVe c { s.ve c with ics := ics }).vePred c k v) c
      { s.ve c with ics := ics, preds := predSet (s.ve c).preds k v } := by
  have h := (veBecomes_setVe s c { s.ve c with ics := ics }).trans (veBecomes_vePred _ c k v)
  rwa [State.ve_setVe_same] at h

theorem mnBecomes_ics_mnPred (s : State) (c : Nat) (ics : Tab Counter) (k : BitVec 3) (v : Bool) :
    MnBecomes s ((s.setMn c { s.mn c with ics := ics }).mnPred c k v) c
      { s.mn c with ics := ics, preds := predSet (s.mn c).preds k v } := by
  have h := (mnBecomes_setMn s c { s.mn c with ics := ics }).trans (mnBecomes_mnPred _ c k v)
  rwa [State.mn_setMn_same] at h

/-- A word of a VE whose guard fails changes nothing (R125). -/
theorem word_ve_off (i : Instr) (g : BitVec 8 → Bool) (f v m : Nat → State → State) (s : State) (c : Nat) (ha : s.actor = .ve c)
    (hw : i.wf .ve = true) (hg : g (s.ve c).preds = false) : word i g f v m s = .next s := by
  simp [word, ha, hw, hg]

theorem word_mn_off (i : Instr) (g : BitVec 8 → Bool) (f v m : Nat → State → State) (s : State) (c : Nat) (ha : s.actor = .mn c)
    (hw : i.wf .mn = true) (hg : g (s.mn c).preds = false) : word i g f v m s = .next s := by
  simp [word, ha, hw, hg]

/-! ### The statements -/

/-- Settles O5: each form runs its body under the frame of a word, and the lane conditions, the functions and the bits that the bodies
compute are those of R163 and R164. -/
theorem predicateForms : Obligations.PredicateForms := by
  intro s n a b d p c x y z w e f ops word mn
  refine ⟨decode_plog_reservedBits mn, ?cmpSeq, ?cmpVe, ?fcmp, ?plogSeq, ?plogVe, ?plogMn, ?prd, ?pwr⟩
  case cmpSeq =>
    intro h
    exact ⟨_, _, (exec_cmp ..).trans (h.word _ _ _), seqBecomes_seqPred s n _ _, cmpLanes_iff ..⟩
  case cmpVe =>
    intro h hops
    exact ⟨_, (exec_cmp ..).trans ((h.word _ _ _).trans (congrArg _ (hops.comparison _ _))), cmpLanes_iff ..⟩
  case fcmp =>
    intro h hops
    exact ⟨_, (exec_fcmp ..).trans ((h.word _ _ _).trans (congrArg _ (hops.comparison _ _))), overLanes_iff ..⟩
  case plogSeq =>
    intro h
    rw [← logicFn_eq_predicateFn]
    exact ⟨_, (exec_plog ..).trans (h.word _ _ _), seqBecomes_seqPred s n z _⟩
  case plogVe =>
    intro h
    rw [← logicFn_eq_predicateFn]
    exact ⟨_, (exec_plog ..).trans (h.word _ _ _), veBecomes_vePred s n z _⟩
  case plogMn =>
    intro h
    rw [← logicFn_eq_predicateFn]
    exact ⟨_, (exec_plog ..).trans (h.word _ _ _), mnBecomes_mnPred s n z _⟩
  case prd =>
    intro h
    exact ⟨_, _, (exec_prd ..).trans (h.word _ _ _), seqBecomes_seqNext s n _, fun k hk => getLsbD_predByte_setWidth _ hk⟩
  case pwr =>
    intro h
    exact ⟨_, _, (exec_pwr ..).trans (h.word _ _ _), seqBecomes_seqNext s n _, fun k hk => getLsbD_predWrite _ _ _ hk⟩

/-- Settles O6: each form runs its body under the frame of a word, and the body's advance of the counter is that of R165. -/
theorem iterationCounters : Obligations.IterationCounters := by
  intro s c k i d p w mn e next steps
  refine ⟨rfl, rfl, rfl, rfl, rfl, decode_itset_reservedBits mn, ?itsetVe, ?itsetMn, ?itnxtVe, ?itnxtMn, e.reaches_limit_iff,
    ?offVe, ?offMn⟩
  case itsetVe => exact fun h => ⟨_, (exec_itset ..).trans (h.word _ _ _), veBecomes_setVe s c _⟩
  case itsetMn => exact fun h => ⟨_, (exec_itset ..).trans (h.word _ _ _), mnBecomes_setMn s c _⟩
  case itnxtVe =>
    intro h x
    have hnext : next x = x.advance.1 := x.advance_fst.symm
    rw [hnext, ← x.advance_snd]
    exact ⟨_, (exec_itnxt ..).trans (h.word _ _ _), veBecomes_ics_vePred s c _ d _⟩
  case itnxtMn =>
    intro h x
    have hnext : next x = x.advance.1 := x.advance_fst.symm
    rw [hnext, ← x.advance_snd]
    exact ⟨_, (exec_itnxt ..).trans (h.word _ _ _), mnBecomes_ics_mnPred s c _ d _⟩
  case offVe => exact fun turn legal off => (exec_itnxt ..).trans (word_ve_off _ _ _ _ _ s c turn legal off)
  case offMn => exact fun turn legal off => (exec_itnxt ..).trans (word_mn_off _ _ _ _ _ s c turn legal off)

end Sys2Proof.Machine
end

section
/-! Operand slots (R75, R200, R202): what WCLM, WREL and WSTAT do to a slot's claims and what they read of its state, and which bits of
WSTAT are reserved. -/

namespace Sys2Proof.Machine

/-! ### Reserved bits of WSTAT -/

theorem decode_opcode_wstat {w : Word} (mn : Bool) (h : w.extractLsb' 24 8 = 0x92#8) :
    decode mn w = if mn then row w 0xFFF8FF80 0x92000000 (.wstatMn (field w 16 3) (field w 5 2) (field w 0 5))
      else row w 0xFFF00FC0 0x92000000 (.wstatSeq (field w 16 4) (field w 12 4) (bit w 5) (field w 0 5)) := by
  obtain ⟨hhigh, hlow⟩ := field_opcode h
  simp [decode, decodeMatrix, hhigh, hlow]

/-- R202: on an MN, a and sub[7:3] of WSTAT are reserved. -/
theorem decode_wstatMn_reservedBits {w : Word} (hop : w.extractLsb' 24 8 = 0x92#8)
    (h : w.extractLsb' 19 5 ≠ 0#5 ∨ w.extractLsb' 12 4 ≠ 0#4) : decode true w = .bad .reservedBits := by
  rw [decode_opcode_wstat true hop, if_pos rfl]
  rcases h with hsub | ha
  · exact row_reservedField hsub (by decide)
  · exact row_reservedField ha (by decide)

/-- R202: on a sequencer, sub[7:4] and imm12[11:6] of WSTAT are reserved. -/
theorem decode_wstatSeq_reservedBits {w : Word} (hop : w.extractLsb' 24 8 = 0x92#8)
    (h : w.extractLsb' 20 4 ≠ 0#4 ∨ w.extractLsb' 6 6 ≠ 0#6) : decode false w = .bad .reservedBits := by
  rw [decode_opcode_wstat false hop, if_neg Bool.false_ne_true]
  rcases h with hsub | himm
  · exact row_reservedField hsub (by decide)
  · exact row_reservedField himm (by decide)

/-! ### A slot's tests -/

theorem Slot.claimWaits_iff (x : Slot) : x.claimWaits = true ↔ x.pend = true ∨ (x.state = 1 ∧ x.claiming = true) := by
  simp [Slot.claimWaits]

/-- R202: the test of WSTAT is the one its field names. -/
theorem Slot.passes_eq (x : Slot) (t : BitVec 2) :
    x.passes t = if t = 0 then decide (x.state = 2 ∧ x.pend = false) else if t = 1 then x.pend
      else if t = 2 then decide (x.claims ≠ 0) else x.mirror := by
  have ht : t = 0 ∨ t = 1 ∨ t = 2 ∨ t = 3 := by
    revert t
    decide
  rcases ht with rfl | rfl | rfl | rfl
  · exact show (x.state == 2 && !x.pend) = decide (x.state = 2 ∧ x.pend = false) by rw [Bool.decide_and]; cases x.pend <;> rfl
  · rfl
  · rfl
  · rfl

theorem mnBecomes_setSlot (s : State) (k n : Nat) (x : Slot) :
    MnBecomes s (s.setMn k ((s.mn k).setSlot n x)) k { s.mn k with slots := put {} (s.mn k).slots n x } := mnBecomes_setMn _ _ _

/-! ### What the forms run -/

theorem MnRuns.mnWord {i : Instr} {c : BitVec 3} {s : State} {k : Nat} (h : MnRuns i (cpHolds c) s k) (body : Nat → State → State) :
    Sys2Proof.Machine.mnWord i c body s = .next (body k s) := h.word _ _ _

theorem exec_wclm (c : BitVec 3) (n : BitVec 5) (s : State) : exec (.wclm c n) s = execWclm c n s := rfl

theorem exec_wrel (c : BitVec 3) (n : BitVec 5) (s : State) : exec (.wrel c n) s = execWrel c n s := rfl

theorem exec_wstatMn (m : BitVec 3) (t : BitVec 2) (n : BitVec 5) (s : State) :
    exec (.wstatMn m t n) s = execWstatMn m t n s := rfl

theorem exec_wstatSeq (d a : BitVec 4) (h : Bool) (n : BitVec 5) (s : State) :
    exec (.wstatSeq d a h n) s = execWstatSeq d a h n s := rfl

section
variable {c : BitVec 3} {n : BitVec 5} {s : State} {k : Nat}

/-- A claim that waits stalls with source 3 (R75). -/
theorem MnRuns.wclm_waits (h : MnRuns (.wclm c n) (cpHolds c) s k) (hw : ((s.mn k).slot n.toNat).claimWaits = true) :
    exec (.wclm c n) s = .next { s.addStall 3 with
      scratch := { (s.addStall 3).scratch with claims := (s.addStall 3).scratch.claims ++ [(k, n)] } } := by
  rw [exec_wclm, execWclm, h.mnWord]
  exact congrArg _ (if_pos hw)

/-- A sixteenth claim is a slot fault (R75). -/
theorem MnRuns.wclm_full (h : MnRuns (.wclm c n) (cpHolds c) s k) (hw : ¬ ((s.mn k).slot n.toNat).claimWaits = true)
    (hc : ((s.mn k).slot n.toNat).claims = 15) :
    exec (.wclm c n) s = .next (s.addFault k true 0x18 (slotVal n ((s.mn k).slot n.toNat).claims)) := by
  rw [exec_wclm, execWclm, h.mnWord]
  exact congrArg _ ((if_neg hw).trans (if_pos hc))

theorem MnRuns.wclm_claims (h : MnRuns (.wclm c n) (cpHolds c) s k) (hw : ¬ ((s.mn k).slot n.toNat).claimWaits = true)
    (hc : ((s.mn k).slot n.toNat).claims ≠ 15) :
    exec (.wclm c n) s = .next (s.setMn k ((s.mn k).setSlot n.toNat
      { (s.mn k).slot n.toNat with claims := ((s.mn k).slot n.toNat).claims + 1, claiming := false })) := by
  rw [exec_wclm, execWclm, h.mnWord]
  exact congrArg _ ((if_neg hw).trans (if_neg hc))

/-- A release without a claim is a slot fault (R75). -/
theorem MnRuns.wrel_unclaimed (h : MnRuns (.wrel c n) (cpHolds c) s k) (hc : ((s.mn k).slot n.toNat).claims = 0) :
    exec (.wrel c n) s = .next (s.addFault k true 0x18 (slotVal n ((s.mn k).slot n.toNat).claims)) := by
  rw [exec_wrel, execWrel, h.mnWord]
  exact congrArg _ (if_pos hc)

theorem MnRuns.wrel_releases (h : MnRuns (.wrel c n) (cpHolds c) s k) (hc : ((s.mn k).slot n.toNat).claims ≠ 0) :
    exec (.wrel c n) s = .next (s.setMn k ((s.mn k).setSlot n.toNat
      { (s.mn k).slot n.toNat with claims := ((s.mn k).slot n.toNat).claims - 1 })) := by
  rw [exec_wrel, execWrel, h.mnWord]
  exact congrArg _ (if_neg hc)

end

/-! ### The statement -/

/-- Settles O21: each form runs its body under the frame of a word, and the branch of the body is the one that the slot's claims and its
pending fill select. -/
theorem operandSlotForms : Obligations.OperandSlotForms := by
  intro s k c m n t a d h word x
  refine ⟨decode_wstatMn_reservedBits, decode_wstatSeq_reservedBits, ?claim, ?claimWaits, ?release, ?testMn, ?readSeq⟩
  case claim =>
    intro hruns hpend hclaiming
    have hfree : ¬ x.claimWaits = true := by
      rw [Slot.claimWaits_iff, hpend]
      rintro (hp | ⟨hs, hc⟩)
      · exact Bool.false_ne_true hp
      · exact Bool.false_ne_true ((hclaiming hs).symm.trans hc)
    exact ⟨fun hc => ⟨_, hruns.wclm_claims hfree hc, mnBecomes_setSlot ..⟩, hruns.wclm_full hfree⟩
  case claimWaits => exact fun hruns hwaits => hruns.wclm_waits (x.claimWaits_iff.2 hwaits)
  case release => exact fun hruns => ⟨fun hc => ⟨_, hruns.wrel_releases hc, mnBecomes_setSlot ..⟩, hruns.wrel_unclaimed⟩
  case testMn =>
    intro hruns
    rw [← Slot.passes_eq]
    exact ⟨_, (exec_wstatMn ..).trans (hruns.mnWord _), mnBecomes_mnPred ..⟩
  case readSeq =>
    intro hruns core y bits v
    have hcore : (((s.seq k).get a).setWidth 11).toNat = core := BitVec.toNat_setWidth ..
    refine ⟨_, (exec_wstatSeq ..).trans (hruns.word _ _ _), ?_⟩
    dsimp only
    rw [hcore]
    exact seqBecomes_seqNext s k _

end Sys2Proof.Machine
end

section
/-! Unassigned opcodes (R419): which words decode to no row of the opcode table, what a trap leaves in a sequencer (R155), and what a word
that decodes to nothing does at a sequencer, a VE and an MN (R418, R421, R422). -/

namespace Sys2Proof.Machine

/-! ### The opcodes that decode to nothing -/

/-- R419: the 86 unassigned opcodes. -/
def Unassigned (op : Nat) : Prop :=
  0x14 ≤ op ∧ op ≤ 0x1F ∨ op = 0x4E ∨ op = 0x4F ∨ 0x6C ≤ op ∧ op ≤ 0x7F ∨ 0x88 ≤ op ∧ op ≤ 0x8F ∨ 0x9C ≤ op ∧ op ≤ 0x9F ∨
  0xAE ≤ op ∧ op ≤ 0xBF ∨ 0xCC ≤ op ∧ op ≤ 0xCF ∨ 0xE2 ≤ op ∧ op ≤ 0xEF ∨ 0xFC ≤ op ∧ op ≤ 0xFF

/-- R129 Table 8: how many of the sixteen opcodes with this high half are assigned; they are the lowest of the sixteen. -/
def assignedOpcodes (high : Nat) : Nat := [16, 4, 16, 16, 14, 16, 12, 0, 8, 12, 14, 0, 12, 16, 2, 12].getD high 0

/-- The runs of R419 are what the assigned opcodes of each high half leave. -/
theorem unassigned_iff_assignedOpcodes_le :
    ∀ high < 16, ∀ low < 16, Unassigned (16 * high + low) ↔ assignedOpcodes high ≤ low := by
  intro high hhigh low hlow
  unfold Unassigned
  have hcases : high = 0 ∨ high = 1 ∨ high = 2 ∨ high = 3 ∨ high = 4 ∨ high = 5 ∨ high = 6 ∨ high = 7 ∨ high = 8 ∨ high = 9 ∨ high = 10 ∨
      high = 11 ∨ high = 12 ∨ high = 13 ∨ high = 14 ∨ high = 15 := by omega
  rcases hcases with rfl | rfl | rfl | rfl | rfl | rfl | rfl | rfl | rfl | rfl | rfl | rfl | rfl | rfl | rfl | rfl <;>
    simp only [assignedOpcodes, List.getD_cons_zero, List.getD_cons_succ] <;> omega

/-- The opcode of a word by its two halves. -/
theorem opcode_eq_halves (w : Word) : (w.extractLsb' 24 8).toNat = 16 * (field w 28 4).toNat + (field w 24 4).toNat := by
  have hop := (w.extractLsb' 24 8).isLt
  obtain ⟨hhigh, hlow⟩ := field_opcode (w := w) rfl
  rw [hhigh, hlow]
  generalize w.extractLsb' 24 8 = op at hop ⊢
  rw [BitVec.extractLsb'_toNat, BitVec.extractLsb'_toNat, Nat.shiftRight_eq_div_pow, Nat.shiftRight_zero]
  omega

/-- A row of the opcode table refuses a word for its reserved bits alone (R420). -/
theorem row_ne_unassigned (w mask fixed : Word) (i : Instr) : row w mask fixed i ≠ .bad .unassigned := by
  unfold row
  split <;> exact nofun

/-! Along the rows of each high half: an assigned opcode has a row, and no row answers `.unassigned`, so only the opcodes past the last row
do. -/

section
variable (w : Word)

theorem decodeControl_ne_unassigned : decodeControl w ≠ .bad .unassigned := by
  unfold decodeControl
  split <;> exact row_ne_unassigned _ _ _ _

theorem decodeControl1_unassigned_iff : decodeControl1 w = .bad .unassigned ↔ 4 ≤ (field w 24 4).toNat := by
  unfold decodeControl1
  split <;> grind [row_ne_unassigned]

theorem decodeInteger_ne_unassigned : decodeInteger w ≠ .bad .unassigned := by
  unfold decodeInteger
  split <;> exact row_ne_unassigned _ _ _ _

theorem decodeInteger1_ne_unassigned : decodeInteger1 w ≠ .bad .unassigned := by
  unfold decodeInteger1
  split <;> exact row_ne_unassigned _ _ _ _

theorem decodePredicate_unassigned_iff : decodePredicate w = .bad .unassigned ↔ 14 ≤ (field w 24 4).toNat := by
  unfold decodePredicate
  split <;> grind [row_ne_unassigned]

theorem decodeFloat_ne_unassigned : decodeFloat w ≠ .bad .unassigned := by
  unfold decodeFloat
  split <;> exact row_ne_unassigned _ _ _ _

theorem decodeFloat1_unassigned_iff : decodeFloat1 w = .bad .unassigned ↔ 12 ≤ (field w 24 4).toNat := by
  unfold decodeFloat1
  split <;> grind [row_ne_unassigned]

theorem decodeConvert_unassigned_iff : decodeConvert w = .bad .unassigned ↔ 8 ≤ (field w 24 4).toNat := by
  unfold decodeConvert
  split <;> grind [row_ne_unassigned]

theorem decodeMatrix_unassigned_iff (mn : Bool) : decodeMatrix mn w = .bad .unassigned ↔ 12 ≤ (field w 24 4).toNat := by
  unfold decodeMatrix
  split <;> grind [row_ne_unassigned]

theorem decodeMemory_unassigned_iff : decodeMemory w = .bad .unassigned ↔ 14 ≤ (field w 24 4).toNat := by
  unfold decodeMemory
  split <;> grind [row_ne_unassigned]

theorem decodeAtomic_unassigned_iff : decodeAtomic w = .bad .unassigned ↔ 12 ≤ (field w 24 4).toNat := by
  unfold decodeAtomic
  split <;> grind [row_ne_unassigned]

theorem decodeStream_ne_unassigned : decodeStream w ≠ .bad .unassigned := by
  unfold decodeStream
  split <;> exact row_ne_unassigned _ _ _ _

theorem decodeStream1_unassigned_iff : decodeStream1 w = .bad .unassigned ↔ 2 ≤ (field w 24 4).toNat := by
  unfold decodeStream1
  split <;> grind [row_ne_unassigned]

theorem decodePrivileged_unassigned_iff : decodePrivileged w = .bad .unassigned ↔ 12 ≤ (field w 24 4).toNat := by
  unfold decodePrivileged
  split <;> grind [row_ne_unassigned]

/-- Each high half by the count of its assigned opcodes; 7 and 11 have none. -/
theorem decode_unassigned_iff_halves (mn : Bool) :
    decode mn w = .bad .unassigned ↔ assignedOpcodes (field w 28 4).toNat ≤ (field w 24 4).toNat := by
  have hhigh := (field w 28 4).isLt
  have hlow := (field w 24 4).isLt
  unfold decode
  split
  next h => rw [h]; exact iff_of_false (decodeControl_ne_unassigned w) (Nat.not_le.2 hlow)
  next h => rw [h]; exact decodeControl1_unassigned_iff w
  next h => rw [h]; exact iff_of_false (decodeInteger_ne_unassigned w) (Nat.not_le.2 hlow)
  next h => rw [h]; exact iff_of_false (decodeInteger1_ne_unassigned w) (Nat.not_le.2 hlow)
  next h => rw [h]; exact decodePredicate_unassigned_iff w
  next h => rw [h]; exact iff_of_false (decodeFloat_ne_unassigned w) (Nat.not_le.2 hlow)
  next h => rw [h]; exact decodeFloat1_unassigned_iff w
  next h => rw [h]; exact decodeConvert_unassigned_iff w
  next h => rw [h]; exact decodeMatrix_unassigned_iff w mn
  next h => rw [h]; exact decodeMemory_unassigned_iff w
  next h => rw [h]; exact decodeAtomic_unassigned_iff w
  next h => rw [h]; exact iff_of_false (decodeStream_ne_unassigned w) (Nat.not_le.2 hlow)
  next h => rw [h]; exact decodeStream1_unassigned_iff w
  next h => rw [h]; exact decodePrivileged_unassigned_iff w
  next =>
    have hnone : (field w 28 4).toNat = 7 ∨ (field w 28 4).toNat = 11 := by grind
    rcases hnone with h | h <;> rw [h] <;> exact iff_of_true rfl (Nat.zero_le _)

/-- R419: the words that decode to no opcode are those of the unassigned opcodes, whoever reads them. -/
theorem decode_unassigned_iff (mn : Bool) : decode mn w = .bad .unassigned ↔ Unassigned (w.extractLsb' 24 8).toNat := by
  rw [decode_unassigned_iff_halves, opcode_eq_halves]
  exact (unassigned_iff_assignedOpcodes_le _ (field w 28 4).isLt _ (field w 24 4).isLt).symm

end

theorem nop_wf (k : Kind) (p : BitVec 3) : Instr.wf k (.nop p) = true := by
  cases k <;> rfl

/-! ### Traps (R155) -/

/-- A TCAUSE register by its two fields (R153 Table 4). -/
theorem causeWord_eq (super : Bool) (cause : BitVec 16) :
    causeWord super cause = (if super then 1#64 <<< 63 else 0) ||| cause.setWidth 64 := by
  refine BitVec.eq_of_toNat_eq ?_
  have hlow : (0#47 ++ cause).toNat = cause.toNat := (BitVec.toNat_append 0#47 cause).trans (by simp)
  have hword : (causeWord super cause).toNat = (BitVec.ofBool super).toNat <<< 63 ||| (0#47 ++ cause).toNat := BitVec.toNat_append ..
  rw [hword, hlow, BitVec.toNat_or, BitVec.toNat_setWidth, Nat.mod_eq_of_lt (by omega)]
  cases super <;> rfl

theorem Seq.get_swapSp (q : Seq) (k : BitVec 4) : q.swapSp.get k = if k = 15 then q.ssp else q.get k := by
  have hget : q.swapSp.get k = (q.set 15 q.ssp).get k := rfl
  rw [hget, Seq.get_set]
  by_cases hzero : k = 0
  · subst hzero
    rfl
  · rw [if_neg hzero]
    exact ite_congr (propext eq_comm) (fun _ => rfl) (fun _ => rfl)

section
variable {q : Seq} (cause : BitVec 16) (pc val info : W64) (mask : BitVec 8)

/-- The stack pointers change places where the trap comes from the user level. -/
theorem Seq.trapEntry_acked (h : q.unack = false) :
    q.trapEntry cause pc val info mask =
      { (if q.super then q else q.swapSp) with
        tcause0 := causeWord q.super cause, tpc0 := pc, tval0 := val, tinfo0 := info, tmask0 := mask, unack := true, begun := false,
        record0Isl := none, lostIsls := q.lostIsls ++ q.record0Isl.toList, super := true, pc := q.tvec } := by
  unfold Seq.trapEntry
  rw [h]
  cases q.super <;> rfl

theorem Seq.trapEntry_unacked (h : q.unack = true) :
    q.trapEntry cause pc val info mask =
      { q with tcause1 := causeWord q.super cause, tpc1 := pc, tval1 := val, tinfo1 := info, tmask1 := mask, r1v := true, run := .halted,
               begun := false } := by
  unfold Seq.trapEntry
  exact if_pos h

theorem Seq.traps_trapEntry (h : q.unack = false) : Traps q (q.trapEntry cause pc val info mask) cause pc val info mask := by
  have hget (k : BitVec 4) : (q.trapEntry cause pc val info mask).get k = (if q.super then q else q.swapSp).get k := by
    rw [Seq.trapEntry_acked _ _ _ _ _ h]
    rfl
  constructor
  case sp =>
    rw [hget]
    split
    · rfl
    · exact q.get_swapSp 15
  case regs =>
    intro k hk
    rw [hget]
    split
    · rfl
    · exact (q.get_swapSp k).trans (if_neg hk)
  all_goals rw [Seq.trapEntry_acked _ _ _ _ _ h]
  case cause => exact causeWord_eq ..
  case ssp => split <;> rfl
  case rest => split <;> rfl

end

/-! ### A word that decodes to nothing (R418, R421, R422) -/

section
variable {mn : Bool} {w : Word} {s : State}

theorem runWord_bad {r : Reject} (h : decode mn w = .bad r) : runWord mn w s = execIllegalWordDecode w s := by
  unfold runWord
  rw [h]

variable (w)

theorem execIllegalWordDecode_seq {n : Nat} (h : s.actor = .seq n) :
    execIllegalWordDecode w s = .next (s.seqFault n 0x02 (w.setWidth 64)) := by
  unfold execIllegalWordDecode
  rw [h]

/-- R422: an illegal row changes nothing but the faults of the cycle. -/
theorem execIllegalWordDecode_row {c : Nat} (h : s.actor = .ve c ∨ s.actor = .mn c) :
    ∃ unit, execIllegalWordDecode w s = .next (s.addFault c unit 0x02 (w.setWidth 64)) := by
  unfold execIllegalWordDecode
  rcases h with h | h <;> rw [h]
  · exact ⟨false, rfl⟩
  · exact ⟨true, rfl⟩

end

/-! ### The statement -/

/-- Settles O60: the decoder finds no row for exactly the opcodes of R419, and a word that decodes to nothing raises kind 0x02 at its
executor, whatever the level. -/
theorem unassignedOpcodes : Obligations.UnassignedOpcodes := by
  intro s w mn n c k op free faults
  have hdecode : decode mn w = .bad .unassigned ↔ free op := decode_unassigned_iff w mn
  refine ⟨hdecode.2, mt hdecode.1, ?trap, ?halt, ?row, (decode_unassigned_iff _ mn).2 ?erased, ?zero, nop_wf k 0⟩
  case trap =>
    intro hfree hturn hunack
    exact ⟨_, _, (runWord_bad (hdecode.2 hfree)).trans (execIllegalWordDecode_seq w hturn), seqBecomes_setSeq ..,
      Seq.traps_trapEntry _ _ _ _ _ hunack⟩
  case halt =>
    intro hfree hturn hunack
    refine ⟨_, _, (runWord_bad (hdecode.2 hfree)).trans (execIllegalWordDecode_seq w hturn), seqBecomes_setSeq .., ?_⟩
    rw [Seq.trapEntry_unacked _ _ _ _ _ hunack]
    exact ⟨rfl, rfl, rfl, rfl, rfl⟩
  case row =>
    intro hfree hturn
    obtain ⟨unit, hrow⟩ := execIllegalWordDecode_row w hturn
    exact ⟨_, _, (runWord_bad (hdecode.2 hfree)).trans hrow, rfl, rfl, rfl, rfl, rfl⟩
  case erased =>
    unfold Unassigned
    decide
  case zero => rfl

end Sys2Proof.Machine
end
